-- ==== Sys2Proof/Word.lean ====
section
/-! DEFINITION. The words of the device: 32-bit registers and bytes (R10, R11). -/

namespace Sys2Proof

/-- A register word (spec/00_scope.md: registers are 32 bits wide). -/
abbrev Word := BitVec 32

/-- A byte of a memory, a frame or a record. -/
abbrev Byte := BitVec 8

end Sys2Proof
end

