-- ==== Sys2Proof/Syntax.lean ====
section
/-! DEFINITION. The commands of the block (spec/opcode_table.json) and the types of their operands. -/

namespace Sys2Proof

/-- The two requesters of R17: the PCIe host and the housekeeping cores. -/
inductive Req where
  | host | cores
deriving DecidableEq, Repr

/-- What the housekeeping cores have solved at a GNSS epoch (R183 to R190), before the delays of R184: time of the reference system in 2^-16 ns since 1970, by band 0 alone, band 1 alone or the dual-frequency combination; drift in 2^-16 ppt and its uncertainty in ppt; estimated σ in ps; satellites used, whether of two systems; difference of the single-band solutions and rms of the residuals in ns; position and its uncertainty in mm. -/
structure GnSolution where
  sysTime : Int
  iono : Fin 3 := 0
  drift : Int
  driftUnc : Nat := 0
  sigmaPs : Nat
  nsat : Nat
  twoSystems : Bool := false
  bandDiff : Option Nat := none
  residual : Nat := 0
  pos : List Int := []
  posUnc : Nat := 0
deriving DecidableEq, Repr

/-- A DMA ring: receive or transmit ring of an answer die, the command ring, the event ring (R336, R348, R359). -/
inductive RingId where
  | rx (n : Fin 4) (r : Fin 8)
  | tx (n : Fin 4) (t : Fin 8)
  | cmd
  | ev
deriving DecidableEq, Repr

/-- What resets the PCIe function (R82, R335): PERST_N low, hot reset, function-level reset, link loss. A return from D3hot is a configuration request. -/
inductive PcieReset where
  | perst | hot | flr | linkLoss
deriving DecidableEq, Repr

/-- The commands: one constructor per row of spec/opcode_table.json. Operands are what arrives from outside the model: addresses and data of accesses, frames, measured values, results of firmware and analogue circuits. -/
inductive Instr where
  /-- REGISTER_WRITE (R12): A write through BAR0 to a register that has no row of its own; the value is set, ignored or cleared according to the access code. -/
  | registerWrite (req : Req) (addr : Nat) (size : Nat) (v : Nat)
  /-- MULTIWORD_LATCH_READ (R14): A read of the lowest word of a multiword group latches the higher words for that requester. -/
  | multiwordLatchRead (req : Req) (addr : Nat) (size : Nat)
  /-- GUARD_WRITE (R18): A write to a block's GUARD register arms, re-arms or clears the arming of an RWG register. -/
  | guardWrite (req : Req) (block : Fin 3) (v : Word)
  /-- BAR2_ACCESS (R334): A read or write through the BAR2 window to the bulk or log region, with decryption, encryption and ECC handling. -/
  | bar2Access (ofs : Nat) (acc : List Byte ⊕ Nat) (bad : List Nat)
  /-- SYNC_WORD_SEND (R23): Every 8,192 ticks the keeper sends each answer die a sync word that carries the master raw count at a marker edge. -/
  | syncWordSend (n : Fin 4)
  /-- SYNC_WORD_RECEIVE (R25): An answer die takes a sync word, echoes the marker and slews its replica toward the value that the word implies. -/
  | syncWordReceive (n : Fin 4)
  /-- ALIGN_LOST (R27): After 4 consecutive sync words with the residual beyond ±20 ps, ALIGNED clears and a detected fault begins. -/
  | alignLost (n : Fin 4)
  /-- ALIGNED (R27): After 4 consecutive sync words with the residual within ±20 ps, ALIGNED is set again. -/
  | aligned (n : Fin 4)
  /-- MARKER_ECHO (R24): The keeper takes an echo of a marker and recomputes the filtered forward delay of the link. -/
  | markerEcho (n : Fin 4) (rtt : Nat)
  /-- CLOCK_PAIR_LOSS (R28): Loss of a forwarded clock pair; the replica counts on the other pair, and loss of both forces a die reset. -/
  | clockPairLoss (n : Fin 4) (p : Fin 2)
  /-- LANE_FAILURE (R22): A data lane of a die link fails and its traffic starts to move onto the spare lane; a second failure forces a reset. -/
  | laneFailure (k : Fin 14) (up : Bool) (lane : Fin 16)
  /-- LANE_REMAP_COMPLETE (R22): The remap onto the spare lane completes, within 12 µs of the lane failure. -/
  | laneRemapComplete (k : Fin 14)
  /-- PARAMETER_SET_PUBLISH (R30): The keeper publishes a new scale parameter set, quality record or switch to every answer die ahead of its epoch. -/
  | parameterSetPublish (dies : Nat)
  /-- SCALE_SET_APPLIED (R106): A parameter set reaches its epoch, takes effect and enters the journal; the oldest journal entry is discarded. -/
  | scaleSetApplied (k : Fin 2)
  /-- EU_SUBMIT (R68): EU_CTRL.SUBMIT starts the fetch and check of a patch or register batch. -/
  | euSubmit
  /-- EU_CHECK_COMPLETE (R74): The fetched submission has been checked: it is scheduled or refused, and LAST_CODE and DONE are written. -/
  | euCheckComplete (kind : Fin 2)
  /-- EU_CANCEL (R72): EU_CTRL.CANCEL removes a pending submission, or is refused with TOO_LATE or NONE_PENDING. -/
  | euCancel
  /-- EPOCH_UPDATE_APPLY (R70): At its epoch a pending patch and/or register batch applies on every die at once, the patch first. -/
  | epochUpdateApply
  /-- MODE_GO (R77): MODE_CTRL.GO requests a mode transition, which is started, latched or refused. -/
  | modeGo
  /-- SERVE_EPOCH (R79): Entry to or exit from SERVE takes effect at its raw-count epoch. -/
  | serveEpoch
  /-- MODE_TRANSITION_COMPLETE (R78): A mode transition completes; DONE is set and any latched request is acted on. -/
  | modeTransitionComplete
  /-- STANDBY_RESTART_HANDOVER (R93): After TB-PLL lock, at the next oscillator edge the raw counter returns from oscillator clocking to 800 MHz counting with the stored phase. -/
  | standbyRestartHandover
  /-- RESET_N_LOW (R82): RESET_N goes low and the device enters BYPASS. -/
  | resetNLow
  /-- RESET_N_RISE (R77): RESET_N rises with PWR_GOOD high and the device leaves BYPASS for LOAD. -/
  | resetNRise
  /-- PWR_GOOD_LOW (R82): PWR_GOOD falls: the device enters BYPASS and volatile keys are zeroised within 1 µs. -/
  | pwrGoodLow
  /-- VDD_AON_LOSS (R84): VDD_AON falls below its trip level, which clears the retention memory and sets only RESET_CAUSE.POWER. -/
  | vddAonLoss
  /-- DEVICE_RESET (R82): An armed write of RESET_CTRL.DEVICE_RESET starts an internal reset. -/
  | deviceReset (req : Req) (v : Word)
  /-- INTERNAL_RESET (R83): An internal reset begins: the device behaves as in BYPASS for 1 ms. -/
  | internalReset
  /-- INTERNAL_RESET_PULSE_END (R83): The 1 ms internal reset pulse ends and the device enters LOAD. -/
  | internalResetPulseEnd
  /-- BOOT_SAFE_N_SAMPLE (R85): 5 µs after RESET_N rises, BOOT_SAFE_N is sampled once. -/
  | bootSafeNSample (low : Bool)
  /-- LOAD_START (R86): LOAD begins its steps of oscillator sensing, fuse reads, image choice, Position check, settings and die bring-up. -/
  | loadStart
  /-- OSCILLATOR_VALID (R197): LOAD step 1 accepts an oscillator of 10, 20 or 25 MHz and continues. -/
  | oscillatorValid (crystal : Bool) (khz : Nat)
  /-- LOAD_COMPLETE (R87): LOAD completes and the device enters its boot mode, TRIAL or SAFE. -/
  | loadComplete (sigA : Bool) (sigB : Bool)
  /-- PCIE_RESET (R335): PERST_N low, a hot reset, a function-level reset, link loss or a return from D3hot stops every host ring and clears MSI-X. -/
  | pcieReset (k : PcieReset)
  /-- WATCHDOG (R422): The housekeeping watchdog has not been serviced for 1 s and forces a device reset. -/
  | watchdog
  /-- GLITCH_DETECT (R443): A supply or clock glitch detector fires, which forces a reset and zeroises volatile keys. -/
  | glitchDetect
  /-- CAPTURE (R98): SNAP_CTRL.CAPTURE captures the raw count, Scale A, Scale B and served time at one tick. -/
  | capture
  /-- APPLY (R105): SC_CTRL.APPLY forms a host set from INCR, FREQ_ADJ and any staged slew, or is refused. -/
  | apply (k : Fin 2)
  /-- SLEW_GO (R111): SC_CTRL.SLEW_GO stages a slew of SLEW_AMOUNT at SLEW_RATE for the next APPLY. -/
  | slewGo (k : Fin 2)
  /-- STEP_REL (R115): An armed write of the highest word of STEP_REL commits a relative phase step of the scale. -/
  | stepRel (req : Req) (k : Fin 2) (hi : Word)
  /-- STEP_ABS (R113): An armed write of STEP_ABS_SEC_HI commits an absolute step or the first setting of the scale. -/
  | stepAbs (req : Req) (k : Fin 2) (hi : Word)
  /-- CASTLING_REQUEST (R122): CASTLE_CTRL.GO requests a switch of served time to the target scale at epoch S, or is refused. -/
  | castlingRequest
  /-- CASTLING_CANCEL (R123): CASTLE_CTRL.CANCEL removes a pending switch, or is refused with TOO_LATE or NONE_PENDING. -/
  | castlingCancel
  /-- CASTLING_DECISION (R122): At S − 16,384 ticks the keeper decides the switch and publishes the outcome with S, D and δ. -/
  | castlingDecision
  /-- CASTLING_SWITCH (R121): At S the served time moves to the target scale plus a bridge offset. -/
  | castlingSwitch
  /-- CASTLING_COMPLETE (R121): The bridge reaches zero at S + N and Castling complete is raised. -/
  | castlingComplete
  /-- LEAP_ADD (R118): LEAP_CTRL.ADD adds the staged leap entry, or refuses it. -/
  | leapAdd (nav : Option (Nat × Bool))
  /-- LEAP_WITHDRAW (R118): LEAP_CTRL.WITHDRAW removes a future leap entry, or refuses the withdrawal. -/
  | leapWithdraw (nav : Option Nat)
  /-- LEAP_APPLIED (R118): Scale A reaches a leap entry's L; OFFSET_NOW changes and Leap applied is raised. -/
  | leapApplied
  /-- UTC_BASE_WRITE (R117): A write of UTC_BASE sets the base offset and UTC_STATUS.VALID. -/
  | utcBaseWrite (v : Word)
  /-- CONVERT (R107): CONV_CTRL.GO converts CONV_RAW to a time value, or reports NOT_HELD. -/
  | convert
  /-- SELECTOR_EVALUATION (R134): Every 1 ms each selector updates its slot states, applies the disagreement rule, chooses a slot and runs its servo. -/
  | selectorEvaluation (synce : List (Nat × Int))
  /-- MEASURE_END (R136): After 16 evaluations the MEASURE phase of a switch ends with a build-out value. -/
  | measureEnd (k : Fin 2)
  /-- WTR_EXPIRY (R132): A QUALIFYING slot's wait-to-restore elapses and the slot becomes QUALIFIED. -/
  | wtrExpiry (k : Fin 2) (slot : Fin 12)
  /-- DISAGREEMENT_PERSISTS (R135): A frequency disagreement lasts 10 s, which disqualifies the slot or sets DISAG. -/
  | disagreementPersists (k : Fin 2) (slot : Fin 12)
  /-- LOCK_QUALIFIED (R138): The chosen slot stays within LOCK_WINDOW with no slew left for 10 s and the selector becomes LOCKED. -/
  | lockQualified (k : Fin 2)
  /-- SIGNAL_TIMEOUT (R128): A slot source goes without a valid sample for its limit and its signal becomes invalid. -/
  | signalTimeout (slot : Fin 12) (lost : Bool)
  /-- HOLDOVER_EXPIRED (R143): HOLD_REMAIN reaches 0, the selector enters LOST and Holdover expired is raised. -/
  | holdoverExpired (k : Fin 2)
  /-- TB_PLL_COAST_TIMEOUT (R138): The TB-PLL has not relocked within 100 ms of its unlock, and the selectors enter LOST. -/
  | tbPllCoastTimeout
  /-- DISQ (R133): SLOT_CMD.DISQ disqualifies the slot for both selectors with reason HOST. -/
  | disq (slot : Fin 12)
  /-- RELEASE (R133): SLOT_CMD.RELEASE clears the reason HOST of the slot. -/
  | release (slot : Fin 12)
  /-- STEP_ON_RECOVER_WRITE (R144): A write of STEP_ON_RECOVER takes effect only with the privileges, and otherwise sets PRIV_ERR. -/
  | stepOnRecoverWrite (k : Fin 2) (v : Bool)
  /-- INPUT_EDGE (R149): A selected edge on a timing input opens a filter candidate and is stamped, or is lost to dead time. -/
  | inputEdge (n : Fin 8) (level : Bool) (code : Fin 512) (irig : Option (Option Int))
  /-- CANDIDATE_ACCEPT (R149): A candidate has held its new level for FILT and is accepted with the stamp of its first edge. -/
  | candidateAccept (n : Fin 8) (irig : Option (Option Int))
  /-- CANDIDATE_REJECT (R149): No hold run is possible within BOUNCE, so the candidate is rejected and counted in GLITCH_CNT. -/
  | candidateReject (n : Fin 8)
  /-- START_TIMEOUT (R164): An armed start reaches MEAS_TIMEOUT unpaired, which disarms the unit and counts NOSTOP_CNT. -/
  | startTimeout (n : Fin 8)
  /-- CALIBRATION_COMPLETE (R153): A code-density calibration of a delay line completes, good or failed. -/
  | calibrationComplete (n : Fin 8) (hits : List Nat)
  /-- DELAY_LINE_SWAP (R152): At the first instant with no edge in flight, the two delay lines swap roles. -/
  | delayLineSwap (n : Fin 8)
  /-- GATE_OPEN (R159): An internal gate opens at its tick or an aligned second. -/
  | gateOpen (n : Fin 8)
  /-- GATE_CLOSE (R159): An internal gate closes after MEAS_GATE and the next gate opens when CONT is set. -/
  | gateClose (n : Fin 8)
  /-- GATE_RESULT (R160): Once every candidate before the close is decided, the gate's result record is formed and written. -/
  | gateResult (n : Fin 8)
  /-- ARM (R171): MEAS_CTRL.ARM arms the measurement unit, or is refused. -/
  | arm (n : Fin 8)
  /-- STOP (R159): MEAS_CTRL.STOP lets the open gate finish and opens no further gate. -/
  | stop (n : Fin 8)
  /-- FLUSH (R170): MEAS_CTRL.FLUSH empties the stamp FIFO and the result FIFO. -/
  | flush (n : Fin 8)
  /-- TS_W0_POP (R163): A read of TS_W0 pops the oldest stamp record and latches its other words. -/
  | tsW0Pop (req : Req) (n : Fin 8)
  /-- RES_W0_POP (R169): A read of RES_W0 pops a result record and latches its other words. -/
  | resW0Pop (req : Req) (n : Fin 8)
  /-- IN_CTRL_ENABLE (R170): A write of IN_CTRL.ENABLE requests the shutdown or start-up of a timing input. -/
  | inCtrlEnable (n : Fin 8) (want : Bool)
  /-- INPUT_TRANSITION_COMPLETE (R170): A timing input's shutdown or start-up completes, and any latched request is acted on. -/
  | inputTransitionComplete (n : Fin 8)
  /-- BAND_DOWN (R175): A GNSS band clock shows no edge for 10 µs, so the band goes down and its channels stop. -/
  | bandDown (b : Fin 2)
  /-- BAND_UP (R175): After 1 ms of continuous clock edges the band is up again and its channels reacquire. -/
  | bandUp (b : Fin 2)
  /-- AGC_UPDATE (R176): Every 1 ms the AGC measures rms and steers its code, and the jamming indicator is updated. -/
  | agcUpdate (b : Fin 2) (rms : Nat)
  /-- SPECTRUM (R177): Every 1 ms a band spectrum is taken and the notch filters take, replace or release lines. -/
  | spectrum (b : Fin 2) (lines : List (Nat × Int × Nat))
  /-- JAM_CAL (R178): JAM.CAL takes the present AGC code and rms as the jamming calibration. -/
  | jamCal (b : Fin 2)
  /-- ACQUISITION_SEARCH (R179): A search of the acquisition bank completes and detected cells pass to channels for verification. -/
  | acquisitionSearch (aided : Bool) (found : List (Nat × Nat × Nat × Int))
  /-- CHANNEL_LOSS_OF_LOCK (R181): A tracking channel loses lock after low C/N0 or a PLL lock failure, and reacquires with aiding. -/
  | channelLossOfLock (ch : Fin 96) (pll : Bool)
  /-- MEASUREMENT_EPOCH (R183): A once-per-second GNSS measurement epoch is taken and referred to a raw stamp. -/
  | measurementEpoch (b : Fin 2) (edge s0 s1 : Nat) (ms : List (Nat × Nat × Bool × Nat × Nat)) (nav : Option (Nat × List Byte × Bool)) (utc : List (Nat × Nat × Int × Option (Nat × Bool)))
  /-- SOLUTION_PUBLISH (R183): The cores publish a time and drift solution, or the unit enters short holdover. -/
  | solutionPublish (q : Option GnSolution)
  /-- GNSS_SUSPECT_SET (R190): A check has failed at PERSIST consecutive epochs, so GNSS_SUSPECT is set and the slot signal becomes invalid. -/
  | gnssSuspectSet
  /-- GNSS_SUSPECT_CLEAR (R191): Every enabled check has passed at CLEAR consecutive epochs, so GNSS_SUSPECT clears. -/
  | gnssSuspectClear
  /-- SHORT_HOLDOVER_END (R187): GNSS_HOLD passes without a solution, short holdover ends and the slot signal becomes invalid. -/
  | shortHoldoverEnd
  /-- SURVEY_COMPLETE (R185): The survey of GN_SURVEY seconds ends and the receiver holds at the surveyed position. -/
  | surveyComplete
  /-- SET (R185): GN_POS_CMD.SET holds the receiver at the staged position. -/
  | set
  /-- SURVEY_RESTART (R185): GN_CTRL.SURVEY_RESTART begins a new survey from navigating. -/
  | surveyRestart
  /-- SUSPECT_CLR (R191): GN_CTRL.SUSPECT_CLR clears GNSS_SUSPECT at once and restarts the persistence counts. -/
  | suspectClr
  /-- GN_CTRL_ENABLE (R192): A write of GN_CTRL.ENABLE requests the GNSS shutdown or start-up. -/
  | gnCtrlEnable (want : Bool)
  /-- GNSS_TRANSITION_COMPLETE (R192): The GNSS shutdown, with its hot-start save, or its start-up completes. -/
  | gnssTransitionComplete
  /-- DUTY_WAKE (R193): At the start of a duty period in STANDBY, the GNSS unit starts up. -/
  | dutyWake
  /-- DUTY_SLEEP (R193): After ON_S in the duty period, the GNSS unit shuts down. -/
  | dutySleep
  /-- HOT_START_PERIODIC_SAVE (R195): Every 60 s with a solution, the hot-start record is saved to the alternate copy. -/
  | hotStartPeriodicSave
  /-- SAVE (R195): HOT_CMD.SAVE saves the hot-start record now. -/
  | save
  /-- ERASE (R195): HOT_CMD.ERASE invalidates both hot-start copies. -/
  | erase
  /-- OSCILLATOR_LOSS (R198): The oscillator stops: the AON clock moves to the RC oscillator and the PLL references coast. -/
  | oscillatorLoss
  /-- OSCILLATOR_RETURN (R198): A valid oscillator has been present for 1 ms and the AON clock changes back. -/
  | oscillatorReturn
  /-- PLL_WINDOW (R200): A PLL's lock window closes and its count is compared with the expected count. -/
  | pllWindow (p : Fin 12) (count : Nat) (ctl : Int)
  /-- PLL_LOCK_DECLARED (R200): After 8 consecutive good windows the PLL is declared locked and leaves COAST. -/
  | pllLockDeclared (p : Fin 12)
  /-- PLL_UNLOCK_DECLARED (R202): After 2 consecutive bad windows the PLL is declared unlocked and coasts at its frozen control value. -/
  | pllUnlockDeclared (p : Fin 12)
  /-- REFERENCE_LOSS (R201): The counted clock reaches 2 × N before the window ends, so the PLL sets LOSS_REF and coasts. -/
  | referenceLoss (p : Fin 12)
  /-- FAST_CHECK_WINDOW (R205): A 5.12 µs ENG-PLL fast-check window closes and its deviation is tested against ±500 ppm. -/
  | fastCheckWindow (n : Fin 4) (ppm : Int)
  /-- FALLBACK_RETURN (R207): At the return epoch the engine clock changes back to the ENG-PLL and the normal tables resume. -/
  | fallbackReturn (n : Fin 4)
  /-- OPLL_PSTEP (R212): An armed write of OPLL_PSTEP adds a phase step to the OPLL's target, or is refused with RANGE. -/
  | opllPstep (req : Req) (k : Fin 2) (v : Word)
  /-- PHASE_MOVE_START (R212): 16,384 ticks after acceptance, the mover starts to shift the OPLL phase by at most 1 ps per cycle. -/
  | phaseMoveStart (k : Fin 2)
  /-- PHASE_MOVE_COMPLETE (R212): An OPLL phase move ends; DONE is set and Output phase move complete is raised. -/
  | phaseMoveComplete (k : Fin 2)
  /-- REALIGN_RESUME (R213): Outputs held after a step of the source scale resume aligned at the first whole second at least 1 ms later. -/
  | realignResume (k : Fin 2)
  /-- OUT_CTRL_ENABLE (R217): A write of OUT_CTRL.ENABLE requests the start-up or shutdown of a timing output. -/
  | outCtrlEnable (n : Fin 4) (want : Bool)
  /-- OUTPUT_TRANSITION_COMPLETE (R217): A timing output completes its start-up or shutdown at a whole second of its source. -/
  | outputTransitionComplete (n : Fin 4)
  /-- STAGED_APPLY (R218): Staged output settings take effect together at the first whole second at least 1 ms after the last commit. -/
  | stagedApply (n : Fin 4)
  /-- IRIG_B_FRAME (R220): Each second an IRIG-B output forms and sends a 100-cell frame with its time and quality fields. -/
  | irigBFrame (n : Fin 4)
  /-- LINK_CTRL_ENABLE (R227): A write of LINK_CTRL.ENABLE requests a link start-up or shutdown. -/
  | linkCtrlEnable (n : Fin 4) (l : Fin 4) (want : Bool)
  /-- LINK_TRANSITION_COMPLETE (R227): A link start-up or shutdown completes, after its last committed frame in the case of a shutdown. -/
  | linkTransitionComplete (n : Fin 4) (l : Fin 4)
  /-- AN_RESTART (R225): LINK_CTRL.AN_RESTART restarts negotiation and training, which takes the link down. -/
  | anRestart (n : Fin 4) (l : Fin 4)
  /-- NEGOTIATION_COMPLETE (R225): Clause 73 negotiation resolves, and on any other ability sets AN_FAIL and leaves the link down. -/
  | negotiationComplete (n : Fin 4) (l : Fin 4) (ok : Bool)
  /-- LINK_UP (R228): A link has held its locks for 1 ms: it comes up, LINK_GEN rises and its buckets and partitions reset. -/
  | linkUp (n : Fin 4) (l : Fin 4)
  /-- LINK_DOWN (R228): A link loses a lock, holds high BER for 1 ms or loses its SerDes PLL, and goes down. -/
  | linkDown (n : Fin 4) (l : Fin 4)
  /-- GRID_MEASUREMENT (R240): Every 4,096th transmit block boundary is stamped and GRID_ERR is updated. -/
  | gridMeasurement (n : Fin 4) (l : Fin 4) (err : Int)
  /-- GRID_REANCHOR (R241): The grid map is re-anchored at the first granule at least 10.24 µs after the grid fault. -/
  | gridReanchor (n : Fin 4) (l : Fin 4)
  /-- GRID_OK_RESTORED (R241): After 16 consecutive measurements within 100 ps, GRID_OK is set again. -/
  | gridOkRestored (n : Fin 4) (l : Fin 4)
  /-- RECEIVE_FRAME (R230): A frame arrives on a link, is stamped, decided by the MAC and passed to classification. -/
  | receiveFrame (n : Fin 4) (l : Fin 4) (mii : Nat) (f : List Byte) (codeErr : Bool)
  /-- CLIENT_READ (R260): The client-table entry read returns and the client bucket admits or refuses the request. -/
  | clientRead (n : Fin 4) (l : Fin 4) (ecc : Bool)
  /-- GRANT_CHECK (R309): The session-table read returns and a unicast Delay_Req is answered or left idle. -/
  | grantCheck (n : Fin 4) (l : Fin 4) (ecc : Bool)
  /-- DISPATCH (R264): The oldest entry of the dispatch queue is assigned to a thread of a RUNNING engine. -/
  | dispatch (n : Fin 4)
  /-- THREAD_COMPLETE (R264): An engine thread finishes its microcode and hands its reply to the transmit buffer. -/
  | threadComplete (n : Fin 4) (q : Nat)
  /-- ENGINE_CLOCK_GATE (R264): An engine with no thread in flight for 64 cycles gates its clock. -/
  | engineClockGate (n : Fin 4) (e : Fin 4)
  /-- LATE_CHECK (R273): At λ − D_TX − 15 ns a reply not yet in the transmit buffer is dropped and counted as LATE. -/
  | lateCheck (n : Fin 4) (l : Fin 4)
  /-- FRAME_LAUNCH (R233): A committed reply, host frame or scheduled frame launches at its launch instant, or is discarded while the link is down. -/
  | frameLaunch (n : Fin 4) (l : Fin 4)
  /-- ORDERING_INSTANT (R276): At the ordering instant of a silent refusal, the refusal is counted and logged. -/
  | orderingInstant (n : Fin 4)
  /-- HOST_WINDOW_OPEN (R270): A host window opens and eligible host frames are placed from the transmit rings. -/
  | hostWindowOpen (n : Fin 4) (l : Fin 4)
  /-- HOST_FRAME_FETCH (R343): A whole host frame has been fetched by DMA into the die's host transmit buffer. -/
  | hostFrameFetch (n : Fin 4) (t : Fin 8)
  /-- RESERVED_SLOT_OCCURRENCE (R315): An occurrence of a reserved calendar slot launches a due device-scheduled PTP message or train. -/
  | reservedSlotOccurrence (n : Fin 4) (l : Fin 4) (k : Fin 16)
  /-- GRANT_EXPIRY (R325): At each whole second of the scale, expired unicast grants are cleared. -/
  | grantExpiry (n : Fin 4) (l : Fin 4)
  /-- BMCA (R321): Once per announce interval the firmware runs the BMCA and publishes any port-state change as a register batch. -/
  | bmca (n : Fin 4) (c : Fin 256)
  /-- REFERENCE_MESSAGE (R328): The keeper takes a PTP stream's stamps and fields and forms the stream's offset and delay. -/
  | referenceMessage (m : Fin 8)
  /-- STREAM_GRANT_REQUEST (R327): For a G.8275.2 stream, the firmware requests or renews unicast grants. -/
  | streamGrantRequest (m : Fin 8)
  /-- ENG_CTRL_ENABLE (R410): A write of ENG_CTRL.ENABLE parks or unparks an engine, or is refused or latched. -/
  | engCtrlEnable (n : Fin 4) (e : Fin 4) (want : Bool)
  /-- DRAIN_COMPLETE (R410): The last thread of a parked engine completes and the engine reads STOPPED. -/
  | drainComplete (n : Fin 4) (e : Fin 4)
  /-- ENGINE_START_UP_COMPLETE (R410): An unparked engine clears its threads and rejoins dispatch. -/
  | engineStartUpComplete (n : Fin 4) (e : Fin 4)
  /-- ENGINE_FATAL_ERROR (R413): An engine's checkers detect a fatal error; its threads are lost and it starts recovery. -/
  | engineFatalError (n : Fin 4) (e : Fin 4)
  /-- ENGINE_REJOIN (R413): At t0 + 10 µs the recovered engine rejoins dispatch. -/
  | engineRejoin (n : Fin 4) (e : Fin 4)
  /-- DIE_CTRL_ENABLE (R416): A write of DIE_CTRL.ENABLE parks or unparks an answer die. -/
  | dieCtrlEnable (v : Fin 16)
  /-- DIE_TRANSITION_COMPLETE (R416): An answer die completes its shutdown to power-gating, or its start-up with shadow restore and empty tables. -/
  | dieTransitionComplete (n : Fin 4)
  /-- STAT_SNAP_GO (R248): STAT_SNAP_CTRL.GO requests a statistics snapshot, locally or ring-wide, or is refused. -/
  | statSnapGo
  /-- STAT_SNAP_CANCEL (R248): STAT_SNAP_CTRL.CANCEL removes the pending snapshot, or is refused. -/
  | statSnapCancel
  /-- SNAPSHOT_LATCH (R246): At S every counter of every powered die is latched into its snapshot copy. -/
  | snapshotLatch
  /-- SNAPSHOT_COMPLETE (R246): The snapshot is complete, and SEQ, S, DONE and the event are written. -/
  | snapshotComplete
  /-- COUNTER_WRAP (R432): A counter passes its maximum and wraps, which sets its CNT_OVF bit and may raise an event. -/
  | counterWrap (die : Option (Fin 4)) (k : Fin 9)
  /-- DISPATCH_STATUS_READ (R264): A read of DISPATCH_STATUS returns PEAK and clears it. -/
  | dispatchStatusRead (req : Req) (n : Fin 4)
  /-- CAL_STATE_READ (R266): A read of CAL_STATE returns the committed-frame PEAK and clears it. -/
  | calStateRead (req : Req) (n : Fin 4) (l : Fin 4)
  /-- NTS_KEY_WRITE (R301): A committed write of an NTS keyring entry is accepted or discarded under the role and slot rules. -/
  | ntsKeyWrite (req : Req) (k : Fin 4) (v : Word)
  /-- NTS_ROT_GO (R300): NTS_ROT_CTRL.GO schedules a key rotation at NTS_ROT_EPOCH, or is refused. -/
  | ntsRotGo
  /-- NTS_ROT_CANCEL (R300): NTS_ROT_CTRL.CANCEL removes the pending rotation, or is refused. -/
  | ntsRotCancel
  /-- NTS_KEY_ROTATION (R300): At the rotation epoch the keyring roles rotate, or the rotation is skipped, and the next rotation may be scheduled. -/
  | ntsKeyRotation
  /-- RING_TAIL_WRITE (R336): A host write of a ring's tail posts or releases descriptors, or is discarded if it passes the head. -/
  | ringTailWrite (r : RingId) (v : Word)
  /-- RING_CTRL_ENABLE (R337): A write of RING_CTRL.ENABLE starts up or shuts down a packet, command or event ring. -/
  | ringCtrlEnable (r : RingId) (want : Bool)
  /-- RING_TRANSITION_COMPLETE (R337): A ring's start-up or shutdown completes, with FLUSHED results for uncommitted transmit frames. -/
  | ringTransitionComplete (r : RingId)
  /-- HOST_DMA_ERROR (R337): A completion error or Unsupported Request on a ring's DMA stops that ring at once; input: it met the read of a command's input (R353). -/
  | hostDmaError (r : RingId) (input : Bool)
  /-- RING_IRQ_HOLDOFF (R347): HOLDOFF_US expires after the oldest unreported write-back and an MSI-X message is sent. -/
  | ringIrqHoldoff (r : RingId)
  /-- TSQ_W0_POP (R345): A read of TSQ_W0 pops the oldest transmit-stamp entry and latches its other words. -/
  | tsqW0Pop (req : Req) (n : Fin 4) (l : Fin 4)
  /-- NOP (R350): Command NOP completes with OK and no output. -/
  | nop
  /-- HOST_TIME (R351): Command HOST_TIME delivers one sample to the host-supplied slot. -/
  | hostTime
  /-- LEDGER_COPY (R352): Command LEDGER_COPY moves bytes between the ledger and host memory. -/
  | ledgerCopy (bad : List Nat)
  /-- COMMAND_COMPLETION (R349): A command ring command completes: its output and descriptor are written and the head advances in order. -/
  | commandCompletion
  /-- MODADD (R366): Big-number command MODADD computes (a + b) mod m. -/
  | modadd
  /-- MODSUB (R366): Big-number command MODSUB computes (a − b) mod m. -/
  | modsub
  /-- MODMUL (R366): Big-number command MODMUL computes a × b mod m. -/
  | modmul
  /-- MODEXP (R366): Big-number command MODEXP computes a^e mod m. -/
  | modexp
  /-- MODEXP_CRT (R366): Big-number command MODEXP_CRT computes an RSA private operation by CRT. -/
  | modexpCrt
  /-- MODINV (R366): Big-number command MODINV computes a^−1 mod m. -/
  | modinv
  /-- ECDSA_SIGN (R366): Command ECDSA_SIGN signs a digest on P-256 or P-384. -/
  | ecdsaSign
  /-- ECDSA_VERIFY (R366): Command ECDSA_VERIFY verifies an ECDSA signature. -/
  | ecdsaVerify
  /-- ED25519_SIGN (R366): Command ED25519_SIGN signs a message with Ed25519. -/
  | ed25519Sign
  /-- ED25519_VERIFY (R366): Command ED25519_VERIFY verifies an Ed25519 signature. -/
  | ed25519Verify
  /-- X25519 (R366): Command X25519 computes a Diffie-Hellman u-coordinate. -/
  | x25519
  /-- PMUL (R366): Command PMUL computes k × P on P-256 or P-384. -/
  | pmul
  /-- SHA (R366): Command SHA returns the SHA-256 or SHA-384 digest of its data. -/
  | sha
  /-- BIG_NUMBER_OPERATION_COMPLETE (R367): A big-number operation or refusal completes after its fixed duration, and the event is raised. -/
  | bigNumberOperationComplete
  /-- KEY_GEN (R375): Command KEY_GEN creates a key of the given type and policy in an empty slot. -/
  | keyGen
  /-- KEY_IMPORT_BEGIN (R376): Command KEY_IMPORT_BEGIN draws an ephemeral X25519 pair and opens an import session. -/
  | keyImportBegin
  /-- KEY_IMPORT (R376): Command KEY_IMPORT unwraps sealed key material into a slot, consuming the session. -/
  | keyImport
  /-- KEY_EXPORT (R377): Command KEY_EXPORT wraps an exportable key for a peer's import session. -/
  | keyExport
  /-- KEY_ERASE (R375): Command KEY_ERASE empties a key slot and its stored record. -/
  | keyErase
  /-- KEY_INFO (R375): Command KEY_INFO returns a slot's type, policy and public key, or the identity key. -/
  | keyInfo
  /-- ID_SIGN (R379): Command ID_SIGN signs a digest with the device identity key. -/
  | idSign
  /-- IMPORT_SESSION_EXPIRY (R376): An import session not used within 60 s expires. -/
  | importSessionExpiry
  /-- FUSE_PROG (R381): Command FUSE_PROG programs the customer hash, advances the debug lock or raises MIN_GEN, or is refused. -/
  | fuseProg
  /-- DEBUG_CHALLENGE (R382): Command DEBUG_CHALLENGE returns a 32 B challenge valid for 60 s. -/
  | debugChallenge
  /-- DEBUG_UNLOCK (R383): Command DEBUG_UNLOCK checks a token and, if accepted, erases the keys and resets with debug open. -/
  | debugUnlock
  /-- CHALLENGE_EXPIRY (R382): A debug challenge not used within 60 s expires. -/
  | challengeExpiry
  /-- NTS_MINT (R303): Command NTS_MINT seals new NTS cookies under the CURRENT key. -/
  | ntsMint
  /-- TLS_SIGN (R304): Command TLS_SIGN signs TLS 1.3 CertificateVerify content with a slot key. -/
  | tlsSign
  /-- BN_CTRL_ENABLE (R372): A write of BN_CTRL.ENABLE shuts down the big-number engine, with a wipe, or starts it up. -/
  | bnCtrlEnable (want : Bool)
  /-- ABORT (R373): BN_CTRL.ABORT requests a shutdown and a latched re-enable, wiping the operand memory. -/
  | abort
  /-- WIPE_COMPLETE (R372): The 16 µs operand and scratch memory wipe completes and the engine reads STOPPED. -/
  | wipeComplete
  /-- BN_START_UP_COMPLETE (R372): The big-number engine's start-up completes within 1 µs. -/
  | bnStartUpComplete
  /-- UPD_OPEN (R400): Command UPD_OPEN opens an update session for an image or a Position, or is refused. -/
  | updOpen
  /-- UPD_BLOCK (R402): Command UPD_BLOCK stores one 64 KiB block of the session. -/
  | updBlock (flashOk : Bool)
  /-- UPD_CLOSE (R402): Command UPD_CLOSE checks the digest and seals the target, or reports an error. -/
  | updClose
  /-- UPD_ABORT (R398): Command UPD_ABORT ends the session at once. -/
  | updAbort
  /-- CONFIRM (R407): Command CONFIRM makes a trial permanent, or completes with NOT_ON_TRIAL. -/
  | confirm
  /-- REJECT (R407): Command REJECT ends a trial with an internal reset and fallback. -/
  | reject
  /-- TRIAL_AUTO_CONFIRM (R407): TRIAL_REMAIN reaches 0 and the trial is confirmed automatically. -/
  | trialAutoConfirm
  /-- RING_QUERY (R395): Command RING_QUERY sends a STATUS or SUMMARY query around the Goeri ring. -/
  | ringQuery
  /-- RING_EVENT (R393): Command RING_EVENT sends an EVENT message with a 16 B host payload. -/
  | ringEvent
  /-- SET_READ (R408): Command SET_READ returns the value of a settings tag. -/
  | setRead
  /-- SET_WRITE (R408): Command SET_WRITE writes the value of a settings tag. -/
  | setWrite
  /-- QUERY_TIMEOUT (R395): A ring query has not returned within 50 ms and completes with TIMEOUT. -/
  | queryTimeout
  /-- RING_PORT_UP (R385): A ring port has held block lock for 1 ms without errors and comes up. -/
  | ringPortUp (p : Fin 2)
  /-- RING_PORT_DOWN (R385): A ring port loses block lock and goes down. -/
  | ringPortDown (p : Fin 2)
  /-- COMPARE_SEND (R389): At its fixed raw tick a ring port sends a COMPARE frame. -/
  | compareSend (p : Fin 2)
  /-- COMPARE (R391): A received COMPARE is paired with its own frame and updates θ and d of the chain-peer slot. -/
  | compare (p : Fin 2) (at16 : Nat) (f : List Byte)
  /-- EVENT (R393): A received EVENT message is placed in the ring-event FIFO, raising source 45, and forwarded. -/
  | event (p : Fin 2) (f : List Byte)
  /-- SNAPSHOT (R394): A received SNAPSHOT message schedules the local snapshot and is forwarded. -/
  | snapshot (p : Fin 2) (f : List Byte)
  /-- QUERY (R395): A received QUERY adds this device's status record or returns a summary. -/
  | query (p : Fin 2) (f : List Byte)
  /-- QUERY_REPLY (R395): A QUERY_REPLY travels back to, and is collected at, the origin. -/
  | queryReply (p : Fin 2) (f : List Byte)
  /-- UPD_OPEN_MESSAGE (R400): A ring UPD_OPEN is decided locally and forwarded, or answered upstream with its code. -/
  | updOpenMessage (p : Fin 2) (f : List Byte)
  /-- UPD_DATA (R399): A ring UPD_DATA part is gathered, and a complete block is stored, acknowledged and forwarded. -/
  | updData (p : Fin 2) (f : List Byte) (flashOk : Bool)
  /-- UPD_CLOSE_MESSAGE (R402): A ring UPD_CLOSE checks the local digest and is forwarded once every block is acknowledged. -/
  | updCloseMessage (p : Fin 2) (f : List Byte)
  /-- UPD_ABORT_MESSAGE (R402): A ring UPD_ABORT ends the session with ABORTED and leaves the target EMPTY. -/
  | updAbortMessage (p : Fin 2) (f : List Byte)
  /-- UPD_REPLY (R404): A downstream UPD_REPLY acknowledges a block or refuses forwarding, which may set SPLIT. -/
  | updReply (p : Fin 2) (f : List Byte)
  /-- BLOCK_RETRY (R404): A forwarded block unacknowledged after 2 s is sent again, and after three tries forwarding ends with TIMEOUT. -/
  | blockRetry
  /-- SESSION_TIMEOUT (R402): A ring session receives no message for 10 s and ends with ABORTED. -/
  | sessionTimeout
  /-- GR_EVQ_W0_POP (R393): A read of GR_EVQ_W0 pops the oldest ring-event record and latches its other words. -/
  | grEvqW0Pop (req : Req)
  /-- EV_ENABLE_WRITE (R354): A write of EV_ENABLE changes unlocked enable bits, and a 0-to-1 change with status set makes a delivery. -/
  | evEnableWrite (w : Fin 4) (v : Word)
  /-- EV_STATUS_CLEAR (R354): A W1C write of EV_STATUS clears source status bits; a level source whose condition holds is raised again. -/
  | evStatusClear (w : Fin 4) (v : Word)
  /-- EV_ROUTE_WRITE (R355): A write of EV_ROUTE changes a source's route, or is discarded for a locked source or a forbidden route. -/
  | evRouteWrite (src : Fin 128) (v : Word)
  /-- MSIX_UNMASK (R357): Clearing an MSI-X mask sends the messages held pending. -/
  | msixUnmask (v : Fin 64) (w : Fin 4) (x : Word)
  /-- SUMMARY_GO (R424): SUMMARY_GO.GO requests a host summary at S, or is refused. -/
  | summaryGo
  /-- SUMMARY_LATCH (R424): At S every field of a host, SMBus or ring summary record is latched. -/
  | summaryLatch (src : Fin 3)
  /-- SUMMARY_WRITTEN (R424): The host summary is written by DMA, DONE is set, and the further event deliveries are made. -/
  | summaryWritten (fail : Bool)
  /-- SMBUS_ID (R360): SMBus code ID returns 0x4870. -/
  | smbusId
  /-- SMBUS_MODE (R360): SMBus code MODE returns the mode and progress fields. -/
  | smbusMode
  /-- SMBUS_SEL (R360): SMBus code SEL returns the selector states and the served scale. -/
  | smbusSel
  /-- TEMP (R360): An SMBus TEMP code returns the junction temperature of one die. -/
  | temp (k : Fin 7) (t : Int)
  /-- SUM_TAKE (R361): SMBus SUM_TAKE takes a 4 KiB summary into the SMBus buffer. -/
  | sumTake (pecBad : Bool)
  /-- SUM_STATE (R360): SMBus SUM_STATE returns the state of the SMBus summary. -/
  | sumState
  /-- SUM_PTR (R360): SMBus SUM_PTR sets the byte offset for summary reads. -/
  | sumPtr (v : Nat) (pecBad : Bool)
  /-- SUM_READ (R360): SMBus SUM_READ returns 32 B of the summary and advances SUM_PTR. -/
  | sumRead
  /-- RESET_REQ (R360): SMBus RESET_REQ with 0xA55A requests an internal reset. -/
  | resetReq (v : Nat) (pecBad : Bool)
  /-- SMBUS_TIMEOUT (R451): SMB_SCL is held low for 25 to 35 ms and the device releases both lines. -/
  | smbusTimeout
  /-- LOCKSTEP_MISMATCH (R421): The core comparator detects a lockstep mismatch and the core pair restarts from ROM. -/
  | lockstepMismatch
  /-- HOUSEKEEPING_CORE_RESTART (R421): The restarted cores resume, rerun the interrupted command and raise Housekeeping-core restart. -/
  | housekeepingCoreRestart
  /-- UNCORRECTABLE_ERROR (R422): An uncorrectable error in die or keeper state memory forces a die or device reset. -/
  | uncorrectableError (die : Option (Fin 4))
  /-- TEMPERATURE_ALARM (R454): A die sensor reads above 105 °C and raises the level source Temperature alarm. -/
  | temperatureAlarm (k : Fin 7) (t : Int)
  /-- THERMAL_SHUTDOWN (R422): A junction reaches 115 °C, forcing a device reset and holding BYPASS. -/
  | thermalShutdown (k : Fin 7) (t : Int)
  /-- THERMAL_RECOVERY (R422): Every junction has been below 100 °C for 1 s and the device enters LOAD. -/
  | thermalRecovery (ts : List Int)
  /-- FAULT_RECORD_WRITE (R423): Once a fault has ended, its 32 B record is written to the fault log and Fault logged is raised. -/
  | faultRecordWrite
  /-- PWR_GOOD_RISE (R82): PWR_GOOD rises while RESET_N is already high, so the device leaves BYPASS for LOAD. -/
  | pwrGoodRise
  /-- PERST_N_RISE (R83): PERST_N is released, ending the state in which host-ring frames are dropped to NOBUF and summaries are refused with NO_DMA. -/
  | perstNRise
  /-- PCIE_LINK_UP (R88): The PCIe link trains, PCIE_STATUS SPEED and WIDTH are set and the endpoint accepts configuration requests. -/
  | pcieLinkUp (speed : Fin 5) (width : Fin 9)
  /-- CONFIGURATION_REQUEST (R335): A host configuration-space write moves the function into D3hot, or changes bus mastering or MSI-X Enable, which stops or allows DMA and MSI-X delivery. -/
  | configurationRequest (d3 : Bool) (busMaster : Bool) (msixEn : Bool) (funcMask : Bool)
  /-- SYNC_WORD_MISS (R23): An expected sync word does not arrive at its 8,192-tick instant and REPLICA_STATUS.MISS_CNT rises. -/
  | syncWordMiss (n : Fin 4)
  /-- LEDGER_DIE_LOSS (R422): A ledger die is lost, which forces a device reset with fault code 0x33. -/
  | ledgerDieLoss (m : Fin 2)
  /-- CALENDAR_CYCLE_START (R71): A calendar cycle opens on a link, and a CALENDAR change whose epoch has passed takes effect and restarts the cycle count. -/
  | calendarCycleStart (n : Fin 4) (l : Fin 4)
  /-- BLOCK_LOCK (R228): The receive PCS gains or loses block or code-group, alignment-marker or FEC lock, setting the lock bits and measuring RX_SKEW when alignment locks. -/
  | blockLock (n : Fin 4) (l : Fin 4) (pcs : Bool) (am : Bool) (fec : Bool) (ber : Bool) (skew : Nat) (errs : Nat × Nat × Nat × Nat) (prbs : Nat × Nat × Nat × Nat)
  /-- DETECTION_VERIFICATION (R179): A channel that took a detected cell completes its 40 ms verification and enters tracking, or drops the cell. -/
  | detectionVerification (ch : Fin 96) (ok : Bool)
  /-- RATIO_RAMP_COMPLETE (R210): A fractional stage's ratio reaches its target offset at 0.1 ppm per ms and FRAC_STATUS.RAMPING clears. -/
  | ratioRampComplete (n : Fin 4)
  /-- TABLE_SCRUB (R229): After a link-up, a background pass writes VALID = 0 into every older-generation client and session entry and then ends. -/
  | tableScrub (n : Fin 4) (l : Fin 4)
deriving DecidableEq, Repr

end Sys2Proof
end

