-- ==== Sys2Proof/Config.lean ====
section
/-! DEFINITION. What an implementation fixes and the manual does not state: constants and free values without a body. Each is named in notes/assumptions. -/

namespace Sys2Proof

/-- A limit of the LIMITS section (R61): the field of width bits from bit lo of the register or group at offset addr, and its least and greatest value; the field is signed where the least is negative. -/
structure Limit where
  addr : Nat
  lo : Nat
  width : Nat
  least : Int
  most : Int
deriving DecidableEq, Repr

/-- n-th output of the phase filter for a residual offset, both in 2^-16 ns (R140, R141: the filter is not given). -/
opaque Config.filteredPhase : Nat → Int → Int

/-- Proportional part and step of the integral part of the selector's loop in 2^-16 ppt, for a bandwidth in mHz and a filtered phase error in 2^-16 ns (R140 gives bandwidth and damping, not the arithmetic). -/
opaque Config.servoP : Nat → Int → Int
opaque Config.servoI : Nat → Int → Int

/-- Step of the loop's frequency in 2^-16 ppt with a frequency-only slot, for a bandwidth in mHz and y_s against the scale in ppt (R140). -/
opaque Config.servoF : Nat → Int → Int

/-- Mean of the servo's frequency over a learning window no part of which was LOCKED, in 2^-16 ppt (R139 states none). -/
opaque Config.learnedFreq : Nat → Int

/-- The device's random source (R38, R262, R303, R366, R375, R376, R382): n-th draw of a number of bytes, most significant first. -/
opaque Config.random : Nat → Nat

/-- Sub-tick phase of a register access (R97). -/
opaque Config.accessFrac : Nat → Nat

/-- Size of the n-th step of an AGC code toward its target (R176: the loop's arithmetic is not given). -/
opaque Config.agcStep : Nat → Nat

/-- Power ratio of R178 against a calibration whose rms is 0, in 2^-256, by the code difference, slope and rms (R178 states none). -/
opaque Config.ratioOverZero : Int → Nat → Nat → Nat

/-- Ephemeris entries of a hot-start record that are under 4 h old, and whether its almanac is under 30 days old, at an age of the record in seconds (R195, R196: the fields of the entries are not given). -/
opaque Config.freshEphemeris : List Byte → Nat → Nat
opaque Config.freshAlmanac : List Byte → Nat → Bool

/-- Distance of a grid origin from the start of acquisition, in ticks (R239: which whole tick it is, is not specified). -/
opaque Config.gridPhase : Nat → Nat

/-- Secret from which the device identity key is derived (R379: derived from the PUF). -/
opaque Config.identityKey : Nat

/-- Storage key of the persistent key records (R378: derived from the PUF). -/
opaque Config.storageKey : List Byte

/-- Registers that a section body of a type gives (R60: the layout of the section bodies is not given). -/
opaque Config.sectionRegs : Nat → List Byte → List (Nat × Word)

/-- Limits that a LIMITS body gives (R61). -/
opaque Config.sectionLimits : List Byte → List Limit

/-- A section body of a type lies within the structural limits of its chapter (R59). -/
opaque Config.sectionOk : Nat → List Byte → Bool

/-- The mask of present answer dies that a DIES body gives (R56). -/
opaque Config.diesPresent : List Byte → Nat

/-- HOST_KIB of each answer die that the Position gives (R251). -/
opaque Config.hostKib : List Byte → List Nat

/-- Delay of the far-end PCS loopback from a frame's arrival to its launch, in 2^-16 tick (R249 states none). -/
opaque Config.loopDelay : Nat → Nat

/-- Ticks for which a frame for the host holds its arrival cells after its arrival (R251, R340: its write-back takes place within 5 µs of its last byte). -/
opaque Config.hostHold : Nat → Nat

/-- Microcode library identifiers of an image, by its digest (R59). -/
opaque Config.imageLibs : List Byte → List Nat

/-- FORMAT of the settings that an image writes, by its digest (R409). -/
opaque Config.imageFormat : List Byte → Nat

/-- An image, by its digest, can read settings of a FORMAT (R409). -/
opaque Config.readsFormat : List Byte → Nat → Bool

/-- AGC code and rms that a settings record of a jamming calibration holds (R408: its layout is not given). -/
opaque Config.jamRecord : List Byte → Nat × Nat

/-- ECEF position in mm that a settings record of the held position holds (R408: its layout is not given). -/
opaque Config.positionRecord : List Byte → List Int

/-- Place in its triangle, at raw count 0, of the spread-spectrum modulation of a PLL (R209: not specified). -/
opaque Config.spreadPhase : Nat → Nat

/-- Phase of an oscillator edge against the 800 MHz grid, in 2^-16 tick (R93: measured). -/
opaque Config.oscPhase : Nat → Nat

/-- Levels of the raw signals that the model does not hold, bit i for event 0xF0 + i (R433). -/
opaque Config.rawLevels : Nat → Nat

/-- Ledger die that an uncorrectable error lies on (the placement of addresses over the two dies is not given). -/
opaque Config.ledgerDie : Nat → Nat

/-- Size of the serial memory in units of 8 MiB (R396: at least 8 units). -/
opaque Config.spiUnits : Nat

/-- Housekeeping-core instructions retired, and stall cycles, in one tick (keeper events 0x04 and 0x05). -/
opaque Config.coreWork : Nat → Nat × Nat

/-- Correctable errors met on ledger dies 0 and 1 in one tick (LMC_CE, answer-die event 0x23). -/
opaque Config.ledgerCe : Nat → Nat × Nat

/-- AES blocks that an engine with threads in flight completes in one tick (answer-die events 0x18 to 0x1B). -/
opaque Config.aesBlocks : Nat → Nat

end Sys2Proof
end

