-- ==== Sys2Proof/Machine/Bytes.lean ====
section
/-! DEFINITION. Byte order (R10, R11), bit fields, and the canonical sparse map that holds registers and memories. -/

namespace Sys2Proof.Machine

/-- Bits [hi:lo] of a word, as a number (R11). -/
def bits (hi lo : Nat) (w : Word) : Nat := (w.toNat >>> lo) % 2 ^ (hi + 1 - lo)

/-- A word with bits [hi:lo] replaced by v. -/
def putBits (hi lo : Nat) (w : Word) (v : Nat) : Word :=
  let m := 2 ^ (hi + 1 - lo)
  BitVec.ofNat 32 (w.toNat - bits hi lo w * 2 ^ lo + (v % m) * 2 ^ lo)

/-- Bit i of a number. -/
def bit (n i : Nat) : Bool := n / 2 ^ i % 2 == 1

/-- Sets bit i of a number to b. -/
def putBit (n i : Nat) (b : Bool) : Nat :=
  if bit n i then (if b then n else n - 2 ^ i) else (if b then n + 2 ^ i else n)

def boolNat (b : Bool) : Nat := if b then 1 else 0

/-- Two's complement of width w (R2): the value of an unsigned pattern. -/
def toSigned (w n : Nat) : Int :=
  let m := n % 2 ^ w
  if m < 2 ^ (w - 1) then (m : Int) else (m : Int) - (2 ^ w : Nat)

/-- The pattern of width w of a signed value (R2). -/
def ofSigned (w : Nat) (i : Int) : Nat := (i % ((2 ^ w : Nat) : Int)).toNat

/-- Clamps an integer to the signed range of width w. -/
def satSigned (w : Nat) (i : Int) : Int :=
  let h : Int := ((2 ^ (w - 1) : Nat) : Int)
  if i < -h then -h else if i ≥ h then h - 1 else i

def byte (n : Nat) : Byte := BitVec.ofNat 8 n

/-- n as k little-endian bytes (R10). -/
def leBytes : Nat → Nat → List Byte
  | 0, _ => []
  | k + 1, n => byte n :: leBytes k (n / 256)

/-- n as k big-endian bytes (R10: fields inside frames). -/
def beBytes (k n : Nat) : List Byte := (leBytes k n).reverse

/-- Value of little-endian bytes. -/
def leNat : List Byte → Nat
  | [] => 0
  | b :: bs => b.toNat + 256 * leNat bs

/-- Value of big-endian bytes. -/
def beNat (bs : List Byte) : Nat := bs.foldl (fun a b => a * 256 + b.toNat) 0

/-- n bytes from offset o, zero-filled beyond the end. -/
def slice (bs : List Byte) (o n : Nat) : List Byte :=
  let t := (bs.drop o).take n
  t ++ List.replicate (n - t.length) 0

/-- Little-endian field of a record. -/
def leAt (bs : List Byte) (o n : Nat) : Nat := leNat (slice bs o n)

/-- Big-endian field of a frame. -/
def beAt (bs : List Byte) (o n : Nat) : Nat := beNat (slice bs o n)

/-- Overwrites bytes of a record from offset o. -/
def patch (bs : List Byte) (o : Nat) (v : List Byte) : List Byte :=
  bs.take o ++ v ++ bs.drop (o + v.length)

def zeros (n : Nat) : List Byte := List.replicate n 0

/-- Places x before the first element that need not stand before it. -/
def insertBy {α : Type} (before : α → α → Bool) (x : α) : List α → List α
  | [] => [x]
  | y :: l => if before x y then x :: y :: l else y :: insertBy before x l

/-- Sorts a list; elements in no order of each other keep theirs. -/
def sortBy {α : Type} (before : α → α → Bool) (l : List α) : List α := l.foldr (insertBy before) []

/-- A sparse map: keys strictly rising, no entry equal to what an unlisted key reads as. -/
abbrev SMap (α : Type) := List (Nat × α)

/-- What a key reads as, with default f for an unlisted key. -/
def SMap.find {α : Type} (f : Nat → α) : SMap α → Nat → α
  | [], a => f a
  | (k, v) :: m, a => if a = k then v else SMap.find f m a

/-- Lists a key in its place. -/
def SMap.insert {α : Type} : SMap α → Nat → α → SMap α
  | [], a, x => [(a, x)]
  | (k, v) :: m, a, x =>
    if a = k then (a, x) :: m
    else if a < k then (a, x) :: (k, v) :: m
    else (k, v) :: SMap.insert m a x

/-- Writes one key and keeps the canonical form: writing what an unlisted key reads as removes the entry. -/
def SMap.put {α : Type} [DecidableEq α] (f : Nat → α) (m : SMap α) (a : Nat) (x : α) : SMap α :=
  if x = f a then m.filter (fun p => p.1 ≠ a) else SMap.insert m a x

/-- Canonical form from a lower key bound. -/
def SMap.okFrom {α : Type} [DecidableEq α] (f : Nat → α) : Nat → SMap α → Bool
  | _, [] => true
  | lo, (k, v) :: m => decide (lo ≤ k) && decide (v ≠ f k) && SMap.okFrom f (k + 1) m

/-- Canonical form: keys strictly rising, no entry equal to the default. -/
def SMap.ok {α : Type} [DecidableEq α] (f : Nat → α) (m : SMap α) : Bool := SMap.okFrom f 0 m

/-- A byte memory (Host.Cell pairs): an unlisted byte reads 0. -/
abbrev Mem := SMap Byte

def Mem.dflt : Nat → Byte := fun _ => 0

def Mem.get (m : Mem) (a : Nat) : Byte := SMap.find Mem.dflt m a
def Mem.put (m : Mem) (a : Nat) (b : Byte) : Mem := SMap.put Mem.dflt m a b

/-- The canonical form of a memory. -/
def Memory.wf (m : Mem) : Bool := SMap.ok Mem.dflt m

/-- n bytes read from address a. -/
def Mem.read (m : Mem) (a : Nat) : Nat → List Byte
  | 0 => []
  | n + 1 => m.get a :: Mem.read m (a + 1) n

/-- Bytes written from address a upward. -/
def Mem.write (m : Mem) (a : Nat) : List Byte → Mem
  | [] => m
  | b :: bs => Mem.write (m.put a b) (a + 1) bs

/-- One posted write of the device to a memory: bytes at an address, a region emptied, or the loss of the whole content. -/
inductive MemOp where
  | wr (addr : Nat) (bs : List Byte)
  | clear (addr n : Nat)
  | wipe
deriving DecidableEq, Repr

def Mem.op (m : Mem) : MemOp → Mem
  | .wr a bs => m.write a bs
  | .clear a n => m.filter fun p => decide (p.1 < a ∨ a + n ≤ p.1)
  | .wipe => []

/-- Posted writes applied in order. -/
def Mem.ops (m : Mem) (l : List MemOp) : Mem := l.foldl Mem.op m

/-- Replaces the element at index i; a list shorter than i is unchanged. -/
def setAt {α : Type} : List α → Nat → α → List α
  | [], _, _ => []
  | _ :: l, 0, x => x :: l
  | y :: l, i + 1, x => y :: setAt l i x

/-- Changes the element at index i by f. -/
def modAt {α : Type} (l : List α) (i : Nat) (f : α → α) : List α :=
  match l[i]? with
  | some x => setAt l i (f x)
  | none => l

end Sys2Proof.Machine
end

