-- ==== Sys2Proof/Machine/Sha.lean ====
section
/-! DEFINITION. SHA-256, SHA-384 and SHA-512 (FIPS 180-4), HMAC (FIPS 198-1) and HKDF-SHA-256 (RFC 5869), which the manual names (R365, R376, R379). -/

namespace Sys2Proof.Machine

/-- Rotation right of a w-bit number. -/
def rotr (w n x : Nat) : Nat := (x >>> n) ||| ((x % 2 ^ n) <<< (w - n))

/-- Round constants of SHA-256 and SHA-512, constant i in bits [w i + w − 1 : w i]. -/
def sha256K : Nat :=
  0xC67178F2BEF9A3F7A4506CEB90BEFFFA8CC7020884C8781478A5636F748F82EE682E6FF35B9CCA4F4ED8AA4A391C0CB334B0BCB52748774C1E376C0819A4C116106AA070F40E3585D6990624D192E819C76C51A3C24B8B70A81A664BA2BFE8A192722C8581C2C92E766A0ABB650A735453380D134D2C6DFC2E1B213827B70A851429296706CA6351D5A79147C6E00BF3BF597FC7B00327C8A831C66D983E515276F988DA5CB0A9DC4A7484AA2DE92C6F240CA1CC0FC19DC6EFBE4786E49B69C1C19BF1749BDC06A780DEB1FE72BE5D74550C7DC3243185BE12835B01D807AA98AB1C5ED5923F82A459F111F13956C25BE9B5DBA5B5C0FBCF71374491428A2F98
def sha512K : Nat :=
  0x6C44198C4A4758175FCB6FAB3AD6FAEC597F299CFC657E2A4CC5D4BECB3E42B6431D67C49C100D4C3C9EBE0A15C9BEBC32CAAB7B40C7249328DB77F523047D841B710B35131C471B113F9804BEF90DAE0A637DC5A2C898A606F067AA72176FBAF57D4F7FEE6ED178EADA7DD6CDE0EB1ED186B8C721C0C207CA273ECEEA26619CC67178F2E372532BBEF9A3F7B2C67915A4506CEBDE82BDE990BEFFFA23631E288CC702081A6439EC84C87814A1F0AB7278A5636F43172F60748F82EE5DEFB2FC682E6FF3D6B2B8A35B9CCA4F7763E3734ED8AA4AE3418ACB391C0CB3C5C95A6334B0BCB5E19B48A82748774CDF8EEB991E376C085141AB5319A4C116B8D2D0C8106AA07032BBD1B8F40E35855771202AD69906245565A910D192E819D6EF5218C76C51A30654BE30C24B8B70D0F89791A81A664BBC423001A2BFE8A14CF1036492722C851482353B81C2C92E47EDAEE6766A0ABB3C77B2A8650A73548BAF63DE53380D139D95B3DF4D2C6DFC5AC42AED2E1B21385C26C92627B70A8546D22FFC142929670A0E6E7006CA6351E003826FD5A79147930AA725C6E00BF33DA88FC2BF597FC7BEEF0EE4B00327C898FB213FA831C66D2DB43210983E5152EE66DFAB76F988DA831153B55CB0A9DCBD41FBD44A7484AA6EA6E4832DE92C6F592B0275240CA1CC77AC9C650FC19DC68B8CD5B5EFBE4786384F25E3E49B69C19EF14AD2C19BF174CF6926949BDC06A725C7123580DEB1FE3B1696B172BE5D74F27B896F550C7DC3D5FFB4E2243185BE4EE4B28C12835B0145706FBED807AA98A3030242AB1C5ED5DA6D8118923F82A4AF194F9B59F111F1B605D0193956C25BF348B538E9B5DBA58189DBBCB5C0FBCFEC4D3B2F7137449123EF65CD428A2F98D728AE22

/-- What differs between SHA-256 and SHA-512: word width, rounds, constants, the rotations of the four sigma functions. -/
structure ShaP where
  w : Nat
  rounds : Nat
  k : Nat
  s0 : Nat × Nat × Nat
  s1 : Nat × Nat × Nat
  l0 : Nat × Nat × Nat
  l1 : Nat × Nat × Nat

def sha256P : ShaP :=
  { w := 32, rounds := 64, k := sha256K, s0 := (2, 13, 22), s1 := (6, 11, 25), l0 := (7, 18, 3), l1 := (17, 19, 10) }
def sha512P : ShaP :=
  { w := 64, rounds := 80, k := sha512K, s0 := (28, 34, 39), s1 := (14, 18, 41), l0 := (1, 8, 7), l1 := (19, 61, 6) }

def bigSigma (w : Nat) (r : Nat × Nat × Nat) (x : Nat) : Nat := rotr w r.1 x ^^^ rotr w r.2.1 x ^^^ rotr w r.2.2 x
def smallSigma (w : Nat) (r : Nat × Nat × Nat) (x : Nat) : Nat := rotr w r.1 x ^^^ rotr w r.2.1 x ^^^ (x >>> r.2.2)

/-- Message schedule, newest word first. -/
def shaExtend (p : ShaP) : Nat → List Nat → List Nat
  | 0, l => l
  | n + 1, l =>
    let g (i : Nat) : Nat := (l[i]?).getD 0
    let x := (smallSigma p.w p.l1 (g 1) + g 6 + smallSigma p.w p.l0 (g 14) + g 15) % 2 ^ p.w
    shaExtend p n (x :: l)

/-- One round on (a, …, h). -/
def shaRound (p : ShaP) (s : List Nat) (kw : Nat) : List Nat :=
  match s with
  | [a, b, c, d, e, f, g, h] =>
    let ch := (e &&& f) ^^^ ((2 ^ p.w - 1 - e) &&& g)
    let maj := (a &&& b) ^^^ (a &&& c) ^^^ (b &&& c)
    let t1 := h + bigSigma p.w p.s1 e + ch + kw
    let t2 := bigSigma p.w p.s0 a + maj
    [(t1 + t2) % 2 ^ p.w, a, b, c, (d + t1) % 2 ^ p.w, e, f, g]
  | s => s

/-- Big-endian words of a block. -/
def shaWords (k : Nat) : Nat → List Byte → List Nat
  | 0, _ => []
  | n + 1, bs => beNat (bs.take k) :: shaWords k n (bs.drop k)

def shaBlock (p : ShaP) (h : List Nat) (blk : List Byte) : List Nat :=
  let ws := (shaExtend p (p.rounds - 16) (shaWords (p.w / 8) 16 blk).reverse).reverse
  let s := (ws.zipIdx).foldl (fun s (x, i) => shaRound p s (x + (p.k >>> (p.w * i)) % 2 ^ p.w)) h
  List.zipWith (fun a b => (a + b) % 2 ^ p.w) h s

def chunks (k : Nat) : Nat → List Byte → List (List Byte)
  | 0, _ => []
  | n + 1, bs => bs.take k :: chunks k n (bs.drop k)

/-- Padding and all blocks. -/
def sha (p : ShaP) (h0 : List Nat) (msg : List Byte) : List Byte :=
  let blk := 2 * p.w
  let len := msg.length
  let padLen := (blk - (len + 1 + p.w / 4) % blk) % blk
  let m := msg ++ [0x80] ++ zeros padLen ++ beBytes (p.w / 4) (8 * len)
  ((chunks blk (m.length / blk) m).foldl (shaBlock p) h0).flatMap (beBytes (p.w / 8))

/-- Words packed least significant first. -/
def unpack (w : Nat) : Nat → Nat → List Nat
  | 0, _ => []
  | n + 1, x => x % 2 ^ w :: unpack w n (x >>> w)

def sha256 (m : List Byte) : List Byte :=
  sha sha256P (unpack 32 8 0x5BE0CD191F83D9AB9B05688C510E527FA54FF53A3C6EF372BB67AE856A09E667) m
def sha512 (m : List Byte) : List Byte :=
  sha sha512P (unpack 64 8 0x5BE0CD19137E21791F83D9ABFB41BD6B9B05688C2B3E6C1F510E527FADE682D1A54FF53A5F1D36F13C6EF372FE94F82BBB67AE8584CAA73B6A09E667F3BCC908) m
def sha384 (m : List Byte) : List Byte :=
  (sha sha512P (unpack 64 8 0x47B5481DBEFA4FA4DB0C2E0D64F98FA78EB44A876858151167332667FFC00B31152FECD8F70E59399159015A3070DD17629A292A367CD507CBBB9D5DC1059ED8) m).take 48

/-- HMAC over a hash with a block length. -/
def hmac (h : List Byte → List Byte) (blk : Nat) (key msg : List Byte) : List Byte :=
  let k := if key.length > blk then h key else key
  let k := k ++ zeros (blk - k.length)
  h (k.map (· ^^^ 0x5C) ++ h (k.map (· ^^^ 0x36) ++ msg))

/-- HKDF-SHA-256 with one 32-byte output block. -/
def hkdf256 (salt ikm info : List Byte) : List Byte :=
  hmac sha256 64 (hmac sha256 64 salt ikm) (info ++ [1])

end Sys2Proof.Machine
end

