-- ==== Sys2Proof/Machine/BigNum.lean ====
section
/-! DEFINITION. Modular arithmetic, the curves P-256 and P-384, ECDSA with hedged nonces, Ed25519 and X25519 (R366, R368), as in FIPS 186-5, RFC 6979, RFC 8032 and RFC 7748, which the manual names. -/

namespace Sys2Proof.Machine

/-! ## Modular arithmetic -/

/-- a^e mod m by squaring; the fuel is at least the bit length of e. -/
def powMod (m : Nat) : Nat → Nat → Nat → Nat
  | 0, _, _ => 1 % m
  | fuel + 1, a, e =>
    if e = 0 then 1 % m else
    let h := powMod m fuel (a * a % m) (e / 2)
    if e % 2 = 1 then a * h % m else h

/-- Bezout coefficient of the first argument: gcd and x with a x ≡ gcd (mod b). -/
def egcd : Nat → Nat → Nat → Int → Int → Nat × Int
  | 0, r, _, x, _ => (r, x)
  | fuel + 1, r, s, x, y => if s = 0 then (r, x) else egcd fuel s (r % s) y (x - (r / s : Nat) * y)

/-- Inverse of a modulo m, if there is one. -/
def invMod (a m : Nat) : Option Nat :=
  let (g, x) := egcd (2 * Nat.log2 (a + m) + 4) (a % m) m 1 0
  if g = 1 then some (x % (m : Int)).toNat else none

/-- Inverse of a modulo a prime, 0 for 0. -/
def inv0 (a p : Nat) : Nat := (invMod a p).getD 0

def subMod (a b m : Nat) : Nat := (a % m + m - b % m) % m

def bitLen (n : Nat) : Nat := if n = 0 then 0 else Nat.log2 n + 1

def popCount : Nat → Nat → Nat
  | 0, _ => 0
  | fuel + 1, n => n % 2 + popCount fuel (n / 2)

/-! ## Short Weierstrass curves with a = −3 -/

structure Curve where
  p : Nat
  b : Nat
  n : Nat
  gx : Nat
  gy : Nat
  /-- Bytes of a coordinate. -/
  size : Nat

def p256 : Curve :=
  { p := 0xFFFFFFFF00000001000000000000000000000000FFFFFFFFFFFFFFFFFFFFFFFF
    b := 0x5AC635D8AA3A93E7B3EBBD55769886BC651D06B0CC53B0F63BCE3C3E27D2604B
    n := 0xFFFFFFFF00000000FFFFFFFFFFFFFFFFBCE6FAADA7179E84F3B9CAC2FC632551
    gx := 0x6B17D1F2E12C4247F8BCE6E563A440F277037D812DEB33A0F4A13945D898C296
    gy := 0x4FE342E2FE1A7F9B8EE7EB4A7C0F9E162BCE33576B315ECECBB6406837BF51F5
    size := 32 }

def p384 : Curve :=
  { p := 0xFFFFFFFFFFFFFFFFFFFFFFFFFFFFFFFFFFFFFFFFFFFFFFFFFFFFFFFFFFFFFFFEFFFFFFFF0000000000000000FFFFFFFF
    b := 0xB3312FA7E23EE7E4988E056BE3F82D19181D9C6EFE8141120314088F5013875AC656398D8A2ED19D2A85C8EDD3EC2AEF
    n := 0xFFFFFFFFFFFFFFFFFFFFFFFFFFFFFFFFFFFFFFFFFFFFFFFFC7634D81F4372DDF581A0DB248B0A77AECEC196ACCC52973
    gx := 0xAA87CA22BE8B05378EB1C71EF320AD746E1D3B628BA79B9859F741E082542A385502F25DBF55296C3A545E3872760AB7
    gy := 0x3617DE4A96262C6F5D9E98BF9292DC29F8F41DBD289A147CE9DA3113B5F0B8C00A60B1CE1D7E819D7A431D7C90EA0E5F
    size := 48 }

/-- A point; none is the point at infinity. -/
abbrev Pt := Option (Nat × Nat)

def Curve.on (c : Curve) (x y : Nat) : Bool :=
  decide (y * y % c.p = (x * x * x + (c.p - 3) * x + c.b) % c.p)

def Curve.add (c : Curve) : Pt → Pt → Pt
  | none, q => q
  | p, none => p
  | some (x1, y1), some (x2, y2) =>
    let l : Option Nat :=
      if x1 = x2 then
        if (y1 + y2) % c.p = 0 then none
        else some ((3 * x1 * x1 + (c.p - 3)) * inv0 (2 * y1) c.p % c.p)
      else some (subMod y2 y1 c.p * inv0 (subMod x2 x1 c.p) c.p % c.p)
    l.map fun l =>
      let x3 := subMod (l * l) (x1 + x2) c.p
      (x3, subMod (l * subMod x1 x3 c.p) y1 c.p)

/-- k P by doubling; the fuel is at least the bit length of k. -/
def Curve.mul (c : Curve) : Nat → Nat → Pt → Pt
  | 0, _, _ => none
  | fuel + 1, k, p =>
    if k = 0 then none else
    let h := Curve.mul c fuel (k / 2) (c.add p p)
    if k % 2 = 1 then c.add p h else h

def Curve.times (c : Curve) (k : Nat) (p : Pt) : Pt := c.mul (bitLen k + 1) k p

def Curve.base (c : Curve) : Pt := some (c.gx, c.gy)

/-- Public point of a scalar, (0, 0) for none. -/
def Curve.pub (c : Curve) (d : Nat) : Nat × Nat := (c.times d c.base).getD (0, 0)

/-- Public key as bytes: x then y, most significant byte first. -/
def Curve.pubBytes (c : Curve) (d : Nat) : List Byte :=
  let (x, y) := c.pub d
  beBytes c.size x ++ beBytes c.size y

/-- The hash that goes with a curve. -/
def Curve.hash (c : Curve) : List Byte → List Byte := if c.size = 32 then sha256 else sha384

def Curve.hmacK (c : Curve) (k m : List Byte) : List Byte := hmac c.hash (if c.size = 32 then 64 else 128) k m

/-- Candidate nonces of RFC 6979 until one lies in 1 to n − 1. -/
def Curve.nonceFrom (c : Curve) : Nat → List Byte → List Byte → Nat
  | 0, _, _ => 1
  | fuel + 1, k, v =>
    let v := c.hmacK k v
    let x := beNat v
    if 0 < x ∧ x < c.n then x
    else
      let k := c.hmacK k (v ++ [0])
      Curve.nonceFrom c fuel k (c.hmacK k v)

/-- Nonce of RFC 6979 for scalar d and digest e, hedged with additional input. -/
def Curve.nonce (c : Curve) (d e : Nat) (extra : List Byte) : Nat :=
  let s := beBytes c.size d ++ beBytes c.size (e % c.n) ++ extra
  let k := c.hmacK (zeros c.size) (List.replicate c.size 1 ++ [0] ++ s)
  let v := c.hmacK k (List.replicate c.size 1)
  let k := c.hmacK k (v ++ [1] ++ s)
  c.nonceFrom 64 k (c.hmacK k v)

/-- ECDSA signature of digest e. -/
def Curve.sign (c : Curve) (d e : Nat) (extra : List Byte) : Nat × Nat :=
  let k := c.nonce d e extra
  let r := (c.pub k).1 % c.n
  (r, inv0 k c.n * (e + r * d) % c.n)

/-- ECDSA verification, r and s in 1 to n − 1. -/
def Curve.verify (c : Curve) (q : Pt) (e r s : Nat) : Bool :=
  let w := inv0 s c.n
  match c.add (c.times (e * w % c.n) c.base) (c.times (r * w % c.n) q) with
  | none => false
  | some (x, _) => decide (x % c.n = r)

/-- Signature check of a signed record (R54, R382): public key x then y, signature r then s, digest; most significant byte first. -/
def Curve.verifyBytes (c : Curve) (pub sig digest : List Byte) : Bool :=
  let x := beAt pub 0 c.size
  let y := beAt pub c.size c.size
  let r := beAt sig 0 c.size
  let s := beAt sig c.size c.size
  decide (x < c.p ∧ y < c.p ∧ 0 < r ∧ r < c.n ∧ 0 < s ∧ s < c.n) && c.on x y && c.verify (some (x, y)) (beNat (digest.take c.size)) r s

/-! ## Ed25519 -/

def p25519 : Nat := 2 ^ 255 - 19
def edL : Nat := 2 ^ 252 + 27742317777372353535851937790883648493
def edD : Nat := 0x52036CEE2B6FFE738CC740797779E89800700A4D4141D8AB75EB4DCA135978A3

/-- Projective (extended) point X, Y, Z, T with T = X Y / Z. -/
structure EdPt where
  x : Nat
  y : Nat
  z : Nat
  t : Nat

def edZero : EdPt := ⟨0, 1, 1, 0⟩

def edBase : EdPt :=
  let x := 0x216936D3CD6E53FEC0A4E231FDD6DC5C692CC7609525A7B2C9562D608F25D51A
  let y := 0x6666666666666666666666666666666666666666666666666666666666666658
  ⟨x, y, 1, x * y % p25519⟩

def EdPt.add (p q : EdPt) : EdPt :=
  let m := p25519
  let a := subMod p.y p.x m * subMod q.y q.x m % m
  let b := (p.y + p.x) * (q.y + q.x) % m
  let c := 2 * p.t * q.t * edD % m
  let d := 2 * p.z * q.z % m
  let e := subMod b a m
  let f := subMod d c m
  let g := (d + c) % m
  let h := (b + a) % m
  ⟨e * f % m, g * h % m, f * g % m, e * h % m⟩

def EdPt.mul : Nat → Nat → EdPt → EdPt
  | 0, _, _ => edZero
  | fuel + 1, k, p =>
    if k = 0 then edZero else
    let h := EdPt.mul fuel (k / 2) (p.add p)
    if k % 2 = 1 then p.add h else h

def EdPt.times (p : EdPt) (k : Nat) : EdPt := p.mul (bitLen k + 1) k

def EdPt.affine (p : EdPt) : Nat × Nat :=
  let i := inv0 p.z p25519
  (p.x * i % p25519, p.y * i % p25519)

/-- Encoding of RFC 8032: y with the parity of x in bit 255. -/
def EdPt.encode (p : EdPt) : List Byte :=
  let (x, y) := p.affine
  leBytes 32 (y + x % 2 * 2 ^ 255)

/-- Decoding of RFC 8032; none when the string encodes no point. -/
def edDecode (bs : List Byte) : Option EdPt :=
  let m := p25519
  let v := leAt bs 0 32
  let y := v % 2 ^ 255
  let sign := v / 2 ^ 255
  if y ≥ m then none else
  let u := subMod (y * y) 1 m
  let w := (edD * y * y + 1) % m
  let x := u * (w * w * w % m) % m * powMod m 256 (u * powMod m 4 w 7 % m) ((m - 5) / 8) % m
  let x := if w * x * x % m = u then some x
    else if w * x * x % m = subMod 0 u m then some (x * powMod m 256 2 ((m - 1) / 4) % m)
    else none
  match x with
  | none => none
  | some x =>
    if x = 0 ∧ sign = 1 then none else
    let x := if x % 2 = sign then x else m - x
    some ⟨x, y, 1, x * y % m⟩

/-- Clamped scalar and prefix of a seed. -/
def edSecret (seed : List Byte) : Nat × List Byte :=
  let h := sha512 seed
  (leAt h 0 32 % 2 ^ 254 / 8 * 8 + 2 ^ 254, h.drop 32)

def edPub (seed : List Byte) : List Byte := (edBase.times (edSecret seed).1).encode

/-- Ed25519 signature: R then S. -/
def edSign (seed msg : List Byte) : List Byte :=
  let (a, pre) := edSecret seed
  let r := leNat (sha512 (pre ++ msg)) % edL
  let rb := (edBase.times r).encode
  let k := leNat (sha512 (rb ++ edPub seed ++ msg)) % edL
  rb ++ leBytes 32 ((r + k * a) % edL)

def EdPt.same (p q : EdPt) : Bool :=
  decide (p.x * q.z % p25519 = q.x * p.z % p25519 ∧ p.y * q.z % p25519 = q.y * p.z % p25519)

/-- Ed25519 verification with decoded A and R: S B = R + k A. -/
def edVerify (a r : EdPt) (ab rb : List Byte) (s : Nat) (msg : List Byte) : Bool :=
  let k := leNat (sha512 (rb ++ ab ++ msg)) % edL
  (edBase.times s).same (r.add (a.times k))

/-! ## X25519 -/

/-- One step of the ladder on (x2, z2, x3, z3). -/
def xStep (u : Nat) (s : Nat × Nat × Nat × Nat) : Nat × Nat × Nat × Nat :=
  let m := p25519
  let (x2, z2, x3, z3) := s
  let a := (x2 + z2) % m
  let b := subMod x2 z2 m
  let aa := a * a % m
  let bb := b * b % m
  let e := subMod aa bb m
  let da := subMod x3 z3 m * a % m
  let cb := (x3 + z3) * b % m
  let x5 := (da + cb) % m
  let z5 := subMod da cb m
  (aa * bb % m, e * (aa + 121665 * e) % m, x5 * x5 % m, u * (z5 * z5 % m) % m)

/-- Ladder over the bits of k below a position, from the top. -/
def xLadder (u k : Nat) : Nat → Nat × Nat × Nat × Nat → Nat × Nat × Nat × Nat
  | 0, s => s
  | n + 1, (x2, z2, x3, z3) =>
    if k / 2 ^ n % 2 = 1 then
      let (a, b, c, d) := xStep u (x3, z3, x2, z2)
      xLadder u k n (c, d, a, b)
    else xLadder u k n (xStep u (x2, z2, x3, z3))

/-- X25519 of a scalar's bytes and a u-coordinate. -/
def x25519 (scalar : List Byte) (u : Nat) : Nat :=
  let k := leAt scalar 0 32 % 2 ^ 254 / 8 * 8 + 2 ^ 254
  let (x2, z2, _, _) := xLadder (u % 2 ^ 255 % p25519) k 255 (1, 0, u % 2 ^ 255 % p25519, 1)
  x2 * inv0 z2 p25519 % p25519

def xPub (scalar : List Byte) : List Byte := leBytes 32 (x25519 scalar 9)

end Sys2Proof.Machine
end

