-- ==== Sys2Proof/Machine/Aes.lean ====
section
/-! DEFINITION. AES-128, AES-CMAC and AES-SIV-CMAC-256 (R38, R296, R297, R376, R378), as in FIPS 197, NIST SP 800-38B and RFC 5297, which the manual names. -/

namespace Sys2Proof.Machine

/-- The AES S-box, entry i in byte i. -/
def sboxTable : Nat :=
  0x16BB54B00F2D99416842E6BF0D89A18CDF2855CEE9871E9B948ED9691198F8E19E1DC186B95735610EF6034866B53E708A8BBD4B1F74DDE8C6B4A61C2E2578BA08AE7A65EAF4566CA94ED58D6D37C8E779E4959162ACD3C25C2406490A3A32E0DB0B5EDE14B8EE4688902A22DC4F816073195D643D7EA7C41744975FEC130CCDD2F3FF1021DAB6BCF5389D928F40A351A89F3C507F02F94585334D43FBAAEFD0CF584C4A39BECB6A5BB1FC20ED00D153842FE329B3D63B52A05A6E1B1A2C830975B227EBE28012079A059618C323C7041531D871F1E5A534CCF73F362693FDB7C072A49CAFA2D4ADF04759FA7DC982CA76ABD7FE2B670130C56F6BF27B777C63

def sbox (b : Nat) : Nat := (sboxTable >>> (8 * b)) % 256

def xtime (b : Nat) : Nat := if b < 128 then 2 * b else (2 * b) ^^^ 0x11B

/-- Bytes as numbers, and back. -/
def toNats (bs : List Byte) : List Nat := bs.map (·.toNat)
def ofNats (ns : List Nat) : List Byte := ns.map byte

def xorNats (a b : List Nat) : List Nat := List.zipWith (· ^^^ ·) a b

/-- Key expansion of AES-128: the round keys, 16 bytes each; w: the last round key. -/
def aesKeys : Nat → Nat → List Nat → List (List Nat)
  | 0, _, w => [w]
  | n + 1, rcon, w =>
    let t := (w.drop 13 ++ (w.drop 12).take 1).map sbox
    let t := match t with
      | a :: r => (a ^^^ rcon) :: r
      | [] => []
    let w0 := xorNats (w.take 4) t
    let w1 := xorNats ((w.drop 4).take 4) w0
    let w2 := xorNats ((w.drop 8).take 4) w1
    let w3 := xorNats ((w.drop 12).take 4) w2
    w :: aesKeys n (xtime rcon) (w0 ++ w1 ++ w2 ++ w3)

/-- ShiftRows on 16 bytes in column order. -/
def shiftRows (s : List Nat) : List Nat :=
  [0, 5, 10, 15, 4, 9, 14, 3, 8, 13, 2, 7, 12, 1, 6, 11].map fun i => (s[i]?).getD 0

def mixColumns : List Nat → List Nat
  | a :: b :: c :: d :: r =>
    let t := a ^^^ b ^^^ c ^^^ d
    (a ^^^ t ^^^ xtime (a ^^^ b)) :: (b ^^^ t ^^^ xtime (b ^^^ c)) :: (c ^^^ t ^^^ xtime (c ^^^ d))
      :: (d ^^^ t ^^^ xtime (d ^^^ a)) :: mixColumns r
  | _ => []

/-- Rounds after the first key addition. -/
def aesRounds : List (List Nat) → List Nat → List Nat
  | [], s => s
  | [k], s => xorNats (shiftRows (s.map sbox)) k
  | k :: ks, s => aesRounds ks (xorNats (mixColumns (shiftRows (s.map sbox))) k)

/-- AES-128 encryption of one block. -/
def aes128 (key block : List Byte) : List Byte :=
  match aesKeys 10 1 (toNats key) with
  | k :: ks => ofNats (aesRounds ks (xorNats (toNats block) k))
  | [] => []

def xorBytes (a b : List Byte) : List Byte := List.zipWith (· ^^^ ·) a b

/-- Doubling in GF(2^128), big-endian. -/
def dbl (b : List Byte) : List Byte :=
  let n := beNat b
  beBytes 16 (if n < 2 ^ 127 then 2 * n else (2 * n - 2 ^ 128) ^^^ 0x87)

/-- 16-byte blocks of a message. -/
def blocks16 : Nat → List Byte → List (List Byte)
  | 0, _ => []
  | n + 1, bs => bs.take 16 :: blocks16 n (bs.drop 16)

/-- AES-CMAC. -/
def cmac (key msg : List Byte) : List Byte :=
  let k1 := dbl (aes128 key (zeros 16))
  let n := max 1 ((msg.length + 15) / 16)
  let last := msg.drop (16 * (n - 1))
  let last := if last.length = 16 then xorBytes last k1
    else xorBytes (last ++ [0x80] ++ zeros (15 - last.length)) (dbl k1)
  let c := (blocks16 (n - 1) msg).foldl (fun c b => aes128 key (xorBytes c b)) (zeros 16)
  aes128 key (xorBytes c last)

/-- S2V of RFC 5297. -/
def s2v (key : List Byte) (ads : List (List Byte)) (plain : List Byte) : List Byte :=
  let d := ads.foldl (fun d s => xorBytes (dbl d) (cmac key s)) (cmac key (zeros 16))
  if plain.length ≥ 16 then
    let k := plain.length - 16
    cmac key (plain.take k ++ xorBytes (plain.drop k) d)
  else cmac key (xorBytes (dbl d) (plain ++ [0x80] ++ zeros (15 - plain.length)))

/-- Key stream of CTR mode from a 128-bit counter. -/
def ctrStream (key : List Byte) : Nat → Nat → List Byte
  | 0, _ => []
  | n + 1, c => aes128 key (beBytes 16 c) ++ ctrStream key n ((c + 1) % 2 ^ 128)

def sivCtr (key iv data : List Byte) : List Byte :=
  -- bits 63 and 31 of the IV are cleared
  let n := beNat iv
  let n := putBit (putBit n 63 false) 31 false
  xorBytes data (ctrStream key ((data.length + 15) / 16) n)

/-- AES-SIV-CMAC-256 encryption: synthetic IV and ciphertext. The nonce is the last associated-data component. -/
def sivSeal (key : List Byte) (ads : List (List Byte)) (plain : List Byte) : List Byte × List Byte :=
  let v := s2v (key.take 16) ads plain
  (v, sivCtr (key.drop 16) v plain)

/-- AES-SIV-CMAC-256 decryption; none when verification fails. -/
def sivOpen (key : List Byte) (ads : List (List Byte)) (v cipher : List Byte) : Option (List Byte) :=
  let p := sivCtr (key.drop 16) v cipher
  if s2v (key.take 16) ads p = v then some p else none

end Sys2Proof.Machine
end

