-- ==== Sys2Proof/Machine/Crc.lean ====
section
/-! DEFINITION. Cyclic redundancy checks: CRC-32C (R53, R195, R386, R425) and the Ethernet FCS (R230). The polynomials are those of the standards the manual names. -/

namespace Sys2Proof.Machine

/-- One bit of a reflected CRC-32. -/
def crcBit (poly c : Nat) : Nat := if c % 2 = 1 then (c / 2) ^^^ poly else c / 2

/-- One byte of a reflected CRC-32. -/
def crcByte (poly c : Nat) (b : Byte) : Nat :=
  (List.range 8).foldl (fun c _ => crcBit poly c) (c ^^^ b.toNat)

/-- A reflected CRC-32 with all-ones start and final complement. -/
def crc32 (poly : Nat) (bs : List Byte) : Nat := (bs.foldl (crcByte poly) 0xFFFFFFFF) ^^^ 0xFFFFFFFF

/-- CRC-32C (Castagnoli). -/
def crc32c (bs : List Byte) : Nat := crc32 0x82F63B78 bs

/-- CRC-32C continued from a start value, without the final complement (client-table index, R262). -/
def crc32cFrom (seed : Nat) (bs : List Byte) : Nat := bs.foldl (crcByte 0x82F63B78) seed

/-- The Ethernet frame check sequence, little-endian on the wire. -/
def fcsOf (bs : List Byte) : List Byte := leBytes 4 (crc32 0xEDB88320 bs)

end Sys2Proof.Machine
end

