-- ==== Sys2Proof/Machine/Fields.lean ====
section
/-! DEFINITION. The BAR0 offset of each register (A) and each of its fields (F), under the names of the spec's register tables. -/

namespace Sys2Proof.Machine

/-- A field of a register: the register's BAR0 offset and the bits [hi:lo]. -/
structure Fld where
  addr : Nat
  hi : Nat
  lo : Nat
deriving DecidableEq, Repr

/-- Base of answer die n (spec/00_scope.md, Registers and addresses). -/
def dieBase (n : Nat) : Nat := 0x100000 + 0x100000 * n

def A.DEVICE_ID : Nat := 0
def F.DEVICE_ID_ID : Fld := ⟨A.DEVICE_ID, 31, 0⟩
def A.IMAGE_GEN : Nat := 8
def F.IMAGE_GEN_GEN : Fld := ⟨A.IMAGE_GEN, 31, 0⟩
def A.IMAGE_ID : Nat := 0xC
def F.IMAGE_ID_ID : Fld := ⟨A.IMAGE_ID, 31, 0⟩
def A.GBL_STATUS : Nat := 0x10
def F.GBL_STATUS_WRITE_ERR : Fld := ⟨A.GBL_STATUS, 0, 0⟩
def F.GBL_STATUS_GUARD_FAIL : Fld := ⟨A.GBL_STATUS, 1, 1⟩
def F.GBL_STATUS_LIMIT_ERR : Fld := ⟨A.GBL_STATUS, 2, 2⟩
def F.GBL_STATUS_UNMAPPED : Fld := ⟨A.GBL_STATUS, 3, 3⟩
def A.GUARD : Nat := 0x14
def F.GUARD_ARM : Fld := ⟨A.GUARD, 31, 0⟩
def A.FUSE_PCI_ID : Nat := 0x20
def F.FUSE_PCI_ID_ID : Fld := ⟨A.FUSE_PCI_ID, 31, 0⟩
def A.FUSE_PCI_SUB : Nat := 0x24
def F.FUSE_PCI_SUB_ID : Fld := ⟨A.FUSE_PCI_SUB, 23, 0⟩
def A.FUSE_SERIAL : Nat := 0x28
def F.FUSE_SERIAL_LO : Fld := ⟨A.FUSE_SERIAL, 31, 0⟩
def A.FUSE_SERIAL_HI : Nat := 0x2C
def F.FUSE_SERIAL_HI_HI : Fld := ⟨A.FUSE_SERIAL_HI, 31, 0⟩
def A.FUSE_LINKCAL (w : Nat) : Nat := 0x30 + 8 * w
def F.FUSE_LINKCAL_W (w : Nat) : Fld := ⟨A.FUSE_LINKCAL w, 31, 0⟩
def A.FUSE_LINKCAL_1 (w : Nat) : Nat := 0x34 + 8 * w
def F.FUSE_LINKCAL_1_W (w : Nat) : Fld := ⟨A.FUSE_LINKCAL_1 w, 31, 0⟩
def A.MODE_CTRL : Nat := 0x200
def F.MODE_CTRL_REQ_MODE : Fld := ⟨A.MODE_CTRL, 2, 0⟩
def F.MODE_CTRL_STANDBY_TB : Fld := ⟨A.MODE_CTRL, 3, 3⟩
def F.MODE_CTRL_USE_EPOCH : Fld := ⟨A.MODE_CTRL, 4, 4⟩
def F.MODE_CTRL_GO : Fld := ⟨A.MODE_CTRL, 5, 5⟩
def A.MODE_STATUS : Nat := 0x204
def F.MODE_STATUS_MODE : Fld := ⟨A.MODE_STATUS, 2, 0⟩
def F.MODE_STATUS_PROGRESS : Fld := ⟨A.MODE_STATUS, 4, 3⟩
def F.MODE_STATUS_TARGET : Fld := ⟨A.MODE_STATUS, 7, 5⟩
def F.MODE_STATUS_LATCHED : Fld := ⟨A.MODE_STATUS, 8, 8⟩
def F.MODE_STATUS_ON_TRIAL : Fld := ⟨A.MODE_STATUS, 9, 9⟩
def F.MODE_STATUS_TB_OFF : Fld := ⟨A.MODE_STATUS, 10, 10⟩
def F.MODE_STATUS_LAST_CODE : Fld := ⟨A.MODE_STATUS, 15, 12⟩
def F.MODE_STATUS_DONE : Fld := ⟨A.MODE_STATUS, 16, 16⟩
def A.MODE_EPOCH : Nat := 0x208
def F.MODE_EPOCH_EPOCH : Fld := ⟨A.MODE_EPOCH, 31, 0⟩
def A.MODE_EPOCH_HI : Nat := 0x20C
def F.MODE_EPOCH_HI_EPOCH : Fld := ⟨A.MODE_EPOCH_HI, 31, 0⟩
def A.RESET_CTRL : Nat := 0x210
def F.RESET_CTRL_DEVICE_RESET : Fld := ⟨A.RESET_CTRL, 0, 0⟩
def A.RESET_CAUSE : Nat := 0x214
def F.RESET_CAUSE_CAUSE : Fld := ⟨A.RESET_CAUSE, 8, 0⟩
def A.BOOT_STATUS : Nat := 0x218
def F.BOOT_STATUS_IMAGE_BANK : Fld := ⟨A.BOOT_STATUS, 0, 0⟩
def F.BOOT_STATUS_IMAGE_TRIAL : Fld := ⟨A.BOOT_STATUS, 1, 1⟩
def F.BOOT_STATUS_POS_TRIAL : Fld := ⟨A.BOOT_STATUS, 2, 2⟩
def F.BOOT_STATUS_SAFE_PIN : Fld := ⟨A.BOOT_STATUS, 3, 3⟩
def F.BOOT_STATUS_SAFE_REASON : Fld := ⟨A.BOOT_STATUS, 7, 4⟩
def F.BOOT_STATUS_LOAD_MS : Fld := ⟨A.BOOT_STATUS, 31, 16⟩
def A.DIE_CTRL : Nat := 0x280
def F.DIE_CTRL_ENABLE : Fld := ⟨A.DIE_CTRL, 3, 0⟩
def A.DIE_STATE : Nat := 0x284
def F.DIE_STATE_STATE : Fld := ⟨A.DIE_STATE, 7, 0⟩
def F.DIE_STATE_LATCHED : Fld := ⟨A.DIE_STATE, 11, 8⟩
def F.DIE_STATE_FAULT_PARKED : Fld := ⟨A.DIE_STATE, 15, 12⟩
def F.DIE_STATE_LAST_CODE : Fld := ⟨A.DIE_STATE, 31, 16⟩
def A.SUMMARY_ADDR : Nat := 0x300
def F.SUMMARY_ADDR_ADDR : Fld := ⟨A.SUMMARY_ADDR, 31, 0⟩
def A.SUMMARY_ADDR_HI : Nat := 0x304
def F.SUMMARY_ADDR_HI_ADDR : Fld := ⟨A.SUMMARY_ADDR_HI, 31, 0⟩
def A.SUMMARY_GO : Nat := 0x308
def F.SUMMARY_GO_GO : Fld := ⟨A.SUMMARY_GO, 0, 0⟩
def A.SUMMARY_STATUS : Nat := 0x30C
def F.SUMMARY_STATUS_BUSY : Fld := ⟨A.SUMMARY_STATUS, 0, 0⟩
def F.SUMMARY_STATUS_LAST_CODE : Fld := ⟨A.SUMMARY_STATUS, 7, 4⟩
def F.SUMMARY_STATUS_DONE : Fld := ⟨A.SUMMARY_STATUS, 31, 31⟩
def A.SUMMARY_SEQ : Nat := 0x310
def F.SUMMARY_SEQ_SEQ : Fld := ⟨A.SUMMARY_SEQ, 31, 0⟩
def A.FAULT_STATUS : Nat := 0x380
def F.FAULT_STATUS_COUNT : Fld := ⟨A.FAULT_STATUS, 15, 0⟩
def F.FAULT_STATUS_HELD : Fld := ⟨A.FAULT_STATUS, 21, 16⟩
def F.FAULT_STATUS_NEW : Fld := ⟨A.FAULT_STATUS, 31, 31⟩
def A.FAULT_SEQ : Nat := 0x384
def F.FAULT_SEQ_SEQ : Fld := ⟨A.FAULT_SEQ, 31, 0⟩
def A.FAULT_SEL : Nat := 0x388
def F.FAULT_SEL_SEL : Fld := ⟨A.FAULT_SEL, 4, 0⟩
def A.FAULT_REC (w : Nat) : Nat := 0x3A0 + 4 * w
def F.FAULT_REC_W (w : Nat) : Fld := ⟨A.FAULT_REC w, 31, 0⟩
def A.POS_INFO : Nat := 0x400
def F.POS_INFO_SLOT : Fld := ⟨A.POS_INFO, 0, 0⟩
def F.POS_INFO_TRIAL : Fld := ⟨A.POS_INFO, 1, 1⟩
def F.POS_INFO_VENDOR_SIGNED : Fld := ⟨A.POS_INFO, 2, 2⟩
def F.POS_INFO_FORMAT : Fld := ⟨A.POS_INFO, 15, 8⟩
def F.POS_INFO_PATCH_SEQ : Fld := ⟨A.POS_INFO, 23, 16⟩
def A.POS_ID : Nat := 0x404
def F.POS_ID_ID : Fld := ⟨A.POS_ID, 31, 0⟩
def A.POS_GEN : Nat := 0x408
def F.POS_GEN_GEN : Fld := ⟨A.POS_GEN, 31, 0⟩
def A.EU_ADDR : Nat := 0x410
def F.EU_ADDR_ADDR : Fld := ⟨A.EU_ADDR, 31, 6⟩
def A.EU_ADDR_HI : Nat := 0x414
def F.EU_ADDR_HI_ADDR : Fld := ⟨A.EU_ADDR_HI, 31, 0⟩
def A.EU_LEN : Nat := 0x418
def F.EU_LEN_LEN : Fld := ⟨A.EU_LEN, 21, 0⟩
def A.EU_EPOCH : Nat := 0x420
def F.EU_EPOCH_EPOCH : Fld := ⟨A.EU_EPOCH, 31, 0⟩
def A.EU_EPOCH_HI : Nat := 0x424
def F.EU_EPOCH_HI_EPOCH : Fld := ⟨A.EU_EPOCH_HI, 31, 0⟩
def A.EU_CTRL : Nat := 0x428
def F.EU_CTRL_SUBMIT : Fld := ⟨A.EU_CTRL, 0, 0⟩
def F.EU_CTRL_CANCEL : Fld := ⟨A.EU_CTRL, 1, 1⟩
def F.EU_CTRL_KIND : Fld := ⟨A.EU_CTRL, 2, 2⟩
def A.EU_STATUS : Nat := 0x42C
def F.EU_STATUS_PATCH_STATE : Fld := ⟨A.EU_STATUS, 1, 0⟩
def F.EU_STATUS_BATCH_STATE : Fld := ⟨A.EU_STATUS, 3, 2⟩
def F.EU_STATUS_LAST_CODE : Fld := ⟨A.EU_STATUS, 11, 8⟩
def F.EU_STATUS_BAD_ENTRY : Fld := ⟨A.EU_STATUS, 25, 16⟩
def F.EU_STATUS_DONE : Fld := ⟨A.EU_STATUS, 31, 31⟩
def A.STAT_SNAP_CTRL : Nat := 0x600
def F.STAT_SNAP_CTRL_GO : Fld := ⟨A.STAT_SNAP_CTRL, 0, 0⟩
def F.STAT_SNAP_CTRL_CANCEL : Fld := ⟨A.STAT_SNAP_CTRL, 1, 1⟩
def F.STAT_SNAP_CTRL_AT_TIME : Fld := ⟨A.STAT_SNAP_CTRL, 2, 2⟩
def F.STAT_SNAP_CTRL_SCALE : Fld := ⟨A.STAT_SNAP_CTRL, 4, 3⟩
def F.STAT_SNAP_CTRL_RING : Fld := ⟨A.STAT_SNAP_CTRL, 5, 5⟩
def A.STAT_SNAP_STATUS : Nat := 0x604
def F.STAT_SNAP_STATUS_PENDING : Fld := ⟨A.STAT_SNAP_STATUS, 0, 0⟩
def F.STAT_SNAP_STATUS_LATCHING : Fld := ⟨A.STAT_SNAP_STATUS, 1, 1⟩
def F.STAT_SNAP_STATUS_MISSED : Fld := ⟨A.STAT_SNAP_STATUS, 2, 2⟩
def F.STAT_SNAP_STATUS_LAST_CODE : Fld := ⟨A.STAT_SNAP_STATUS, 7, 4⟩
def F.STAT_SNAP_STATUS_DONE : Fld := ⟨A.STAT_SNAP_STATUS, 31, 31⟩
def A.STAT_SNAP_SEQ : Nat := 0x608
def F.STAT_SNAP_SEQ_SEQ : Fld := ⟨A.STAT_SNAP_SEQ, 31, 0⟩
def A.STAT_SNAP_TIME : Nat := 0x610
def F.STAT_SNAP_TIME_FRAC : Fld := ⟨A.STAT_SNAP_TIME, 15, 0⟩
def A.STAT_SNAP_TIME_NS : Nat := 0x614
def F.STAT_SNAP_TIME_NS_NS : Fld := ⟨A.STAT_SNAP_TIME_NS, 29, 0⟩
def A.STAT_SNAP_TIME_SEC_LO : Nat := 0x618
def F.STAT_SNAP_TIME_SEC_LO_SEC : Fld := ⟨A.STAT_SNAP_TIME_SEC_LO, 31, 0⟩
def A.STAT_SNAP_TIME_SEC_HI : Nat := 0x61C
def F.STAT_SNAP_TIME_SEC_HI_SEC : Fld := ⟨A.STAT_SNAP_TIME_SEC_HI, 15, 0⟩
def A.STAT_SNAP_RAW : Nat := 0x620
def F.STAT_SNAP_RAW_RAW : Fld := ⟨A.STAT_SNAP_RAW, 31, 0⟩
def A.STAT_SNAP_RAW_HI : Nat := 0x624
def F.STAT_SNAP_RAW_HI_RAW : Fld := ⟨A.STAT_SNAP_RAW_HI, 31, 0⟩
def A.NTS_STATUS : Nat := 0x800
def F.NTS_STATUS_WRITE_ERR : Fld := ⟨A.NTS_STATUS, 0, 0⟩
def F.NTS_STATUS_ROT_PENDING : Fld := ⟨A.NTS_STATUS, 1, 1⟩
def F.NTS_STATUS_ROT_SKIP : Fld := ⟨A.NTS_STATUS, 2, 2⟩
def F.NTS_STATUS_LAST_CODE : Fld := ⟨A.NTS_STATUS, 7, 4⟩
def F.NTS_STATUS_DONE : Fld := ⟨A.NTS_STATUS, 31, 31⟩
def A.NTS_ROLES : Nat := 0x804
def F.NTS_ROLES_PREV_IDX : Fld := ⟨A.NTS_ROLES, 1, 0⟩
def F.NTS_ROLES_CUR_IDX : Fld := ⟨A.NTS_ROLES, 3, 2⟩
def F.NTS_ROLES_NEXT_IDX : Fld := ⟨A.NTS_ROLES, 5, 4⟩
def F.NTS_ROLES_SPARE_IDX : Fld := ⟨A.NTS_ROLES, 7, 6⟩
def A.NTS_ROT_CTRL : Nat := 0x808
def F.NTS_ROT_CTRL_GO : Fld := ⟨A.NTS_ROT_CTRL, 0, 0⟩
def F.NTS_ROT_CTRL_CANCEL : Fld := ⟨A.NTS_ROT_CTRL, 1, 1⟩
def A.NTS_ROT_PERIOD : Nat := 0x80C
def F.NTS_ROT_PERIOD_S : Fld := ⟨A.NTS_ROT_PERIOD, 23, 0⟩
def A.NTS_OVERLAP : Nat := 0x810
def F.NTS_OVERLAP_S : Fld := ⟨A.NTS_OVERLAP, 23, 0⟩
def A.NTS_ROT_EPOCH : Nat := 0x818
def F.NTS_ROT_EPOCH_EPOCH : Fld := ⟨A.NTS_ROT_EPOCH, 31, 0⟩
def A.NTS_ROT_EPOCH_HI : Nat := 0x81C
def F.NTS_ROT_EPOCH_HI_EPOCH : Fld := ⟨A.NTS_ROT_EPOCH_HI, 31, 0⟩
def A.NTS_PREV_UNTIL : Nat := 0x820
def F.NTS_PREV_UNTIL_UNTIL : Fld := ⟨A.NTS_PREV_UNTIL, 31, 0⟩
def A.NTS_PREV_UNTIL_HI : Nat := 0x824
def F.NTS_PREV_UNTIL_HI_UNTIL : Fld := ⟨A.NTS_PREV_UNTIL_HI, 31, 0⟩
def A.NTS_KEY (w : Nat) : Nat := 0x840 + 0x10 * w
def F.NTS_KEY_KEY_ID (w : Nat) : Fld := ⟨A.NTS_KEY w, 31, 0⟩
def A.NTS_KEY_1 (w : Nat) : Nat := 0x844 + 0x10 * w
def F.NTS_KEY_1_SLOT (w : Nat) : Fld := ⟨A.NTS_KEY_1 w, 3, 0⟩
def F.NTS_KEY_1_VALID (w : Nat) : Fld := ⟨A.NTS_KEY_1 w, 8, 8⟩
def A.NTS_KEY_2 (w : Nat) : Nat := 0x848 + 0x10 * w
def F.NTS_KEY_2_MINTED (w : Nat) : Fld := ⟨A.NTS_KEY_2 w, 31, 0⟩
def A.NTS_KEY_3 (w : Nat) : Nat := 0x84C + 0x10 * w
def A.EV_STATUS (w : Nat) : Nat := 0x1000 + 4 * w
def F.EV_STATUS_STATUS (w : Nat) : Fld := ⟨A.EV_STATUS w, 31, 0⟩
def A.EV_ENABLE (w : Nat) : Nat := 0x1010 + 4 * w
def F.EV_ENABLE_ENABLE (w : Nat) : Fld := ⟨A.EV_ENABLE w, 31, 0⟩
def A.EV_BLK_STATUS : Nat := 0x1020
def F.EV_BLK_STATUS_WRITE_ERR : Fld := ⟨A.EV_BLK_STATUS, 0, 0⟩
def A.EV_ROUTE (w : Nat) : Nat := 0x1100 + 4 * w
def F.EV_ROUTE_KIND (w : Nat) : Fld := ⟨A.EV_ROUTE w, 1, 0⟩
def F.EV_ROUTE_VECTOR (w : Nat) : Fld := ⟨A.EV_ROUTE w, 13, 8⟩
def F.EV_ROUTE_LOCKED (w : Nat) : Fld := ⟨A.EV_ROUTE w, 16, 16⟩
def F.EV_ROUTE_LEVEL (w : Nat) : Fld := ⟨A.EV_ROUTE w, 17, 17⟩
def A.TS_STATUS : Nat := 0x10000
def F.TS_STATUS_WRITE_ERR : Fld := ⟨A.TS_STATUS, 0, 0⟩
def F.TS_STATUS_GUARD_FAIL : Fld := ⟨A.TS_STATUS, 1, 1⟩
def F.TS_STATUS_LIMIT_ERR : Fld := ⟨A.TS_STATUS, 2, 2⟩
def F.TS_STATUS_OWNER_ERR : Fld := ⟨A.TS_STATUS, 3, 3⟩
def A.TS_GUARD : Nat := 0x10004
def F.TS_GUARD_ARM : Fld := ⟨A.TS_GUARD, 31, 0⟩
def A.RAW : Nat := 0x10010
def F.RAW_RAW : Fld := ⟨A.RAW, 15, 0⟩
def A.RAW_LO : Nat := 0x10014
def F.RAW_LO_RAW : Fld := ⟨A.RAW_LO, 31, 0⟩
def A.RAW_HI : Nat := 0x10018
def F.RAW_HI_RAW : Fld := ⟨A.RAW_HI, 31, 0⟩
def A.SNAP_CTRL : Nat := 0x10020
def F.SNAP_CTRL_CAPTURE : Fld := ⟨A.SNAP_CTRL, 0, 0⟩
def F.SNAP_CTRL_VALID : Fld := ⟨A.SNAP_CTRL, 1, 1⟩
def A.SNAP_RAW : Nat := 0x10030
def F.SNAP_RAW_RAW : Fld := ⟨A.SNAP_RAW, 15, 0⟩
def A.SNAP_RAW_LO : Nat := 0x10034
def F.SNAP_RAW_LO_RAW : Fld := ⟨A.SNAP_RAW_LO, 31, 0⟩
def A.SNAP_RAW_HI : Nat := 0x10038
def F.SNAP_RAW_HI_RAW : Fld := ⟨A.SNAP_RAW_HI, 31, 0⟩
def A.SNAP_A (w : Nat) : Nat := 0x10040 + 4 * w
def F.SNAP_A_TIME (w : Nat) : Fld := ⟨A.SNAP_A w, 31, 0⟩
def A.SNAP_B (w : Nat) : Nat := 0x10050 + 4 * w
def F.SNAP_B_TIME (w : Nat) : Fld := ⟨A.SNAP_B w, 31, 0⟩
def A.SNAP_SRV (w : Nat) : Nat := 0x10060 + 4 * w
def F.SNAP_SRV_TIME (w : Nat) : Fld := ⟨A.SNAP_SRV w, 31, 0⟩
def A.CASTLE_CTRL : Nat := 0x10100
def F.CASTLE_CTRL_TARGET : Fld := ⟨A.CASTLE_CTRL, 0, 0⟩
def F.CASTLE_CTRL_FORCE : Fld := ⟨A.CASTLE_CTRL, 1, 1⟩
def F.CASTLE_CTRL_USE_EPOCH : Fld := ⟨A.CASTLE_CTRL, 2, 2⟩
def F.CASTLE_CTRL_GO : Fld := ⟨A.CASTLE_CTRL, 3, 3⟩
def F.CASTLE_CTRL_CANCEL : Fld := ⟨A.CASTLE_CTRL, 4, 4⟩
def A.CASTLE_STATUS : Nat := 0x10104
def F.CASTLE_STATUS_SERVED : Fld := ⟨A.CASTLE_STATUS, 0, 0⟩
def F.CASTLE_STATUS_PENDING : Fld := ⟨A.CASTLE_STATUS, 1, 1⟩
def F.CASTLE_STATUS_ACTIVE : Fld := ⟨A.CASTLE_STATUS, 2, 2⟩
def F.CASTLE_STATUS_CODE : Fld := ⟨A.CASTLE_STATUS, 11, 8⟩
def F.CASTLE_STATUS_DONE : Fld := ⟨A.CASTLE_STATUS, 31, 31⟩
def A.CASTLE_LIMIT : Nat := 0x10108
def F.CASTLE_LIMIT_NS : Fld := ⟨A.CASTLE_LIMIT, 19, 0⟩
def A.CASTLE_EPOCH : Nat := 0x10110
def F.CASTLE_EPOCH_EPOCH : Fld := ⟨A.CASTLE_EPOCH, 31, 0⟩
def A.CASTLE_EPOCH_HI : Nat := 0x10114
def F.CASTLE_EPOCH_HI_EPOCH : Fld := ⟨A.CASTLE_EPOCH_HI, 31, 0⟩
def A.CASTLE_BRIDGE : Nat := 0x10118
def F.CASTLE_BRIDGE_BRIDGE : Fld := ⟨A.CASTLE_BRIDGE, 31, 0⟩
def A.CASTLE_BRIDGE_HI : Nat := 0x1011C
def F.CASTLE_BRIDGE_HI_BRIDGE : Fld := ⟨A.CASTLE_BRIDGE_HI, 31, 0⟩
def A.UTC_BASE : Nat := 0x10200
def F.UTC_BASE_OFFSET : Fld := ⟨A.UTC_BASE, 15, 0⟩
def A.UTC_STATUS : Nat := 0x10204
def F.UTC_STATUS_OFFSET_NOW : Fld := ⟨A.UTC_STATUS, 15, 0⟩
def F.UTC_STATUS_VALID : Fld := ⟨A.UTC_STATUS, 16, 16⟩
def F.UTC_STATUS_ALT_DIR : Fld := ⟨A.UTC_STATUS, 18, 17⟩
def F.UTC_STATUS_DISAGREE : Fld := ⟨A.UTC_STATUS, 19, 19⟩
def F.UTC_STATUS_ENTRIES : Fld := ⟨A.UTC_STATUS, 23, 20⟩
def F.UTC_STATUS_LAST_CODE : Fld := ⟨A.UTC_STATUS, 27, 24⟩
def A.LEAP_CTRL : Nat := 0x10208
def F.LEAP_CTRL_SRC : Fld := ⟨A.LEAP_CTRL, 0, 0⟩
def F.LEAP_CTRL_DIR : Fld := ⟨A.LEAP_CTRL, 1, 1⟩
def F.LEAP_CTRL_ADD : Fld := ⟨A.LEAP_CTRL, 2, 2⟩
def F.LEAP_CTRL_WITHDRAW : Fld := ⟨A.LEAP_CTRL, 3, 3⟩
def A.LEAP_NEW_SEC : Nat := 0x10210
def F.LEAP_NEW_SEC_SEC : Fld := ⟨A.LEAP_NEW_SEC, 31, 0⟩
def A.LEAP_NEW_SEC_HI : Nat := 0x10214
def F.LEAP_NEW_SEC_HI_SEC : Fld := ⟨A.LEAP_NEW_SEC_HI, 15, 0⟩
def A.LEAP_TABLE_0 (w : Nat) : Nat := 0x10240 + 0x10 * w
def F.LEAP_TABLE_0_SEC (w : Nat) : Fld := ⟨A.LEAP_TABLE_0 w, 31, 0⟩
def A.LEAP_TABLE_1 (w : Nat) : Nat := 0x10244 + 0x10 * w
def F.LEAP_TABLE_1_SEC (w : Nat) : Fld := ⟨A.LEAP_TABLE_1 w, 15, 0⟩
def A.LEAP_TABLE_2 (w : Nat) : Nat := 0x10248 + 0x10 * w
def F.LEAP_TABLE_2_OFFSET (w : Nat) : Fld := ⟨A.LEAP_TABLE_2 w, 15, 0⟩
def F.LEAP_TABLE_2_VALID (w : Nat) : Fld := ⟨A.LEAP_TABLE_2 w, 16, 16⟩
def F.LEAP_TABLE_2_FROM_GNSS (w : Nat) : Fld := ⟨A.LEAP_TABLE_2 w, 17, 17⟩
def A.LEAP_TABLE_3 (w : Nat) : Nat := 0x1024C + 0x10 * w
def A.CONV_CTRL : Nat := 0x10300
def F.CONV_CTRL_SCALE : Fld := ⟨A.CONV_CTRL, 1, 0⟩
def F.CONV_CTRL_UTC : Fld := ⟨A.CONV_CTRL, 2, 2⟩
def F.CONV_CTRL_GO : Fld := ⟨A.CONV_CTRL, 3, 3⟩
def F.CONV_CTRL_CODE : Fld := ⟨A.CONV_CTRL, 5, 4⟩
def A.CONV_RAW : Nat := 0x10304
def F.CONV_RAW_RAW : Fld := ⟨A.CONV_RAW, 15, 0⟩
def A.CONV_RAW_LO : Nat := 0x10308
def F.CONV_RAW_LO_RAW : Fld := ⟨A.CONV_RAW_LO, 31, 0⟩
def A.CONV_RAW_HI : Nat := 0x1030C
def F.CONV_RAW_HI_RAW : Fld := ⟨A.CONV_RAW_HI, 31, 0⟩
def A.CONV_RESULT (w : Nat) : Nat := 0x10310 + 4 * w
def F.CONV_RESULT_TIME (w : Nat) : Fld := ⟨A.CONV_RESULT w, 31, 0⟩
def A.SC_CTRL (i : Nat) : Nat := 0x11000 + 0x1000 * i
def F.SC_CTRL_DISCIPLINE (i : Nat) : Fld := ⟨A.SC_CTRL i, 0, 0⟩
def F.SC_CTRL_USE_EPOCH (i : Nat) : Fld := ⟨A.SC_CTRL i, 1, 1⟩
def F.SC_CTRL_AT_SECOND (i : Nat) : Fld := ⟨A.SC_CTRL i, 2, 2⟩
def F.SC_CTRL_APPLY (i : Nat) : Fld := ⟨A.SC_CTRL i, 3, 3⟩
def F.SC_CTRL_SLEW_GO (i : Nat) : Fld := ⟨A.SC_CTRL i, 4, 4⟩
def A.SC_STATUS (i : Nat) : Nat := 0x11004 + 0x1000 * i
def F.SC_STATUS_INIT (i : Nat) : Fld := ⟨A.SC_STATUS i, 0, 0⟩
def F.SC_STATUS_PENDING (i : Nat) : Fld := ⟨A.SC_STATUS i, 1, 1⟩
def F.SC_STATUS_SLEWING (i : Nat) : Fld := ⟨A.SC_STATUS i, 2, 2⟩
def F.SC_STATUS_CLAMPED (i : Nat) : Fld := ⟨A.SC_STATUS i, 3, 3⟩
def F.SC_STATUS_LAST_CODE (i : Nat) : Fld := ⟨A.SC_STATUS i, 7, 4⟩
def F.SC_STATUS_DONE (i : Nat) : Fld := ⟨A.SC_STATUS i, 31, 31⟩
def A.SET_INTERVAL (i : Nat) : Nat := 0x11008 + 0x1000 * i
def F.SET_INTERVAL_MS (i : Nat) : Fld := ⟨A.SET_INTERVAL i, 15, 0⟩
def A.INCR (i : Nat) : Nat := 0x11010 + 0x1000 * i
def F.INCR_INCR (i : Nat) : Fld := ⟨A.INCR i, 31, 0⟩
def A.INCR_HI (i : Nat) : Nat := 0x11014 + 0x1000 * i
def F.INCR_HI_INCR (i : Nat) : Fld := ⟨A.INCR_HI i, 31, 0⟩
def A.FREQ_ADJ (i : Nat) : Nat := 0x11018 + 0x1000 * i
def F.FREQ_ADJ_FREQ (i : Nat) : Fld := ⟨A.FREQ_ADJ i, 31, 0⟩
def A.FREQ_ADJ_HI (i : Nat) : Nat := 0x1101C + 0x1000 * i
def F.FREQ_ADJ_HI_FREQ (i : Nat) : Fld := ⟨A.FREQ_ADJ_HI i, 31, 0⟩
def A.APPLY_EPOCH (i : Nat) : Nat := 0x11020 + 0x1000 * i
def F.APPLY_EPOCH_EPOCH (i : Nat) : Fld := ⟨A.APPLY_EPOCH i, 31, 0⟩
def A.APPLY_EPOCH_HI (i : Nat) : Nat := 0x11024 + 0x1000 * i
def F.APPLY_EPOCH_HI_EPOCH (i : Nat) : Fld := ⟨A.APPLY_EPOCH_HI i, 31, 0⟩
def A.SLEW_AMOUNT (i : Nat) : Nat := 0x11030 + 0x1000 * i
def F.SLEW_AMOUNT_AMOUNT (i : Nat) : Fld := ⟨A.SLEW_AMOUNT i, 31, 0⟩
def A.SLEW_AMOUNT_HI (i : Nat) : Nat := 0x11034 + 0x1000 * i
def F.SLEW_AMOUNT_HI_AMOUNT (i : Nat) : Fld := ⟨A.SLEW_AMOUNT_HI i, 31, 0⟩
def A.SLEW_RATE (i : Nat) : Nat := 0x11038 + 0x1000 * i
def F.SLEW_RATE_PPB (i : Nat) : Fld := ⟨A.SLEW_RATE i, 16, 0⟩
def A.SLEW_REMAIN (i : Nat) : Nat := 0x11040 + 0x1000 * i
def F.SLEW_REMAIN_REMAIN (i : Nat) : Fld := ⟨A.SLEW_REMAIN i, 31, 0⟩
def A.SLEW_REMAIN_HI (i : Nat) : Nat := 0x11044 + 0x1000 * i
def F.SLEW_REMAIN_HI_REMAIN (i : Nat) : Fld := ⟨A.SLEW_REMAIN_HI i, 31, 0⟩
def A.STEP_REL (i : Nat) : Nat := 0x11050 + 0x1000 * i
def F.STEP_REL_STEP (i : Nat) : Fld := ⟨A.STEP_REL i, 31, 0⟩
def A.STEP_REL_HI (i : Nat) : Nat := 0x11054 + 0x1000 * i
def F.STEP_REL_HI_STEP (i : Nat) : Fld := ⟨A.STEP_REL_HI i, 31, 0⟩
def A.STEP_ABS (i : Nat) : Nat := 0x11060 + 0x1000 * i
def F.STEP_ABS_FRAC (i : Nat) : Fld := ⟨A.STEP_ABS i, 15, 0⟩
def A.STEP_ABS_NS (i : Nat) : Nat := 0x11064 + 0x1000 * i
def F.STEP_ABS_NS_NS (i : Nat) : Fld := ⟨A.STEP_ABS_NS i, 29, 0⟩
def A.STEP_ABS_SEC_LO (i : Nat) : Nat := 0x11068 + 0x1000 * i
def F.STEP_ABS_SEC_LO_SEC (i : Nat) : Fld := ⟨A.STEP_ABS_SEC_LO i, 31, 0⟩
def A.STEP_ABS_SEC_HI (i : Nat) : Nat := 0x1106C + 0x1000 * i
def F.STEP_ABS_SEC_HI_SEC (i : Nat) : Fld := ⟨A.STEP_ABS_SEC_HI i, 15, 0⟩
def A.JRNL_SEL (i : Nat) : Nat := 0x11100 + 0x1000 * i
def F.JRNL_SEL_INDEX (i : Nat) : Fld := ⟨A.JRNL_SEL i, 4, 0⟩
def A.JRNL_SEQ (i : Nat) : Nat := 0x11104 + 0x1000 * i
def F.JRNL_SEQ_SEQ (i : Nat) : Fld := ⟨A.JRNL_SEQ i, 31, 0⟩
def A.JRNL_EPOCH (i : Nat) : Nat := 0x11108 + 0x1000 * i
def F.JRNL_EPOCH_EPOCH (i : Nat) : Fld := ⟨A.JRNL_EPOCH i, 31, 0⟩
def A.JRNL_EPOCH_HI (i : Nat) : Nat := 0x1110C + 0x1000 * i
def F.JRNL_EPOCH_HI_EPOCH (i : Nat) : Fld := ⟨A.JRNL_EPOCH_HI i, 31, 0⟩
def A.JRNL_OFFSET (i w : Nat) : Nat := 0x11110 + 0x1000 * i + 4 * w
def F.JRNL_OFFSET_OFFSET (i w : Nat) : Fld := ⟨A.JRNL_OFFSET i w, 31, 0⟩
def A.JRNL_OFFSET_EXT (i : Nat) : Nat := 0x11120 + 0x1000 * i
def F.JRNL_OFFSET_EXT_EXT (i : Nat) : Fld := ⟨A.JRNL_OFFSET_EXT i, 31, 0⟩
def A.JRNL_OFFSET_EXT_HI (i : Nat) : Nat := 0x11124 + 0x1000 * i
def F.JRNL_OFFSET_EXT_HI_EXT (i : Nat) : Fld := ⟨A.JRNL_OFFSET_EXT_HI i, 23, 0⟩
def A.JRNL_INCR (i : Nat) : Nat := 0x11128 + 0x1000 * i
def F.JRNL_INCR_INCR (i : Nat) : Fld := ⟨A.JRNL_INCR i, 31, 0⟩
def A.JRNL_INCR_HI (i : Nat) : Nat := 0x1112C + 0x1000 * i
def F.JRNL_INCR_HI_INCR (i : Nat) : Fld := ⟨A.JRNL_INCR_HI i, 31, 0⟩
def A.JRNL_CAUSE (i : Nat) : Nat := 0x11130 + 0x1000 * i
def F.JRNL_CAUSE_CAUSE (i : Nat) : Fld := ⟨A.JRNL_CAUSE i, 7, 0⟩
def A.RF_STATUS : Nat := 0x20000
def F.RF_STATUS_WRITE_ERR : Fld := ⟨A.RF_STATUS, 0, 0⟩
def F.RF_STATUS_LIMIT_ERR : Fld := ⟨A.RF_STATUS, 2, 2⟩
def F.RF_STATUS_PRIV_ERR : Fld := ⟨A.RF_STATUS, 3, 3⟩
def A.OSC_AGE_RATE : Nat := 0x20010
def F.OSC_AGE_RATE_RATE : Fld := ⟨A.OSC_AGE_RATE, 31, 0⟩
def A.OSC_AGE_UNC : Nat := 0x20014
def F.OSC_AGE_UNC_A_U : Fld := ⟨A.OSC_AGE_UNC, 19, 0⟩
def A.OSC_INIT_UNC : Nat := 0x20018
def F.OSC_INIT_UNC_UNC : Fld := ⟨A.OSC_INIT_UNC, 27, 0⟩
def A.OSC_TEMP_BAND : Nat := 0x2001C
def F.OSC_TEMP_BAND_T_B : Fld := ⟨A.OSC_TEMP_BAND, 27, 0⟩
def A.SLOT_CFG (i : Nat) : Nat := 0x20100 + 0x40 * i
def F.SLOT_CFG_TYPE (i : Nat) : Fld := ⟨A.SLOT_CFG i, 3, 0⟩
def F.SLOT_CFG_BIND (i : Nat) : Fld := ⟨A.SLOT_CFG i, 15, 8⟩
def F.SLOT_CFG_NOM_KHZ (i : Nat) : Fld := ⟨A.SLOT_CFG i, 31, 16⟩
def A.SLOT_RANK (i : Nat) : Nat := 0x20104 + 0x40 * i
def F.SLOT_RANK_RANK_A (i : Nat) : Fld := ⟨A.SLOT_RANK i, 3, 0⟩
def F.SLOT_RANK_RANK_B (i : Nat) : Fld := ⟨A.SLOT_RANK i, 7, 4⟩
def A.SLOT_WTR (i : Nat) : Nat := 0x20108 + 0x40 * i
def F.SLOT_WTR_S (i : Nat) : Fld := ⟨A.SLOT_WTR i, 11, 0⟩
def A.SLOT_BAND (i : Nat) : Nat := 0x2010C + 0x40 * i
def F.SLOT_BAND_PPB (i : Nat) : Fld := ⟨A.SLOT_BAND i, 19, 0⟩
def A.SLOT_JUMP (i : Nat) : Nat := 0x20110 + 0x40 * i
def F.SLOT_JUMP_NS (i : Nat) : Fld := ⟨A.SLOT_JUMP i, 19, 0⟩
def A.SLOT_ACC (i : Nat) : Nat := 0x20114 + 0x40 * i
def F.SLOT_ACC_NS (i : Nat) : Fld := ⟨A.SLOT_ACC i, 19, 0⟩
def A.SLOT_COMP (i : Nat) : Nat := 0x20118 + 0x40 * i
def F.SLOT_COMP_COMP (i : Nat) : Fld := ⟨A.SLOT_COMP i, 31, 0⟩
def A.SLOT_COMP_HI (i : Nat) : Nat := 0x2011C + 0x40 * i
def F.SLOT_COMP_HI_COMP (i : Nat) : Fld := ⟨A.SLOT_COMP_HI i, 31, 0⟩
def A.SLOT_CMD (i : Nat) : Nat := 0x20120 + 0x40 * i
def F.SLOT_CMD_DISQ (i : Nat) : Fld := ⟨A.SLOT_CMD i, 0, 0⟩
def F.SLOT_CMD_RELEASE (i : Nat) : Fld := ⟨A.SLOT_CMD i, 1, 1⟩
def A.SLOT_STATE (i : Nat) : Nat := 0x20124 + 0x40 * i
def F.SLOT_STATE_STATE_A (i : Nat) : Fld := ⟨A.SLOT_STATE i, 2, 0⟩
def F.SLOT_STATE_REASON_A (i : Nat) : Fld := ⟨A.SLOT_STATE i, 6, 4⟩
def F.SLOT_STATE_STATE_B (i : Nat) : Fld := ⟨A.SLOT_STATE i, 10, 8⟩
def F.SLOT_STATE_REASON_B (i : Nat) : Fld := ⟨A.SLOT_STATE i, 14, 12⟩
def F.SLOT_STATE_JUMPED_A (i : Nat) : Fld := ⟨A.SLOT_STATE i, 16, 16⟩
def F.SLOT_STATE_JUMPED_B (i : Nat) : Fld := ⟨A.SLOT_STATE i, 17, 17⟩
def F.SLOT_STATE_DISAG_A (i : Nat) : Fld := ⟨A.SLOT_STATE i, 18, 18⟩
def F.SLOT_STATE_DISAG_B (i : Nat) : Fld := ⟨A.SLOT_STATE i, 19, 19⟩
def F.SLOT_STATE_SIG_VALID (i : Nat) : Fld := ⟨A.SLOT_STATE i, 20, 20⟩
def F.SLOT_STATE_CHANGED (i : Nat) : Fld := ⟨A.SLOT_STATE i, 31, 31⟩
def A.SLOT_WTR_REMAIN (i : Nat) : Nat := 0x20128 + 0x40 * i
def F.SLOT_WTR_REMAIN_A (i : Nat) : Fld := ⟨A.SLOT_WTR_REMAIN i, 11, 0⟩
def F.SLOT_WTR_REMAIN_B (i : Nat) : Fld := ⟨A.SLOT_WTR_REMAIN i, 27, 16⟩
def A.SLOT_FREQ (i : Nat) : Nat := 0x2012C + 0x40 * i
def F.SLOT_FREQ_Y (i : Nat) : Fld := ⟨A.SLOT_FREQ i, 31, 0⟩
def A.SLOT_PHASE_A (i : Nat) : Nat := 0x20130 + 0x40 * i
def F.SLOT_PHASE_A_PHASE (i : Nat) : Fld := ⟨A.SLOT_PHASE_A i, 31, 0⟩
def A.SLOT_PHASE_A_HI (i : Nat) : Nat := 0x20134 + 0x40 * i
def F.SLOT_PHASE_A_HI_PHASE (i : Nat) : Fld := ⟨A.SLOT_PHASE_A_HI i, 31, 0⟩
def A.SLOT_PHASE_B (i : Nat) : Nat := 0x20138 + 0x40 * i
def F.SLOT_PHASE_B_PHASE (i : Nat) : Fld := ⟨A.SLOT_PHASE_B i, 31, 0⟩
def A.SLOT_PHASE_B_HI (i : Nat) : Nat := 0x2013C + 0x40 * i
def F.SLOT_PHASE_B_HI_PHASE (i : Nat) : Fld := ⟨A.SLOT_PHASE_B_HI i, 31, 0⟩
def A.SEL_CTRL (i : Nat) : Nat := 0x21000 + 0x1000 * i
def F.SEL_CTRL_STEP_ON_RECOVER (i : Nat) : Fld := ⟨A.SEL_CTRL i, 0, 0⟩
def F.SEL_CTRL_HOLD_REQ (i : Nat) : Fld := ⟨A.SEL_CTRL i, 1, 1⟩
def A.SEL_STATUS (i : Nat) : Nat := 0x21004 + 0x1000 * i
def F.SEL_STATUS_STATE (i : Nat) : Fld := ⟨A.SEL_STATUS i, 2, 0⟩
def F.SEL_STATUS_FREQ_AIDED (i : Nat) : Fld := ⟨A.SEL_STATUS i, 3, 3⟩
def F.SEL_STATUS_SELECTED (i : Nat) : Fld := ⟨A.SEL_STATUS i, 7, 4⟩
def F.SEL_STATUS_SWITCH (i : Nat) : Fld := ⟨A.SEL_STATUS i, 9, 8⟩
def F.SEL_STATUS_TARGET (i : Nat) : Fld := ⟨A.SEL_STATUS i, 15, 12⟩
def F.SEL_STATUS_DONE (i : Nat) : Fld := ⟨A.SEL_STATUS i, 31, 31⟩
def A.PHASE_ACCEPT (i : Nat) : Nat := 0x21008 + 0x1000 * i
def F.PHASE_ACCEPT_NS (i : Nat) : Fld := ⟨A.PHASE_ACCEPT i, 19, 0⟩
def A.FREQ_AGREE (i : Nat) : Nat := 0x2100C + 0x1000 * i
def F.FREQ_AGREE_PPB (i : Nat) : Fld := ⟨A.FREQ_AGREE i, 15, 0⟩
def A.HOLD_LIMIT (i : Nat) : Nat := 0x21010 + 0x1000 * i
def F.HOLD_LIMIT_NS (i : Nat) : Fld := ⟨A.HOLD_LIMIT i, 23, 0⟩
def A.LOCK_WINDOW (i : Nat) : Nat := 0x21014 + 0x1000 * i
def F.LOCK_WINDOW_NS (i : Nat) : Fld := ⟨A.LOCK_WINDOW i, 19, 0⟩
def A.SERVO_BW (i : Nat) : Nat := 0x21018 + 0x1000 * i
def F.SERVO_BW_MHZ (i : Nat) : Fld := ⟨A.SERVO_BW i, 9, 0⟩
def A.HOLD_REMAIN (i : Nat) : Nat := 0x2101C + 0x1000 * i
def F.HOLD_REMAIN_S (i : Nat) : Fld := ⟨A.HOLD_REMAIN i, 31, 0⟩
def A.E_NOW (i : Nat) : Nat := 0x21020 + 0x1000 * i
def F.E_NOW_NS (i : Nat) : Fld := ⟨A.E_NOW i, 31, 0⟩
def A.E_RATE (i : Nat) : Nat := 0x21024 + 0x1000 * i
def F.E_RATE_PS_S (i : Nat) : Fld := ⟨A.E_RATE i, 31, 0⟩
def A.HOST_BOUND (i : Nat) : Nat := 0x21028 + 0x1000 * i
def F.HOST_BOUND_NS (i : Nat) : Fld := ⟨A.HOST_BOUND i, 31, 0⟩
def A.HOLD_FREQ (i : Nat) : Nat := 0x21030 + 0x1000 * i
def F.HOLD_FREQ_FREQ (i : Nat) : Fld := ⟨A.HOLD_FREQ i, 31, 0⟩
def A.HOLD_FREQ_HI (i : Nat) : Nat := 0x21034 + 0x1000 * i
def F.HOLD_FREQ_HI_FREQ (i : Nat) : Fld := ⟨A.HOLD_FREQ_HI i, 31, 0⟩
def A.STR_CFG (i : Nat) : Nat := 0x23000 + 0x80 * i
def F.STR_CFG_LINK (i : Nat) : Fld := ⟨A.STR_CFG i, 3, 0⟩
def F.STR_CFG_CONTEXT (i : Nat) : Fld := ⟨A.STR_CFG i, 15, 8⟩
def F.STR_CFG_P2P (i : Nat) : Fld := ⟨A.STR_CFG i, 16, 16⟩
def F.STR_CFG_UNICAST (i : Nat) : Fld := ⟨A.STR_CFG i, 17, 17⟩
def F.STR_CFG_SLOT (i : Nat) : Fld := ⟨A.STR_CFG i, 23, 20⟩
def F.STR_CFG_DOMAIN (i : Nat) : Fld := ⟨A.STR_CFG i, 31, 24⟩
def A.STR_MASTER (i : Nat) : Nat := 0x23008 + 0x80 * i
def F.STR_MASTER_ID (i : Nat) : Fld := ⟨A.STR_MASTER i, 31, 0⟩
def A.STR_MASTER_HI (i : Nat) : Nat := 0x2300C + 0x80 * i
def F.STR_MASTER_HI_ID (i : Nat) : Fld := ⟨A.STR_MASTER_HI i, 31, 0⟩
def A.STR_MASTER_PORT (i : Nat) : Nat := 0x23010 + 0x80 * i
def F.STR_MASTER_PORT_PORT (i : Nat) : Fld := ⟨A.STR_MASTER_PORT i, 15, 0⟩
def A.STR_ASYM (i : Nat) : Nat := 0x23018 + 0x80 * i
def F.STR_ASYM_ASYM (i : Nat) : Fld := ⟨A.STR_ASYM i, 31, 0⟩
def A.STR_ASYM_HI (i : Nat) : Nat := 0x2301C + 0x80 * i
def F.STR_ASYM_HI_ASYM (i : Nat) : Fld := ⟨A.STR_ASYM_HI i, 31, 0⟩
def A.STR_CLASS (i : Nat) : Nat := 0x23020 + 0x80 * i
def F.STR_CLASS_CLASS (i : Nat) : Fld := ⟨A.STR_CLASS i, 31, 0⟩
def A.STR_CLASS_HI (i : Nat) : Nat := 0x23024 + 0x80 * i
def F.STR_CLASS_HI_CLASS (i : Nat) : Fld := ⟨A.STR_CLASS_HI i, 31, 0⟩
def A.STR_REQ (i : Nat) : Nat := 0x23028 + 0x80 * i
def F.STR_REQ_LOG_DREQ (i : Nat) : Fld := ⟨A.STR_REQ i, 7, 0⟩
def F.STR_REQ_LOG_SYNC (i : Nat) : Fld := ⟨A.STR_REQ i, 15, 8⟩
def F.STR_REQ_LOG_ANN (i : Nat) : Fld := ⟨A.STR_REQ i, 23, 16⟩
def A.STR_STATUS (i : Nat) : Nat := 0x23030 + 0x80 * i
def F.STR_STATUS_VALID (i : Nat) : Fld := ⟨A.STR_STATUS i, 0, 0⟩
def F.STR_STATUS_TWO_STEP_SEEN (i : Nat) : Fld := ⟨A.STR_STATUS i, 1, 1⟩
def F.STR_STATUS_GM_CLASS (i : Nat) : Fld := ⟨A.STR_STATUS i, 15, 8⟩
def F.STR_STATUS_GM_CHANGE (i : Nat) : Fld := ⟨A.STR_STATUS i, 16, 16⟩
def A.STR_GM (i : Nat) : Nat := 0x23038 + 0x80 * i
def F.STR_GM_GM (i : Nat) : Fld := ⟨A.STR_GM i, 31, 0⟩
def A.STR_GM_HI (i : Nat) : Nat := 0x2303C + 0x80 * i
def F.STR_GM_HI_GM (i : Nat) : Fld := ⟨A.STR_GM_HI i, 31, 0⟩
def A.STR_DELAY (i : Nat) : Nat := 0x23040 + 0x80 * i
def F.STR_DELAY_D (i : Nat) : Fld := ⟨A.STR_DELAY i, 31, 0⟩
def A.STR_DELAY_HI (i : Nat) : Nat := 0x23044 + 0x80 * i
def F.STR_DELAY_HI_D (i : Nat) : Fld := ⟨A.STR_DELAY_HI i, 31, 0⟩
def A.STR_OFS (i : Nat) : Nat := 0x23048 + 0x80 * i
def F.STR_OFS_OFS (i : Nat) : Fld := ⟨A.STR_OFS i, 31, 0⟩
def A.STR_OFS_HI (i : Nat) : Nat := 0x2304C + 0x80 * i
def F.STR_OFS_HI_OFS (i : Nat) : Fld := ⟨A.STR_OFS_HI i, 31, 0⟩
def A.TM_STATUS : Nat := 0x30000
def F.TM_STATUS_WRITE_ERR : Fld := ⟨A.TM_STATUS, 0, 0⟩
def F.TM_STATUS_LIMIT_ERR : Fld := ⟨A.TM_STATUS, 2, 2⟩
def A.IN_CFG (i : Nat) : Nat := 0x30100 + 0x100 * i
def F.IN_CFG_STD (i : Nat) : Fld := ⟨A.IN_CFG i, 1, 0⟩
def F.IN_CFG_EDGE (i : Nat) : Fld := ⟨A.IN_CFG i, 3, 2⟩
def F.IN_CFG_ROLE (i : Nat) : Fld := ⟨A.IN_CFG i, 5, 4⟩
def F.IN_CFG_DIVIDE (i : Nat) : Fld := ⟨A.IN_CFG i, 11, 8⟩
def A.IN_FILT (i : Nat) : Nat := 0x30104 + 0x100 * i
def F.IN_FILT_FILT (i : Nat) : Fld := ⟨A.IN_FILT i, 9, 0⟩
def F.IN_FILT_BOUNCE (i : Nat) : Fld := ⟨A.IN_FILT i, 31, 16⟩
def A.IN_COMP (i : Nat) : Nat := 0x30108 + 0x100 * i
def F.IN_COMP_COMP (i : Nat) : Fld := ⟨A.IN_COMP i, 31, 0⟩
def A.IN_CTRL (i : Nat) : Nat := 0x3010C + 0x100 * i
def F.IN_CTRL_ENABLE (i : Nat) : Fld := ⟨A.IN_CTRL i, 0, 0⟩
def F.IN_CTRL_STATE (i : Nat) : Fld := ⟨A.IN_CTRL i, 2, 1⟩
def F.IN_CTRL_LATCHED (i : Nat) : Fld := ⟨A.IN_CTRL i, 3, 3⟩
def A.IN_STATUS (i : Nat) : Nat := 0x30110 + 0x100 * i
def F.IN_STATUS_LINE (i : Nat) : Fld := ⟨A.IN_STATUS i, 0, 0⟩
def F.IN_STATUS_CAL_WARN (i : Nat) : Fld := ⟨A.IN_STATUS i, 1, 1⟩
def F.IN_STATUS_CAL_FAIL (i : Nat) : Fld := ⟨A.IN_STATUS i, 2, 2⟩
def F.IN_STATUS_LEVEL (i : Nat) : Fld := ⟨A.IN_STATUS i, 3, 3⟩
def F.IN_STATUS_FIFO_LEVEL (i : Nat) : Fld := ⟨A.IN_STATUS i, 26, 16⟩
def A.MEAS_CFG (i : Nat) : Nat := 0x30120 + 0x100 * i
def F.MEAS_CFG_MODE (i : Nat) : Fld := ⟨A.MEAS_CFG i, 1, 0⟩
def F.MEAS_CFG_REF (i : Nat) : Fld := ⟨A.MEAS_CFG i, 3, 2⟩
def F.MEAS_CFG_UTC (i : Nat) : Fld := ⟨A.MEAS_CFG i, 4, 4⟩
def F.MEAS_CFG_START_SEL (i : Nat) : Fld := ⟨A.MEAS_CFG i, 10, 8⟩
def F.MEAS_CFG_GATE_SEL (i : Nat) : Fld := ⟨A.MEAS_CFG i, 15, 12⟩
def F.MEAS_CFG_ALIGN (i : Nat) : Fld := ⟨A.MEAS_CFG i, 16, 16⟩
def F.MEAS_CFG_GATE_KIND (i : Nat) : Fld := ⟨A.MEAS_CFG i, 17, 17⟩
def A.MEAS_GATE (i : Nat) : Nat := 0x30124 + 0x100 * i
def F.MEAS_GATE_MS (i : Nat) : Fld := ⟨A.MEAS_GATE i, 19, 0⟩
def A.MEAS_N (i : Nat) : Nat := 0x30128 + 0x100 * i
def F.MEAS_N_N (i : Nat) : Fld := ⟨A.MEAS_N i, 24, 0⟩
def A.MEAS_NOM (i : Nat) : Nat := 0x3012C + 0x100 * i
def F.MEAS_NOM_HZ (i : Nat) : Fld := ⟨A.MEAS_NOM i, 31, 0⟩
def A.MEAS_RESID (i : Nat) : Nat := 0x30130 + 0x100 * i
def F.MEAS_RESID_PS (i : Nat) : Fld := ⟨A.MEAS_RESID i, 15, 0⟩
def A.MEAS_TIMEOUT (i : Nat) : Nat := 0x30134 + 0x100 * i
def F.MEAS_TIMEOUT_US (i : Nat) : Fld := ⟨A.MEAS_TIMEOUT i, 31, 0⟩
def A.MEAS_CTRL (i : Nat) : Nat := 0x30138 + 0x100 * i
def F.MEAS_CTRL_ARM (i : Nat) : Fld := ⟨A.MEAS_CTRL i, 0, 0⟩
def F.MEAS_CTRL_STOP (i : Nat) : Fld := ⟨A.MEAS_CTRL i, 1, 1⟩
def F.MEAS_CTRL_CONT (i : Nat) : Fld := ⟨A.MEAS_CTRL i, 2, 2⟩
def F.MEAS_CTRL_FLUSH (i : Nat) : Fld := ⟨A.MEAS_CTRL i, 3, 3⟩
def A.MEAS_STATUS (i : Nat) : Nat := 0x3013C + 0x100 * i
def F.MEAS_STATUS_ARMED (i : Nat) : Fld := ⟨A.MEAS_STATUS i, 0, 0⟩
def F.MEAS_STATUS_GATE_OPEN (i : Nat) : Fld := ⟨A.MEAS_STATUS i, 1, 1⟩
def F.MEAS_STATUS_START_ARMED (i : Nat) : Fld := ⟨A.MEAS_STATUS i, 2, 2⟩
def F.MEAS_STATUS_LAST_CODE (i : Nat) : Fld := ⟨A.MEAS_STATUS i, 7, 4⟩
def F.MEAS_STATUS_RES_LEVEL (i : Nat) : Fld := ⟨A.MEAS_STATUS i, 12, 8⟩
def F.MEAS_STATUS_FIFO_OVF (i : Nat) : Fld := ⟨A.MEAS_STATUS i, 16, 16⟩
def F.MEAS_STATUS_RES_OVF (i : Nat) : Fld := ⟨A.MEAS_STATUS i, 17, 17⟩
def F.MEAS_STATUS_DONE (i : Nat) : Fld := ⟨A.MEAS_STATUS i, 31, 31⟩
def A.GLITCH_CNT (i : Nat) : Nat := 0x30140 + 0x100 * i
def F.GLITCH_CNT_CNT (i : Nat) : Fld := ⟨A.GLITCH_CNT i, 31, 0⟩
def A.DEAD_CNT (i : Nat) : Nat := 0x30144 + 0x100 * i
def F.DEAD_CNT_CNT (i : Nat) : Fld := ⟨A.DEAD_CNT i, 31, 0⟩
def A.ORPHAN_CNT (i : Nat) : Nat := 0x30148 + 0x100 * i
def F.ORPHAN_CNT_CNT (i : Nat) : Fld := ⟨A.ORPHAN_CNT i, 31, 0⟩
def A.NOSTOP_CNT (i : Nat) : Nat := 0x3014C + 0x100 * i
def F.NOSTOP_CNT_CNT (i : Nat) : Fld := ⟨A.NOSTOP_CNT i, 31, 0⟩
def A.FIFO_DROP (i : Nat) : Nat := 0x30150 + 0x100 * i
def F.FIFO_DROP_CNT (i : Nat) : Fld := ⟨A.FIFO_DROP i, 31, 0⟩
def A.RES_DROP (i : Nat) : Nat := 0x30154 + 0x100 * i
def F.RES_DROP_CNT (i : Nat) : Fld := ⟨A.RES_DROP i, 31, 0⟩
def A.CAL_SPAN (i : Nat) : Nat := 0x30158 + 0x100 * i
def F.CAL_SPAN_SPAN0 (i : Nat) : Fld := ⟨A.CAL_SPAN i, 9, 0⟩
def F.CAL_SPAN_SPAN1 (i : Nat) : Fld := ⟨A.CAL_SPAN i, 25, 16⟩
def A.TS_W (i w : Nat) : Nat := 0x30180 + 0x100 * i + 4 * w
def F.TS_W_W (i w : Nat) : Fld := ⟨A.TS_W i w, 31, 0⟩
def A.RES_W (i w : Nat) : Nat := 0x301C0 + 0x100 * i + 4 * w
def F.RES_W_W (i w : Nat) : Fld := ⟨A.RES_W i w, 31, 0⟩
def A.GN_STATUS : Nat := 0x40000
def F.GN_STATUS_WRITE_ERR : Fld := ⟨A.GN_STATUS, 0, 0⟩
def F.GN_STATUS_LIMIT_ERR : Fld := ⟨A.GN_STATUS, 2, 2⟩
def A.GN_CTRL : Nat := 0x40010
def F.GN_CTRL_ENABLE : Fld := ⟨A.GN_CTRL, 0, 0⟩
def F.GN_CTRL_STATE : Fld := ⟨A.GN_CTRL, 2, 1⟩
def F.GN_CTRL_LATCHED : Fld := ⟨A.GN_CTRL, 3, 3⟩
def F.GN_CTRL_CONST : Fld := ⟨A.GN_CTRL, 6, 4⟩
def F.GN_CTRL_BANDS : Fld := ⟨A.GN_CTRL, 8, 7⟩
def F.GN_CTRL_HOLD_MODE : Fld := ⟨A.GN_CTRL, 10, 9⟩
def F.GN_CTRL_TIMESYS : Fld := ⟨A.GN_CTRL, 12, 11⟩
def F.GN_CTRL_STBY_DUTY : Fld := ⟨A.GN_CTRL, 13, 13⟩
def F.GN_CTRL_SUSPECT_CLR : Fld := ⟨A.GN_CTRL, 14, 14⟩
def F.GN_CTRL_SURVEY_RESTART : Fld := ⟨A.GN_CTRL, 15, 15⟩
def A.GN_STATE : Nat := 0x40014
def F.GN_STATE_SOLN : Fld := ⟨A.GN_STATE, 1, 0⟩
def F.GN_STATE_SHORT_HOLD : Fld := ⟨A.GN_STATE, 2, 2⟩
def F.GN_STATE_SUSPECT : Fld := ⟨A.GN_STATE, 3, 3⟩
def F.GN_STATE_BAND0_UP : Fld := ⟨A.GN_STATE, 4, 4⟩
def F.GN_STATE_BAND1_UP : Fld := ⟨A.GN_STATE, 5, 5⟩
def F.GN_STATE_START_KIND : Fld := ⟨A.GN_STATE, 7, 6⟩
def F.GN_STATE_NSAT_USED : Fld := ⟨A.GN_STATE, 15, 8⟩
def F.GN_STATE_TTFF : Fld := ⟨A.GN_STATE, 31, 16⟩
def A.GN_SUSPECT : Nat := 0x40018
def F.GN_SUSPECT_FAILING : Fld := ⟨A.GN_SUSPECT, 4, 0⟩
def F.GN_SUSPECT_CAUSE : Fld := ⟨A.GN_SUSPECT, 12, 8⟩
def F.GN_SUSPECT_CHANGED : Fld := ⟨A.GN_SUSPECT, 31, 31⟩
def A.GN_CHK_CFG : Nat := 0x4001C
def F.GN_CHK_CFG_ENABLE : Fld := ⟨A.GN_CHK_CFG, 4, 0⟩
def F.GN_CHK_CFG_SCALE : Fld := ⟨A.GN_CHK_CFG, 8, 8⟩
def F.GN_CHK_CFG_PERSIST : Fld := ⟨A.GN_CHK_CFG, 15, 12⟩
def F.GN_CHK_CFG_CLEAR : Fld := ⟨A.GN_CHK_CFG, 31, 16⟩
def A.GN_CHK_CN0 : Nat := 0x40020
def F.GN_CHK_CN0_STD : Fld := ⟨A.GN_CHK_CN0, 7, 0⟩
def F.GN_CHK_CN0_MEAN_MIN : Fld := ⟨A.GN_CHK_CN0, 15, 8⟩
def A.GN_CHK_TIME : Nat := 0x40024
def F.GN_CHK_TIME_NS : Fld := ⟨A.GN_CHK_TIME, 15, 0⟩
def A.GN_CHK_BAND : Nat := 0x40028
def F.GN_CHK_BAND_NS : Fld := ⟨A.GN_CHK_BAND, 15, 0⟩
def A.GN_CHK_RESID : Nat := 0x4002C
def F.GN_CHK_RESID_NS : Fld := ⟨A.GN_CHK_RESID, 15, 0⟩
def A.GN_CHK_POWER : Nat := 0x40030
def F.GN_CHK_POWER_DB : Fld := ⟨A.GN_CHK_POWER, 7, 0⟩
def A.GN_HOLD : Nat := 0x40034
def F.GN_HOLD_S : Fld := ⟨A.GN_HOLD, 5, 0⟩
def A.GN_SURVEY : Nat := 0x40038
def F.GN_SURVEY_S : Fld := ⟨A.GN_SURVEY, 15, 0⟩
def A.GN_CABLE : Nat := 0x40040
def F.GN_CABLE_DELAY : Fld := ⟨A.GN_CABLE, 31, 0⟩
def A.GN_CABLE_HI : Nat := 0x40044
def F.GN_CABLE_HI_DELAY : Fld := ⟨A.GN_CABLE_HI, 31, 0⟩
def A.GN_DUTY : Nat := 0x40048
def F.GN_DUTY_PERIOD_S : Fld := ⟨A.GN_DUTY, 15, 0⟩
def F.GN_DUTY_ON_S : Fld := ⟨A.GN_DUTY, 31, 16⟩
def A.GN_POS_X : Nat := 0x40200
def F.GN_POS_X_POS : Fld := ⟨A.GN_POS_X, 31, 0⟩
def A.GN_POS_X_HI : Nat := 0x40204
def F.GN_POS_X_HI_POS : Fld := ⟨A.GN_POS_X_HI, 31, 0⟩
def A.GN_POS_Y : Nat := 0x40208
def F.GN_POS_Y_POS : Fld := ⟨A.GN_POS_Y, 31, 0⟩
def A.GN_POS_Y_HI : Nat := 0x4020C
def F.GN_POS_Y_HI_POS : Fld := ⟨A.GN_POS_Y_HI, 31, 0⟩
def A.GN_POS_Z : Nat := 0x40210
def F.GN_POS_Z_POS : Fld := ⟨A.GN_POS_Z, 31, 0⟩
def A.GN_POS_Z_HI : Nat := 0x40214
def F.GN_POS_Z_HI_POS : Fld := ⟨A.GN_POS_Z_HI, 31, 0⟩
def A.GN_POS_UNC : Nat := 0x40218
def F.GN_POS_UNC_UNC : Fld := ⟨A.GN_POS_UNC, 23, 0⟩
def A.GN_POS_CMD : Nat := 0x4021C
def F.GN_POS_CMD_SET : Fld := ⟨A.GN_POS_CMD, 0, 0⟩
def A.SOL_RAW : Nat := 0x40280
def F.SOL_RAW_FRAC : Fld := ⟨A.SOL_RAW, 15, 0⟩
def A.SOL_RAW_LO : Nat := 0x40284
def F.SOL_RAW_LO_RAW : Fld := ⟨A.SOL_RAW_LO, 31, 0⟩
def A.SOL_RAW_HI : Nat := 0x40288
def F.SOL_RAW_HI_RAW : Fld := ⟨A.SOL_RAW_HI, 31, 0⟩
def A.SOL_TIME (w : Nat) : Nat := 0x40290 + 4 * w
def F.SOL_TIME_TIME (w : Nat) : Fld := ⟨A.SOL_TIME w, 31, 0⟩
def A.SOL_DRIFT : Nat := 0x402A0
def F.SOL_DRIFT_D : Fld := ⟨A.SOL_DRIFT, 31, 0⟩
def A.SOL_UNC : Nat := 0x402A4
def F.SOL_UNC_UNC : Fld := ⟨A.SOL_UNC, 31, 0⟩
def A.CH_SEL : Nat := 0x40300
def F.CH_SEL_CH : Fld := ⟨A.CH_SEL, 6, 0⟩
def A.CH_INFO : Nat := 0x40304
def F.CH_INFO_STATE : Fld := ⟨A.CH_INFO, 1, 0⟩
def F.CH_INFO_SIGNAL : Fld := ⟨A.CH_INFO, 4, 2⟩
def F.CH_INFO_SV : Fld := ⟨A.CH_INFO, 15, 8⟩
def F.CH_INFO_CN0 : Fld := ⟨A.CH_INFO, 23, 16⟩
def F.CH_INFO_USED : Fld := ⟨A.CH_INFO, 24, 24⟩
def F.CH_INFO_MP : Fld := ⟨A.CH_INFO, 25, 25⟩
def A.CH_MP : Nat := 0x40308
def F.CH_MP_DELAY : Fld := ⟨A.CH_MP, 15, 0⟩
def F.CH_MP_RATIO : Fld := ⟨A.CH_MP, 23, 16⟩
def A.HOT_STATUS : Nat := 0x40400
def F.HOT_STATUS_VALID : Fld := ⟨A.HOT_STATUS, 0, 0⟩
def F.HOT_STATUS_COPY : Fld := ⟨A.HOT_STATUS, 1, 1⟩
def F.HOT_STATUS_EPH : Fld := ⟨A.HOT_STATUS, 15, 8⟩
def F.HOT_STATUS_AGE_MIN : Fld := ⟨A.HOT_STATUS, 31, 16⟩
def A.HOT_CMD : Nat := 0x40404
def F.HOT_CMD_SAVE : Fld := ⟨A.HOT_CMD, 0, 0⟩
def F.HOT_CMD_ERASE : Fld := ⟨A.HOT_CMD, 1, 1⟩
def A.IF_CFG (i : Nat) : Nat := 0x40100 + 0x80 * i
def F.IF_CFG_IF_KHZ (i : Nat) : Fld := ⟨A.IF_CFG i, 15, 0⟩
def F.IF_CFG_Q_INV (i : Nat) : Fld := ⟨A.IF_CFG i, 16, 16⟩
def A.AGC_CFG (i : Nat) : Nat := 0x40104 + 0x80 * i
def F.AGC_CFG_TARGET (i : Nat) : Fld := ⟨A.AGC_CFG i, 11, 0⟩
def F.AGC_CFG_SLOPE (i : Nat) : Fld := ⟨A.AGC_CFG i, 31, 16⟩
def A.AGC_STATUS (i : Nat) : Nat := 0x40108 + 0x80 * i
def F.AGC_STATUS_CODE (i : Nat) : Fld := ⟨A.AGC_STATUS i, 11, 0⟩
def F.AGC_STATUS_RMS (i : Nat) : Fld := ⟨A.AGC_STATUS i, 31, 16⟩
def A.JAM (i : Nat) : Nat := 0x4010C + 0x80 * i
def F.JAM_JN (i : Nat) : Fld := ⟨A.JAM i, 7, 0⟩
def F.JAM_CAL_VALID (i : Nat) : Fld := ⟨A.JAM i, 8, 8⟩
def F.JAM_CAL (i : Nat) : Fld := ⟨A.JAM i, 9, 9⟩
def F.JAM_JN_THR (i : Nat) : Fld := ⟨A.JAM i, 23, 16⟩
def F.JAM_JAMMED (i : Nat) : Fld := ⟨A.JAM i, 24, 24⟩
def A.RF_DELAY (i : Nat) : Nat := 0x40110 + 0x80 * i
def F.RF_DELAY_DELAY (i : Nat) : Fld := ⟨A.RF_DELAY i, 31, 0⟩
def A.RF_DELAY_HI (i : Nat) : Nat := 0x40114 + 0x80 * i
def F.RF_DELAY_HI_DELAY (i : Nat) : Fld := ⟨A.RF_DELAY_HI i, 31, 0⟩
def A.NOTCH_CFG (i : Nat) : Nat := 0x40118 + 0x80 * i
def F.NOTCH_CFG_ENABLE (i : Nat) : Fld := ⟨A.NOTCH_CFG i, 3, 0⟩
def F.NOTCH_CFG_WIDTH (i : Nat) : Fld := ⟨A.NOTCH_CFG i, 5, 4⟩
def F.NOTCH_CFG_THR (i : Nat) : Fld := ⟨A.NOTCH_CFG i, 15, 8⟩
def A.NOTCH (i w : Nat) : Nat := 0x40120 + 0x80 * i + 4 * w
def F.NOTCH_FREQ (i w : Nat) : Fld := ⟨A.NOTCH i w, 23, 0⟩
def F.NOTCH_DEPTH (i w : Nat) : Fld := ⟨A.NOTCH i w, 30, 24⟩
def F.NOTCH_ACTIVE (i w : Nat) : Fld := ⟨A.NOTCH i w, 31, 31⟩
def A.CK_STATUS : Nat := 0x50000
def F.CK_STATUS_WRITE_ERR : Fld := ⟨A.CK_STATUS, 0, 0⟩
def F.CK_STATUS_GUARD_FAIL : Fld := ⟨A.CK_STATUS, 1, 1⟩
def F.CK_STATUS_LIMIT_ERR : Fld := ⟨A.CK_STATUS, 2, 2⟩
def A.CK_GUARD : Nat := 0x50004
def F.CK_GUARD_ARM : Fld := ⟨A.CK_GUARD, 31, 0⟩
def A.OSC_STATUS : Nat := 0x50010
def F.OSC_STATUS_PRESENT : Fld := ⟨A.OSC_STATUS, 0, 0⟩
def F.OSC_STATUS_SRC : Fld := ⟨A.OSC_STATUS, 1, 1⟩
def F.OSC_STATUS_FREQ : Fld := ⟨A.OSC_STATUS, 3, 2⟩
def F.OSC_STATUS_AON_RC : Fld := ⟨A.OSC_STATUS, 4, 4⟩
def F.OSC_STATUS_LOSS : Fld := ⟨A.OSC_STATUS, 16, 16⟩
def A.PLL_STATUS (i : Nat) : Nat := 0x50100 + 0x20 * i
def F.PLL_STATUS_LOCKED (i : Nat) : Fld := ⟨A.PLL_STATUS i, 0, 0⟩
def F.PLL_STATUS_COAST (i : Nat) : Fld := ⟨A.PLL_STATUS i, 1, 1⟩
def F.PLL_STATUS_LOSS_REF (i : Nat) : Fld := ⟨A.PLL_STATUS i, 2, 2⟩
def F.PLL_STATUS_SSC_ACTIVE (i : Nat) : Fld := ⟨A.PLL_STATUS i, 3, 3⟩
def F.PLL_STATUS_FALLBACK (i : Nat) : Fld := ⟨A.PLL_STATUS i, 4, 4⟩
def F.PLL_STATUS_GOOD_WIN (i : Nat) : Fld := ⟨A.PLL_STATUS i, 11, 8⟩
def F.PLL_STATUS_UNLOCK (i : Nat) : Fld := ⟨A.PLL_STATUS i, 16, 16⟩
def F.PLL_STATUS_REF_LOST (i : Nat) : Fld := ⟨A.PLL_STATUS i, 17, 17⟩
def F.PLL_STATUS_FB_ENTERED (i : Nat) : Fld := ⟨A.PLL_STATUS i, 18, 18⟩
def A.PLL_TOL (i : Nat) : Nat := 0x50104 + 0x20 * i
def F.PLL_TOL_LOCK_PPM (i : Nat) : Fld := ⟨A.PLL_TOL i, 9, 0⟩
def F.PLL_TOL_UNLOCK_PPM (i : Nat) : Fld := ⟨A.PLL_TOL i, 25, 16⟩
def A.PLL_SSC (i : Nat) : Nat := 0x50108 + 0x20 * i
def F.PLL_SSC_MODE (i : Nat) : Fld := ⟨A.PLL_SSC i, 1, 0⟩
def F.PLL_SSC_DEPTH (i : Nat) : Fld := ⟨A.PLL_SSC i, 8, 4⟩
def A.PLL_DEV (i : Nat) : Nat := 0x5010C + 0x20 * i
def F.PLL_DEV_PPM (i : Nat) : Fld := ⟨A.PLL_DEV i, 31, 0⟩
def A.PLL_UNLOCKS (i : Nat) : Nat := 0x50110 + 0x20 * i
def F.PLL_UNLOCKS_COUNT (i : Nat) : Fld := ⟨A.PLL_UNLOCKS i, 15, 0⟩
def A.FRAC_CTRL (i : Nat) : Nat := 0x50200 + 0x10 * i
def F.FRAC_CTRL_FOLLOW (i : Nat) : Fld := ⟨A.FRAC_CTRL i, 1, 0⟩
def A.FRAC_FREQ (i : Nat) : Nat := 0x50204 + 0x10 * i
def F.FRAC_FREQ_FREQ (i : Nat) : Fld := ⟨A.FRAC_FREQ i, 31, 0⟩
def A.FRAC_STATUS (i : Nat) : Nat := 0x50208 + 0x10 * i
def F.FRAC_STATUS_COAST (i : Nat) : Fld := ⟨A.FRAC_STATUS i, 0, 0⟩
def F.FRAC_STATUS_RAMPING (i : Nat) : Fld := ⟨A.FRAC_STATUS i, 1, 1⟩
def A.OPLL_CFG (i : Nat) : Nat := 0x50300 + 0x40 * i
def F.OPLL_CFG_SCALE (i : Nat) : Fld := ⟨A.OPLL_CFG i, 1, 0⟩
def F.OPLL_CFG_STEP_MODE (i : Nat) : Fld := ⟨A.OPLL_CFG i, 2, 2⟩
def A.OPLL_STATUS (i : Nat) : Nat := 0x50304 + 0x40 * i
def F.OPLL_STATUS_ALIGNED (i : Nat) : Fld := ⟨A.OPLL_STATUS i, 0, 0⟩
def F.OPLL_STATUS_MOVING (i : Nat) : Fld := ⟨A.OPLL_STATUS i, 1, 1⟩
def F.OPLL_STATUS_REALIGN_WAIT (i : Nat) : Fld := ⟨A.OPLL_STATUS i, 2, 2⟩
def F.OPLL_STATUS_SCALE_UNSET (i : Nat) : Fld := ⟨A.OPLL_STATUS i, 3, 3⟩
def F.OPLL_STATUS_LAST_CODE (i : Nat) : Fld := ⟨A.OPLL_STATUS i, 7, 4⟩
def F.OPLL_STATUS_DONE (i : Nat) : Fld := ⟨A.OPLL_STATUS i, 31, 31⟩
def A.OPLL_PSTEP (i : Nat) : Nat := 0x50308 + 0x40 * i
def F.OPLL_PSTEP_STEP (i : Nat) : Fld := ⟨A.OPLL_PSTEP i, 31, 0⟩
def A.OPLL_OFS (i : Nat) : Nat := 0x5030C + 0x40 * i
def F.OPLL_OFS_OFS (i : Nat) : Fld := ⟨A.OPLL_OFS i, 31, 0⟩
def A.OPLL_REMAIN (i : Nat) : Nat := 0x50310 + 0x40 * i
def F.OPLL_REMAIN_REMAIN (i : Nat) : Fld := ⟨A.OPLL_REMAIN i, 31, 0⟩
def A.OPLL_REMAIN_HI (i : Nat) : Nat := 0x50314 + 0x40 * i
def F.OPLL_REMAIN_HI_REMAIN (i : Nat) : Fld := ⟨A.OPLL_REMAIN_HI i, 31, 0⟩
def A.OUT_CFG (i : Nat) : Nat := 0x50400 + 0x40 * i
def F.OUT_CFG_TYPE (i : Nat) : Fld := ⟨A.OUT_CFG i, 1, 0⟩
def F.OUT_CFG_SRC (i : Nat) : Fld := ⟨A.OUT_CFG i, 2, 2⟩
def F.OUT_CFG_STD (i : Nat) : Fld := ⟨A.OUT_CFG i, 5, 4⟩
def F.OUT_CFG_POL (i : Nat) : Fld := ⟨A.OUT_CFG i, 6, 6⟩
def F.OUT_CFG_OFF_Z (i : Nat) : Fld := ⟨A.OUT_CFG i, 7, 7⟩
def A.OUT_CTRL (i : Nat) : Nat := 0x50404 + 0x40 * i
def F.OUT_CTRL_ENABLE (i : Nat) : Fld := ⟨A.OUT_CTRL i, 0, 0⟩
def F.OUT_CTRL_STATE (i : Nat) : Fld := ⟨A.OUT_CTRL i, 2, 1⟩
def F.OUT_CTRL_LATCHED (i : Nat) : Fld := ⟨A.OUT_CTRL i, 3, 3⟩
def A.OUT_WIDTH (i : Nat) : Nat := 0x50408 + 0x40 * i
def F.OUT_WIDTH_US (i : Nat) : Fld := ⟨A.OUT_WIDTH i, 18, 0⟩
def A.OUT_FREQ (i : Nat) : Nat := 0x5040C + 0x40 * i
def F.OUT_FREQ_HZ (i : Nat) : Fld := ⟨A.OUT_FREQ i, 23, 0⟩
def A.OUT_DELAY (i : Nat) : Nat := 0x50410 + 0x40 * i
def F.OUT_DELAY_PS (i : Nat) : Fld := ⟨A.OUT_DELAY i, 31, 0⟩
def A.OUT_IRIG (i : Nat) : Nat := 0x50414 + 0x40 * i
def F.OUT_IRIG_CODE (i : Nat) : Fld := ⟨A.OUT_IRIG i, 2, 0⟩
def F.OUT_IRIG_EXT (i : Nat) : Fld := ⟨A.OUT_IRIG i, 3, 3⟩
def F.OUT_IRIG_TIMEBASE (i : Nat) : Fld := ⟨A.OUT_IRIG i, 4, 4⟩
def F.OUT_IRIG_LOCAL_OFS (i : Nat) : Fld := ⟨A.OUT_IRIG i, 14, 8⟩
def F.OUT_IRIG_DSP (i : Nat) : Fld := ⟨A.OUT_IRIG i, 16, 16⟩
def F.OUT_IRIG_DST (i : Nat) : Fld := ⟨A.OUT_IRIG i, 17, 17⟩
def A.OUT_IRIG_CF (i : Nat) : Nat := 0x50418 + 0x40 * i
def F.OUT_IRIG_CF_CF (i : Nat) : Fld := ⟨A.OUT_IRIG_CF i, 26, 0⟩
def A.OUT_STATUS (i : Nat) : Nat := 0x5041C + 0x40 * i
def F.OUT_STATUS_STAGED (i : Nat) : Fld := ⟨A.OUT_STATUS i, 0, 0⟩
def F.OUT_STATUS_COARSE (i : Nat) : Fld := ⟨A.OUT_STATUS i, 1, 1⟩
def F.OUT_STATUS_TQ (i : Nat) : Fld := ⟨A.OUT_STATUS i, 7, 4⟩
def F.OUT_STATUS_CTQ (i : Nat) : Fld := ⟨A.OUT_STATUS i, 10, 8⟩
def A.BN_STATUS : Nat := 0x60000
def F.BN_STATUS_WRITE_ERR : Fld := ⟨A.BN_STATUS, 0, 0⟩
def F.BN_STATUS_LIMIT_ERR : Fld := ⟨A.BN_STATUS, 2, 2⟩
def A.BN_CFG : Nat := 0x60010
def F.BN_CFG_SLOT_LEN : Fld := ⟨A.BN_CFG, 2, 0⟩
def A.BN_CTRL : Nat := 0x60014
def F.BN_CTRL_ENABLE : Fld := ⟨A.BN_CTRL, 0, 0⟩
def F.BN_CTRL_STATE : Fld := ⟨A.BN_CTRL, 2, 1⟩
def F.BN_CTRL_LATCHED : Fld := ⟨A.BN_CTRL, 3, 3⟩
def F.BN_CTRL_ABORT : Fld := ⟨A.BN_CTRL, 4, 4⟩
def A.BN_OP : Nat := 0x60018
def F.BN_OP_BUSY : Fld := ⟨A.BN_OP, 0, 0⟩
def F.BN_OP_WIPING : Fld := ⟨A.BN_OP, 1, 1⟩
def F.BN_OP_OPCODE : Fld := ⟨A.BN_OP, 15, 8⟩
def F.BN_OP_LAST_CODE : Fld := ⟨A.BN_OP, 23, 16⟩
def F.BN_OP_DONE : Fld := ⟨A.BN_OP, 31, 31⟩
def A.BN_SLOTS : Nat := 0x6001C
def F.BN_SLOTS_COUNT : Fld := ⟨A.BN_SLOTS, 10, 0⟩
def A.KS_ALERT : Nat := 0x60100
def F.KS_ALERT_UNWRAP : Fld := ⟨A.KS_ALERT, 0, 0⟩
def F.KS_ALERT_PERSIST_LOST : Fld := ⟨A.KS_ALERT, 1, 1⟩
def F.KS_ALERT_GLITCH : Fld := ⟨A.KS_ALERT, 2, 2⟩
def F.KS_ALERT_DEBUG : Fld := ⟨A.KS_ALERT, 3, 3⟩
def A.KS_SLOT (w : Nat) : Nat := 0x60200 + 4 * w
def F.KS_SLOT_TYPE (w : Nat) : Fld := ⟨A.KS_SLOT w, 3, 0⟩
def F.KS_SLOT_POLICY (w : Nat) : Fld := ⟨A.KS_SLOT w, 13, 8⟩
def F.KS_SLOT_NTS_IN_USE (w : Nat) : Fld := ⟨A.KS_SLOT w, 16, 16⟩
def A.FUSE_VENDOR_HASH (w : Nat) : Nat := 0x60400 + 4 * w
def F.FUSE_VENDOR_HASH_W (w : Nat) : Fld := ⟨A.FUSE_VENDOR_HASH w, 31, 0⟩
def A.FUSE_CUSTOMER_HASH (w : Nat) : Nat := 0x60440 + 4 * w
def F.FUSE_CUSTOMER_HASH_W (w : Nat) : Fld := ⟨A.FUSE_CUSTOMER_HASH w, 31, 0⟩
def A.FUSE_MIN_GEN (w : Nat) : Nat := 0x60480 + 4 * w
def F.FUSE_MIN_GEN_W (w : Nat) : Fld := ⟨A.FUSE_MIN_GEN w, 31, 0⟩
def A.FUSE_STATE : Nat := 0x604A0
def F.FUSE_STATE_DEBUG_LOCK : Fld := ⟨A.FUSE_STATE, 1, 0⟩
def F.FUSE_STATE_CUST_BLANK : Fld := ⟨A.FUSE_STATE, 2, 2⟩
def F.FUSE_STATE_MIN_GEN : Fld := ⟨A.FUSE_STATE, 16, 8⟩
def F.FUSE_STATE_DEBUG_OPEN : Fld := ⟨A.FUSE_STATE, 24, 24⟩
def A.BN_WINDOW (w : Nat) : Nat := 0x68000 + 4 * w
def F.BN_WINDOW_W (w : Nat) : Fld := ⟨A.BN_WINDOW w, 31, 0⟩
def A.UPD_BLK_STATUS : Nat := 0x70000
def F.UPD_BLK_STATUS_WRITE_ERR : Fld := ⟨A.UPD_BLK_STATUS, 0, 0⟩
def F.UPD_BLK_STATUS_LIMIT_ERR : Fld := ⟨A.UPD_BLK_STATUS, 2, 2⟩
def A.UPD_SESSION : Nat := 0x70010
def F.UPD_SESSION_STATE : Fld := ⟨A.UPD_SESSION, 1, 0⟩
def F.UPD_SESSION_SOURCE : Fld := ⟨A.UPD_SESSION, 3, 2⟩
def F.UPD_SESSION_KIND : Fld := ⟨A.UPD_SESSION, 4, 4⟩
def F.UPD_SESSION_HELD : Fld := ⟨A.UPD_SESSION, 5, 5⟩
def F.UPD_SESSION_BLOCKS : Fld := ⟨A.UPD_SESSION, 24, 16⟩
def F.UPD_SESSION_LAST_CODE : Fld := ⟨A.UPD_SESSION, 31, 27⟩
def A.UPD_FWD : Nat := 0x70014
def F.UPD_FWD_ACTIVE : Fld := ⟨A.UPD_FWD, 0, 0⟩
def F.UPD_FWD_PORT : Fld := ⟨A.UPD_FWD, 2, 1⟩
def F.UPD_FWD_CODE : Fld := ⟨A.UPD_FWD, 8, 4⟩
def F.UPD_FWD_ACKED : Fld := ⟨A.UPD_FWD, 24, 16⟩
def F.UPD_FWD_SPLIT : Fld := ⟨A.UPD_FWD, 31, 31⟩
def A.UPD_BANK_0 (w : Nat) : Nat := 0x70020 + 0x10 * w
def F.UPD_BANK_0_STATE (w : Nat) : Fld := ⟨A.UPD_BANK_0 w, 2, 0⟩
def F.UPD_BANK_0_ACTIVE (w : Nat) : Fld := ⟨A.UPD_BANK_0 w, 3, 3⟩
def F.UPD_BANK_0_DOWNGRADE_OK (w : Nat) : Fld := ⟨A.UPD_BANK_0 w, 4, 4⟩
def A.UPD_BANK_1 (w : Nat) : Nat := 0x70024 + 0x10 * w
def F.UPD_BANK_1_GEN (w : Nat) : Fld := ⟨A.UPD_BANK_1 w, 31, 0⟩
def A.UPD_BANK_2 (w : Nat) : Nat := 0x70028 + 0x10 * w
def F.UPD_BANK_2_ID (w : Nat) : Fld := ⟨A.UPD_BANK_2 w, 31, 0⟩
def A.UPD_BANK_3 (w : Nat) : Nat := 0x7002C + 0x10 * w
def F.UPD_BANK_3_SIZE (w : Nat) : Fld := ⟨A.UPD_BANK_3 w, 31, 0⟩
def A.TRIAL_HOLD : Nat := 0x70060
def F.TRIAL_HOLD_S : Fld := ⟨A.TRIAL_HOLD, 15, 0⟩
def A.TRIAL_REMAIN : Nat := 0x70064
def F.TRIAL_REMAIN_S : Fld := ⟨A.TRIAL_REMAIN, 15, 0⟩
def A.SET_STATUS : Nat := 0x70068
def F.SET_STATUS_FORMAT : Fld := ⟨A.SET_STATUS, 15, 0⟩
def F.SET_STATUS_DEFAULTED : Fld := ⟨A.SET_STATUS, 16, 16⟩
def F.SET_STATUS_MIGRATED : Fld := ⟨A.SET_STATUS, 17, 17⟩
def A.HDR_SEQ : Nat := 0x7006C
def F.HDR_SEQ_SEQ : Fld := ⟨A.HDR_SEQ, 31, 0⟩
def A.SPI_INFO : Nat := 0x70070
def F.SPI_INFO_SIZE : Fld := ⟨A.SPI_INFO, 7, 0⟩
def F.SPI_INFO_BUSY : Fld := ⟨A.SPI_INFO, 8, 8⟩
def A.GR_EVQ_STATUS : Nat := 0x70200
def F.GR_EVQ_STATUS_LEVEL : Fld := ⟨A.GR_EVQ_STATUS, 5, 0⟩
def F.GR_EVQ_STATUS_OVF : Fld := ⟨A.GR_EVQ_STATUS, 16, 16⟩
def A.GR_EVQ_W (w : Nat) : Nat := 0x70220 + 4 * w
def F.GR_EVQ_W_W (w : Nat) : Fld := ⟨A.GR_EVQ_W w, 31, 0⟩
def A.GR_PCFG (i : Nat) : Nat := 0x70100 + 0x80 * i
def F.GR_PCFG_CMP_EN (i : Nat) : Fld := ⟨A.GR_PCFG i, 0, 0⟩
def F.GR_PCFG_OFFER (i : Nat) : Fld := ⟨A.GR_PCFG i, 2, 1⟩
def F.GR_PCFG_ENABLE (i : Nat) : Fld := ⟨A.GR_PCFG i, 3, 3⟩
def A.GR_PSTATUS (i : Nat) : Nat := 0x70104 + 0x80 * i
def F.GR_PSTATUS_LINK_UP (i : Nat) : Fld := ⟨A.GR_PSTATUS i, 0, 0⟩
def F.GR_PSTATUS_PEER_VALID (i : Nat) : Fld := ⟨A.GR_PSTATUS i, 1, 1⟩
def F.GR_PSTATUS_PEER_STATE (i : Nat) : Fld := ⟨A.GR_PSTATUS i, 4, 2⟩
def F.GR_PSTATUS_PEER_FOLLOWER (i : Nat) : Fld := ⟨A.GR_PSTATUS i, 5, 5⟩
def F.GR_PSTATUS_PEER_STEPS (i : Nat) : Fld := ⟨A.GR_PSTATUS i, 11, 8⟩
def F.GR_PSTATUS_LINK_CHG (i : Nat) : Fld := ⟨A.GR_PSTATUS i, 16, 16⟩
def A.GR_RX_ASYM (i : Nat) : Nat := 0x70108 + 0x80 * i
def F.GR_RX_ASYM_ASYM (i : Nat) : Fld := ⟨A.GR_RX_ASYM i, 31, 0⟩
def A.GR_TX_ASYM (i : Nat) : Nat := 0x7010C + 0x80 * i
def F.GR_TX_ASYM_ASYM (i : Nat) : Fld := ⟨A.GR_TX_ASYM i, 31, 0⟩
def A.GR_CMP_UNC (i : Nat) : Nat := 0x70110 + 0x80 * i
def F.GR_CMP_UNC_PS (i : Nat) : Fld := ⟨A.GR_CMP_UNC i, 19, 0⟩
def A.GR_PEER_ID (i : Nat) : Nat := 0x70118 + 0x80 * i
def F.GR_PEER_ID_ID (i : Nat) : Fld := ⟨A.GR_PEER_ID i, 31, 0⟩
def A.GR_PEER_ID_HI (i : Nat) : Nat := 0x7011C + 0x80 * i
def F.GR_PEER_ID_HI_ID (i : Nat) : Fld := ⟨A.GR_PEER_ID_HI i, 31, 0⟩
def A.GR_OFS (i : Nat) : Nat := 0x70120 + 0x80 * i
def F.GR_OFS_OFS (i : Nat) : Fld := ⟨A.GR_OFS i, 31, 0⟩
def A.GR_OFS_HI (i : Nat) : Nat := 0x70124 + 0x80 * i
def F.GR_OFS_HI_OFS (i : Nat) : Fld := ⟨A.GR_OFS_HI i, 31, 0⟩
def A.GR_DELAY (i : Nat) : Nat := 0x70128 + 0x80 * i
def F.GR_DELAY_D (i : Nat) : Fld := ⟨A.GR_DELAY i, 31, 0⟩
def A.GR_DELAY_HI (i : Nat) : Nat := 0x7012C + 0x80 * i
def F.GR_DELAY_HI_D (i : Nat) : Fld := ⟨A.GR_DELAY_HI i, 31, 0⟩
def A.GR_ERR (i : Nat) : Nat := 0x70130 + 0x80 * i
def F.GR_ERR_CNT (i : Nat) : Fld := ⟨A.GR_ERR i, 31, 0⟩
def A.HD_STATUS : Nat := 0x80000
def F.HD_STATUS_WRITE_ERR : Fld := ⟨A.HD_STATUS, 0, 0⟩
def F.HD_STATUS_LIMIT_ERR : Fld := ⟨A.HD_STATUS, 2, 2⟩
def F.HD_STATUS_BAR0_ERR : Fld := ⟨A.HD_STATUS, 3, 3⟩
def F.HD_STATUS_LEDGER_ECC : Fld := ⟨A.HD_STATUS, 4, 4⟩
def A.PCIE_STATUS : Nat := 0x80004
def F.PCIE_STATUS_SPEED : Fld := ⟨A.PCIE_STATUS, 2, 0⟩
def F.PCIE_STATUS_WIDTH : Fld := ⟨A.PCIE_STATUS, 7, 4⟩
def F.PCIE_STATUS_MSIX_EN : Fld := ⟨A.PCIE_STATUS, 8, 8⟩
def F.PCIE_STATUS_D3 : Fld := ⟨A.PCIE_STATUS, 9, 9⟩
def A.BAR2_CTRL : Nat := 0x80010
def F.BAR2_CTRL_TARGET : Fld := ⟨A.BAR2_CTRL, 0, 0⟩
def F.BAR2_CTRL_LINK : Fld := ⟨A.BAR2_CTRL, 7, 4⟩
def A.BAR2_BASE : Nat := 0x80018
def F.BAR2_BASE_BASE : Fld := ⟨A.BAR2_BASE, 31, 12⟩
def A.BAR2_BASE_HI : Nat := 0x8001C
def F.BAR2_BASE_HI_BASE : Fld := ⟨A.BAR2_BASE_HI, 31, 0⟩
def A.CMDR_BASE : Nat := 0x80100
def F.CMDR_BASE_ADDR : Fld := ⟨A.CMDR_BASE, 31, 6⟩
def A.CMDR_BASE_HI : Nat := 0x80104
def F.CMDR_BASE_HI_ADDR : Fld := ⟨A.CMDR_BASE_HI, 31, 0⟩
def A.CMDR_CFG : Nat := 0x80108
def F.CMDR_CFG_LOG2 : Fld := ⟨A.CMDR_CFG, 4, 0⟩
def A.CMDR_CTRL : Nat := 0x8010C
def F.CMDR_CTRL_ENABLE : Fld := ⟨A.CMDR_CTRL, 0, 0⟩
def F.CMDR_CTRL_STATE : Fld := ⟨A.CMDR_CTRL, 2, 1⟩
def F.CMDR_CTRL_LATCHED : Fld := ⟨A.CMDR_CTRL, 3, 3⟩
def F.CMDR_CTRL_CFG_ERR : Fld := ⟨A.CMDR_CTRL, 8, 8⟩
def F.CMDR_CTRL_DMA_ERR : Fld := ⟨A.CMDR_CTRL, 9, 9⟩
def A.CMDR_HEAD : Nat := 0x80110
def F.CMDR_HEAD_I : Fld := ⟨A.CMDR_HEAD, 15, 0⟩
def A.CMDR_TAIL : Nat := 0x80114
def F.CMDR_TAIL_I : Fld := ⟨A.CMDR_TAIL, 15, 0⟩
def A.CMDR_IRQ : Nat := 0x80118
def F.CMDR_IRQ_VECTOR : Fld := ⟨A.CMDR_IRQ, 5, 0⟩
def F.CMDR_IRQ_EN : Fld := ⟨A.CMDR_IRQ, 7, 7⟩
def F.CMDR_IRQ_COUNT : Fld := ⟨A.CMDR_IRQ, 15, 8⟩
def F.CMDR_IRQ_HOLDOFF_US : Fld := ⟨A.CMDR_IRQ, 31, 16⟩
def A.CMDR_FRAMES : Nat := 0x80120
def F.CMDR_FRAMES_CNT : Fld := ⟨A.CMDR_FRAMES, 31, 0⟩
def A.CMDR_NOBUF : Nat := 0x80124
def F.CMDR_NOBUF_CNT : Fld := ⟨A.CMDR_NOBUF, 31, 0⟩
def A.CMDR_DISCARD : Nat := 0x80128
def F.CMDR_DISCARD_CNT : Fld := ⟨A.CMDR_DISCARD, 31, 0⟩
def A.EVR_BASE : Nat := 0x80200
def F.EVR_BASE_ADDR : Fld := ⟨A.EVR_BASE, 31, 6⟩
def A.EVR_BASE_HI : Nat := 0x80204
def F.EVR_BASE_HI_ADDR : Fld := ⟨A.EVR_BASE_HI, 31, 0⟩
def A.EVR_CFG : Nat := 0x80208
def F.EVR_CFG_LOG2 : Fld := ⟨A.EVR_CFG, 4, 0⟩
def A.EVR_CTRL : Nat := 0x8020C
def F.EVR_CTRL_ENABLE : Fld := ⟨A.EVR_CTRL, 0, 0⟩
def F.EVR_CTRL_STATE : Fld := ⟨A.EVR_CTRL, 2, 1⟩
def F.EVR_CTRL_LATCHED : Fld := ⟨A.EVR_CTRL, 3, 3⟩
def F.EVR_CTRL_CFG_ERR : Fld := ⟨A.EVR_CTRL, 8, 8⟩
def F.EVR_CTRL_DMA_ERR : Fld := ⟨A.EVR_CTRL, 9, 9⟩
def A.EVR_HEAD : Nat := 0x80210
def F.EVR_HEAD_I : Fld := ⟨A.EVR_HEAD, 15, 0⟩
def A.EVR_TAIL : Nat := 0x80214
def F.EVR_TAIL_I : Fld := ⟨A.EVR_TAIL, 15, 0⟩
def A.EVR_IRQ : Nat := 0x80218
def F.EVR_IRQ_VECTOR : Fld := ⟨A.EVR_IRQ, 5, 0⟩
def F.EVR_IRQ_EN : Fld := ⟨A.EVR_IRQ, 7, 7⟩
def F.EVR_IRQ_COUNT : Fld := ⟨A.EVR_IRQ, 15, 8⟩
def F.EVR_IRQ_HOLDOFF_US : Fld := ⟨A.EVR_IRQ, 31, 16⟩
def A.EVR_FRAMES : Nat := 0x80220
def F.EVR_FRAMES_CNT : Fld := ⟨A.EVR_FRAMES, 31, 0⟩
def A.EVR_NOBUF : Nat := 0x80224
def F.EVR_NOBUF_CNT : Fld := ⟨A.EVR_NOBUF, 31, 0⟩
def A.EVR_DISCARD : Nat := 0x80228
def F.EVR_DISCARD_CNT : Fld := ⟨A.EVR_DISCARD, 31, 0⟩
def A.K_CNT_BLK_STATUS : Nat := 0x90000
def F.K_CNT_BLK_STATUS_WRITE_ERR : Fld := ⟨A.K_CNT_BLK_STATUS, 0, 0⟩
def F.K_CNT_BLK_STATUS_LIMIT_ERR : Fld := ⟨A.K_CNT_BLK_STATUS, 2, 2⟩
def A.K_CNT_OVF : Nat := 0x90004
def F.K_CNT_OVF_PROG : Fld := ⟨A.K_CNT_OVF, 3, 0⟩
def F.K_CNT_OVF_CYCLE : Fld := ⟨A.K_CNT_OVF, 8, 8⟩
def A.K_CYCLE : Nat := 0x90010
def F.K_CYCLE_CNT : Fld := ⟨A.K_CYCLE, 31, 0⟩
def A.K_CYCLE_HI : Nat := 0x90014
def F.K_CYCLE_HI_CNT : Fld := ⟨A.K_CYCLE_HI, 31, 0⟩
def A.K_CYCLE_SNAP : Nat := 0x90018
def F.K_CYCLE_SNAP_CNT : Fld := ⟨A.K_CYCLE_SNAP, 31, 0⟩
def A.K_CYCLE_SNAP_HI : Nat := 0x9001C
def F.K_CYCLE_SNAP_HI_CNT : Fld := ⟨A.K_CYCLE_SNAP_HI, 31, 0⟩
def A.K_CNT_CFG (w : Nat) : Nat := 0x90100 + 0x20 * w
def F.K_CNT_CFG_EVENT (w : Nat) : Fld := ⟨A.K_CNT_CFG w, 7, 0⟩
def F.K_CNT_CFG_MODE (w : Nat) : Fld := ⟨A.K_CNT_CFG w, 9, 8⟩
def F.K_CNT_CFG_ENABLE (w : Nat) : Fld := ⟨A.K_CNT_CFG w, 12, 12⟩
def F.K_CNT_CFG_OVF_EV (w : Nat) : Fld := ⟨A.K_CNT_CFG w, 13, 13⟩
def F.K_CNT_CFG_MODE_HELD (w : Nat) : Fld := ⟨A.K_CNT_CFG w, 15, 15⟩
def A.K_CNT (w : Nat) : Nat := 0x90108 + 0x20 * w
def F.K_CNT_CNT (w : Nat) : Fld := ⟨A.K_CNT w, 31, 0⟩
def A.K_CNT_HI (w : Nat) : Nat := 0x9010C + 0x20 * w
def F.K_CNT_HI_CNT (w : Nat) : Fld := ⟨A.K_CNT_HI w, 15, 0⟩
def A.K_CNT_SNAP (w : Nat) : Nat := 0x90110 + 0x20 * w
def F.K_CNT_SNAP_CNT (w : Nat) : Fld := ⟨A.K_CNT_SNAP w, 31, 0⟩
def A.K_CNT_SNAP_HI (w : Nat) : Nat := 0x90114 + 0x20 * w
def F.K_CNT_SNAP_HI_CNT (w : Nat) : Fld := ⟨A.K_CNT_SNAP_HI w, 15, 0⟩
def A.LMC_STATUS : Nat := 0x91000
def F.LMC_STATUS_TRAINED : Fld := ⟨A.LMC_STATUS, 1, 0⟩
def F.LMC_STATUS_KEY_VALID : Fld := ⟨A.LMC_STATUS, 2, 2⟩
def A.LMC_CE (w : Nat) : Nat := 0x91010 + 4 * w
def F.LMC_CE_CNT (w : Nat) : Fld := ⟨A.LMC_CE w, 31, 0⟩
def A.LMC_UE (w : Nat) : Nat := 0x91020 + 4 * w
def F.LMC_UE_CNT (w : Nat) : Fld := ⟨A.LMC_UE w, 31, 0⟩
def A.LMC_LINK (w : Nat) : Nat := 0x91040 + 4 * w
def F.LMC_LINK_SPARE_DN (w : Nat) : Fld := ⟨A.LMC_LINK w, 0, 0⟩
def F.LMC_LINK_SPARE_UP (w : Nat) : Fld := ⟨A.LMC_LINK w, 1, 1⟩
def F.LMC_LINK_REMAP_ACTIVE (w : Nat) : Fld := ⟨A.LMC_LINK w, 2, 2⟩
def F.LMC_LINK_FAILED_DN (w : Nat) : Fld := ⟨A.LMC_LINK w, 12, 8⟩
def F.LMC_LINK_FAILED_UP (w : Nat) : Fld := ⟨A.LMC_LINK w, 20, 16⟩
def F.LMC_LINK_LINK_FAULT (w : Nat) : Fld := ⟨A.LMC_LINK w, 24, 24⟩
def A.DIE_INFO (n : Nat) : Nat := dieBase n + 0
def F.DIE_INFO_ENG_MASK (n : Nat) : Fld := ⟨A.DIE_INFO n, 3, 0⟩
def F.DIE_INFO_E_MIN (n : Nat) : Fld := ⟨A.DIE_INFO n, 6, 4⟩
def F.DIE_INFO_RUNNING (n : Nat) : Fld := ⟨A.DIE_INFO n, 10, 8⟩
def A.ENG_FAULT (n : Nat) : Nat := dieBase n + 4
def F.ENG_FAULT_RECOVERING (n : Nat) : Fld := ⟨A.ENG_FAULT n, 3, 0⟩
def F.ENG_FAULT_LOCKOUT (n : Nat) : Fld := ⟨A.ENG_FAULT n, 7, 4⟩
def F.ENG_FAULT_FATAL_CNT (n : Nat) : Fld := ⟨A.ENG_FAULT n, 23, 16⟩
def A.ENG_LOST (n : Nat) : Nat := dieBase n + 8
def F.ENG_LOST_COUNT (n : Nat) : Fld := ⟨A.ENG_LOST n, 31, 0⟩
def A.FB_SEL (n : Nat) : Nat := dieBase n + 0x10
def F.FB_SEL_CTX (n : Nat) : Fld := ⟨A.FB_SEL n, 7, 0⟩
def A.FB_RATE (n : Nat) : Nat := dieBase n + 0x14
def F.FB_RATE_RATE (n : Nat) : Fld := ⟨A.FB_RATE n, 31, 0⟩
def A.FB_BURST (n : Nat) : Nat := dieBase n + 0x18
def F.FB_BURST_BURST (n : Nat) : Fld := ⟨A.FB_BURST n, 15, 0⟩
def A.REPLICA_STATUS (n : Nat) : Nat := dieBase n + 0x100
def F.REPLICA_STATUS_ALIGNED (n : Nat) : Fld := ⟨A.REPLICA_STATUS n, 0, 0⟩
def F.REPLICA_STATUS_SLEWING (n : Nat) : Fld := ⟨A.REPLICA_STATUS n, 1, 1⟩
def F.REPLICA_STATUS_CLK_ALT (n : Nat) : Fld := ⟨A.REPLICA_STATUS n, 2, 2⟩
def F.REPLICA_STATUS_WITHHOLD (n : Nat) : Fld := ⟨A.REPLICA_STATUS n, 3, 3⟩
def F.REPLICA_STATUS_MISS_CNT (n : Nat) : Fld := ⟨A.REPLICA_STATUS n, 15, 8⟩
def F.REPLICA_STATUS_ALIGN_LOST (n : Nat) : Fld := ⟨A.REPLICA_STATUS n, 16, 16⟩
def A.REPLICA_RESID (n : Nat) : Nat := dieBase n + 0x104
def F.REPLICA_RESID_RESID (n : Nat) : Fld := ⟨A.REPLICA_RESID n, 31, 0⟩
def A.REPLICA_DELAY (n : Nat) : Nat := dieBase n + 0x108
def F.REPLICA_DELAY_DELAY (n : Nat) : Fld := ⟨A.REPLICA_DELAY n, 31, 0⟩
def A.LINK_STATUS_DL (n : Nat) : Nat := dieBase n + 0x10C
def F.LINK_STATUS_DL_SPARE_DN (n : Nat) : Fld := ⟨A.LINK_STATUS_DL n, 0, 0⟩
def F.LINK_STATUS_DL_SPARE_UP (n : Nat) : Fld := ⟨A.LINK_STATUS_DL n, 1, 1⟩
def F.LINK_STATUS_DL_REMAP_ACTIVE (n : Nat) : Fld := ⟨A.LINK_STATUS_DL n, 2, 2⟩
def F.LINK_STATUS_DL_FAILED_DN (n : Nat) : Fld := ⟨A.LINK_STATUS_DL n, 12, 8⟩
def F.LINK_STATUS_DL_FAILED_UP (n : Nat) : Fld := ⟨A.LINK_STATUS_DL n, 20, 16⟩
def F.LINK_STATUS_DL_LINK_FAULT (n : Nat) : Fld := ⟨A.LINK_STATUS_DL n, 24, 24⟩
def A.ENG_FB_EPOCH (n : Nat) : Nat := dieBase n + 0x240
def F.ENG_FB_EPOCH_EPOCH (n : Nat) : Fld := ⟨A.ENG_FB_EPOCH n, 31, 0⟩
def A.ENG_FB_EPOCH_HI (n : Nat) : Nat := dieBase n + 0x244
def F.ENG_FB_EPOCH_HI_EPOCH (n : Nat) : Fld := ⟨A.ENG_FB_EPOCH_HI n, 31, 0⟩
def A.DPLL_STATUS (n i : Nat) : Nat := dieBase n + 0x200 + 0x20 * i
def F.DPLL_STATUS_LOCKED (n i : Nat) : Fld := ⟨A.DPLL_STATUS n i, 0, 0⟩
def F.DPLL_STATUS_COAST (n i : Nat) : Fld := ⟨A.DPLL_STATUS n i, 1, 1⟩
def F.DPLL_STATUS_LOSS_REF (n i : Nat) : Fld := ⟨A.DPLL_STATUS n i, 2, 2⟩
def F.DPLL_STATUS_SSC_ACTIVE (n i : Nat) : Fld := ⟨A.DPLL_STATUS n i, 3, 3⟩
def F.DPLL_STATUS_FALLBACK (n i : Nat) : Fld := ⟨A.DPLL_STATUS n i, 4, 4⟩
def F.DPLL_STATUS_GOOD_WIN (n i : Nat) : Fld := ⟨A.DPLL_STATUS n i, 11, 8⟩
def F.DPLL_STATUS_UNLOCK (n i : Nat) : Fld := ⟨A.DPLL_STATUS n i, 16, 16⟩
def F.DPLL_STATUS_REF_LOST (n i : Nat) : Fld := ⟨A.DPLL_STATUS n i, 17, 17⟩
def F.DPLL_STATUS_FB_ENTERED (n i : Nat) : Fld := ⟨A.DPLL_STATUS n i, 18, 18⟩
def A.DPLL_TOL (n i : Nat) : Nat := dieBase n + 0x204 + 0x20 * i
def F.DPLL_TOL_LOCK_PPM (n i : Nat) : Fld := ⟨A.DPLL_TOL n i, 9, 0⟩
def F.DPLL_TOL_UNLOCK_PPM (n i : Nat) : Fld := ⟨A.DPLL_TOL n i, 25, 16⟩
def A.DPLL_SSC (n i : Nat) : Nat := dieBase n + 0x208 + 0x20 * i
def F.DPLL_SSC_MODE (n i : Nat) : Fld := ⟨A.DPLL_SSC n i, 1, 0⟩
def F.DPLL_SSC_DEPTH (n i : Nat) : Fld := ⟨A.DPLL_SSC n i, 8, 4⟩
def A.DPLL_DEV (n i : Nat) : Nat := dieBase n + 0x20C + 0x20 * i
def F.DPLL_DEV_PPM (n i : Nat) : Fld := ⟨A.DPLL_DEV n i, 31, 0⟩
def A.DPLL_UNLOCKS (n i : Nat) : Nat := dieBase n + 0x210 + 0x20 * i
def F.DPLL_UNLOCKS_COUNT (n i : Nat) : Fld := ⟨A.DPLL_UNLOCKS n i, 15, 0⟩
def A.PORT_STATUS (n : Nat) : Nat := dieBase n + 0x10000
def F.PORT_STATUS_WRITE_ERR (n : Nat) : Fld := ⟨A.PORT_STATUS n, 0, 0⟩
def F.PORT_STATUS_LIMIT_ERR (n : Nat) : Fld := ⟨A.PORT_STATUS n, 2, 2⟩
def A.PORT_MODE (n : Nat) : Nat := dieBase n + 0x10004
def F.PORT_MODE_MODE (n : Nat) : Fld := ⟨A.PORT_MODE n, 0, 0⟩
def F.PORT_MODE_PRESENT (n : Nat) : Fld := ⟨A.PORT_MODE n, 4, 1⟩
def A.LINK_CFG (n i : Nat) : Nat := dieBase n + 0x11000 + 0x1000 * i
def F.LINK_CFG_MODE (n i : Nat) : Fld := ⟨A.LINK_CFG n i, 2, 0⟩
def F.LINK_CFG_FEC (n i : Nat) : Fld := ⟨A.LINK_CFG n i, 3, 3⟩
def F.LINK_CFG_PHY (n i : Nat) : Fld := ⟨A.LINK_CFG n i, 5, 4⟩
def F.LINK_CFG_AN (n i : Nat) : Fld := ⟨A.LINK_CFG n i, 6, 6⟩
def F.LINK_CFG_TX_POL (n i : Nat) : Fld := ⟨A.LINK_CFG n i, 11, 8⟩
def F.LINK_CFG_RX_POL (n i : Nat) : Fld := ⟨A.LINK_CFG n i, 15, 12⟩
def A.LINK_CTRL (n i : Nat) : Nat := dieBase n + 0x11004 + 0x1000 * i
def F.LINK_CTRL_ENABLE (n i : Nat) : Fld := ⟨A.LINK_CTRL n i, 0, 0⟩
def F.LINK_CTRL_STATE (n i : Nat) : Fld := ⟨A.LINK_CTRL n i, 2, 1⟩
def F.LINK_CTRL_LATCHED (n i : Nat) : Fld := ⟨A.LINK_CTRL n i, 3, 3⟩
def F.LINK_CTRL_AN_RESTART (n i : Nat) : Fld := ⟨A.LINK_CTRL n i, 4, 4⟩
def A.LINK_STATUS (n i : Nat) : Nat := dieBase n + 0x11008 + 0x1000 * i
def F.LINK_STATUS_LINK_UP (n i : Nat) : Fld := ⟨A.LINK_STATUS n i, 0, 0⟩
def F.LINK_STATUS_PCS_LOCK (n i : Nat) : Fld := ⟨A.LINK_STATUS n i, 1, 1⟩
def F.LINK_STATUS_AM_LOCK (n i : Nat) : Fld := ⟨A.LINK_STATUS n i, 2, 2⟩
def F.LINK_STATUS_FEC_LOCK (n i : Nat) : Fld := ⟨A.LINK_STATUS n i, 3, 3⟩
def F.LINK_STATUS_AN_DONE (n i : Nat) : Fld := ⟨A.LINK_STATUS n i, 4, 4⟩
def F.LINK_STATUS_TRAIN_DONE (n i : Nat) : Fld := ⟨A.LINK_STATUS n i, 5, 5⟩
def F.LINK_STATUS_GRID_OK (n i : Nat) : Fld := ⟨A.LINK_STATUS n i, 6, 6⟩
def F.LINK_STATUS_HI_BER (n i : Nat) : Fld := ⟨A.LINK_STATUS n i, 7, 7⟩
def F.LINK_STATUS_LINK_CHG (n i : Nat) : Fld := ⟨A.LINK_STATUS n i, 16, 16⟩
def F.LINK_STATUS_GRID_FAULT (n i : Nat) : Fld := ⟨A.LINK_STATUS n i, 17, 17⟩
def F.LINK_STATUS_AN_FAIL (n i : Nat) : Fld := ⟨A.LINK_STATUS n i, 18, 18⟩
def A.LINK_TPID (n i : Nat) : Nat := dieBase n + 0x1100C + 0x1000 * i
def F.LINK_TPID_TPID (n i : Nat) : Fld := ⟨A.LINK_TPID n i, 15, 0⟩
def A.LINK_HOST_RING (n i : Nat) : Nat := dieBase n + 0x11010 + 0x1000 * i
def F.LINK_HOST_RING_RING (n i : Nat) : Fld := ⟨A.LINK_HOST_RING n i, 2, 0⟩
def A.RX_SKEW (n i : Nat) : Nat := dieBase n + 0x11014 + 0x1000 * i
def F.RX_SKEW_SKEW (n i : Nat) : Fld := ⟨A.RX_SKEW n i, 31, 0⟩
def A.RX_ASYM (n i : Nat) : Nat := dieBase n + 0x11018 + 0x1000 * i
def F.RX_ASYM_ASYM (n i : Nat) : Fld := ⟨A.RX_ASYM n i, 31, 0⟩
def A.TX_ASYM (n i : Nat) : Nat := dieBase n + 0x1101C + 0x1000 * i
def F.TX_ASYM_ASYM (n i : Nat) : Fld := ⟨A.TX_ASYM n i, 31, 0⟩
def A.GRID_ORIGIN (n i : Nat) : Nat := dieBase n + 0x11020 + 0x1000 * i
def F.GRID_ORIGIN_O (n i : Nat) : Fld := ⟨A.GRID_ORIGIN n i, 31, 0⟩
def A.GRID_ORIGIN_HI (n i : Nat) : Nat := dieBase n + 0x11024 + 0x1000 * i
def F.GRID_ORIGIN_HI_O (n i : Nat) : Fld := ⟨A.GRID_ORIGIN_HI n i, 31, 0⟩
def A.GRID_ERR (n i : Nat) : Nat := dieBase n + 0x11028 + 0x1000 * i
def F.GRID_ERR_ERR (n i : Nat) : Fld := ⟨A.GRID_ERR n i, 31, 0⟩
def A.LINK_TEST (n i : Nat) : Nat := dieBase n + 0x11030 + 0x1000 * i
def F.LINK_TEST_LOOP (n i : Nat) : Fld := ⟨A.LINK_TEST n i, 1, 0⟩
def F.LINK_TEST_PRBS (n i : Nat) : Fld := ⟨A.LINK_TEST n i, 4, 2⟩
def F.LINK_TEST_CHECK (n i : Nat) : Fld := ⟨A.LINK_TEST n i, 5, 5⟩
def A.PRBS_ERR (n i w : Nat) : Nat := dieBase n + 0x11034 + 0x1000 * i + 4 * w
def F.PRBS_ERR_COUNT (n i w : Nat) : Fld := ⟨A.PRBS_ERR n i w, 31, 0⟩
def A.RULE_0 (n i : Nat) : Nat := dieBase n + 0x20000 + 0x20 * i
def F.RULE_0_VALID (n i : Nat) : Fld := ⟨A.RULE_0 n i, 0, 0⟩
def F.RULE_0_ACTION (n i : Nat) : Fld := ⟨A.RULE_0 n i, 1, 1⟩
def F.RULE_0_LINK_MASK (n i : Nat) : Fld := ⟨A.RULE_0 n i, 7, 4⟩
def F.RULE_0_CONTEXT (n i : Nat) : Fld := ⟨A.RULE_0 n i, 15, 8⟩
def F.RULE_0_RING (n i : Nat) : Fld := ⟨A.RULE_0 n i, 18, 16⟩
def A.RULE_1 (n i : Nat) : Nat := dieBase n + 0x20004 + 0x20 * i
def F.RULE_1_MATCH (n i : Nat) : Fld := ⟨A.RULE_1 n i, 9, 0⟩
def A.RULE_2 (n i : Nat) : Nat := dieBase n + 0x20008 + 0x20 * i
def F.RULE_2_TPID (n i : Nat) : Fld := ⟨A.RULE_2 n i, 15, 0⟩
def F.RULE_2_VID (n i : Nat) : Fld := ⟨A.RULE_2 n i, 27, 16⟩
def F.RULE_2_PCP (n i : Nat) : Fld := ⟨A.RULE_2 n i, 30, 28⟩
def A.RULE_3 (n i : Nat) : Nat := dieBase n + 0x2000C + 0x20 * i
def F.RULE_3_ETYPE (n i : Nat) : Fld := ⟨A.RULE_3 n i, 15, 0⟩
def F.RULE_3_PROTO (n i : Nat) : Fld := ⟨A.RULE_3 n i, 23, 16⟩
def A.RULE_4 (n i : Nat) : Nat := dieBase n + 0x20010 + 0x20 * i
def F.RULE_4_PORT (n i : Nat) : Fld := ⟨A.RULE_4 n i, 15, 0⟩
def F.RULE_4_PORT_MASK (n i : Nat) : Fld := ⟨A.RULE_4 n i, 31, 16⟩
def A.RULE_5 (n i : Nat) : Nat := dieBase n + 0x20014 + 0x20 * i
def F.RULE_5_VID_MASK (n i : Nat) : Fld := ⟨A.RULE_5 n i, 11, 0⟩
def A.RULE_6 (n i : Nat) : Nat := dieBase n + 0x20018 + 0x20 * i
def F.RULE_6_HITS (n i : Nat) : Fld := ⟨A.RULE_6 n i, 31, 0⟩
def A.RULE_7 (n i : Nat) : Nat := dieBase n + 0x2001C + 0x20 * i
def A.PARSE_DROP (n i : Nat) : Nat := dieBase n + 0x20800 + 0x10 * i
def F.PARSE_DROP_CNT (n i : Nat) : Fld := ⟨A.PARSE_DROP n i, 31, 0⟩
def A.L3_ERR (n i : Nat) : Nat := dieBase n + 0x20804 + 0x10 * i
def F.L3_ERR_CNT (n i : Nat) : Fld := ⟨A.L3_ERR n i, 31, 0⟩
def A.L4_ERR (n i : Nat) : Nat := dieBase n + 0x20808 + 0x10 * i
def F.L4_ERR_CNT (n i : Nat) : Fld := ⟨A.L4_ERR n i, 31, 0⟩
def A.NODE_0 (n i j : Nat) : Nat := dieBase n + 0x21000 + 0x1000 * i + 0x40 * j
def F.NODE_0_VALID (n i j : Nat) : Fld := ⟨A.NODE_0 n i j, 0, 0⟩
def F.NODE_0_OFFSET (n i j : Nat) : Fld := ⟨A.NODE_0 n i j, 7, 1⟩
def F.NODE_0_WIDTH (n i j : Nat) : Fld := ⟨A.NODE_0 n i j, 9, 8⟩
def F.NODE_0_ADV (n i j : Nat) : Fld := ⟨A.NODE_0 n i j, 11, 10⟩
def F.NODE_0_ADV_OFS (n i j : Nat) : Fld := ⟨A.NODE_0 n i j, 18, 12⟩
def F.NODE_0_CHK_IP4 (n i j : Nat) : Fld := ⟨A.NODE_0 n i j, 19, 19⟩
def F.NODE_0_CHK_UDP (n i j : Nat) : Fld := ⟨A.NODE_0 n i j, 20, 20⟩
def F.NODE_0_MARK (n i j : Nat) : Fld := ⟨A.NODE_0 n i j, 22, 21⟩
def A.NODE_1 (n i j : Nat) : Nat := dieBase n + 0x21004 + 0x1000 * i + 0x40 * j
def F.NODE_1_DEF_VALUE (n i j : Nat) : Fld := ⟨A.NODE_1 n i j, 7, 0⟩
def F.NODE_1_DEF_KIND (n i j : Nat) : Fld := ⟨A.NODE_1 n i j, 9, 8⟩
def A.NODE_V (n i j w : Nat) : Nat := dieBase n + 0x21008 + 0x1000 * i + 0x40 * j + 0xC * w
def F.NODE_V_VALUE (n i j w : Nat) : Fld := ⟨A.NODE_V n i j w, 31, 0⟩
def A.NODE_M (n i j w : Nat) : Nat := dieBase n + 0x2100C + 0x1000 * i + 0x40 * j + 0xC * w
def F.NODE_M_MASK (n i j w : Nat) : Fld := ⟨A.NODE_M n i j w, 31, 0⟩
def A.NODE_R (n i j w : Nat) : Nat := dieBase n + 0x21010 + 0x1000 * i + 0x40 * j + 0xC * w
def F.NODE_R_RESULT (n i j w : Nat) : Fld := ⟨A.NODE_R n i j w, 9, 0⟩
def F.NODE_R_MVALID (n i j w : Nat) : Fld := ⟨A.NODE_R n i j w, 31, 31⟩
def A.NODE_14 (n i j : Nat) : Nat := dieBase n + 0x21038 + 0x1000 * i + 0x40 * j
def A.NODE_15 (n i j : Nat) : Nat := dieBase n + 0x2103C + 0x1000 * i + 0x40 * j
def A.CTX_STATUS (n : Nat) : Nat := dieBase n + 0x30000
def F.CTX_STATUS_WRITE_ERR (n : Nat) : Fld := ⟨A.CTX_STATUS n, 0, 0⟩
def F.CTX_STATUS_LIMIT_ERR (n : Nat) : Fld := ⟨A.CTX_STATUS n, 2, 2⟩
def A.ADM_SEL (n : Nat) : Nat := dieBase n + 0x30004
def F.ADM_SEL_CTX (n : Nat) : Fld := ⟨A.ADM_SEL n, 7, 0⟩
def F.ADM_SEL_LINK (n : Nat) : Fld := ⟨A.ADM_SEL n, 9, 8⟩
def A.ADM_LEVEL (n : Nat) : Nat := dieBase n + 0x30008
def F.ADM_LEVEL_LEVEL (n : Nat) : Fld := ⟨A.ADM_LEVEL n, 31, 0⟩
def A.ADM_LEVEL_HI (n : Nat) : Nat := dieBase n + 0x3000C
def F.ADM_LEVEL_HI_LEVEL (n : Nat) : Fld := ⟨A.ADM_LEVEL_HI n, 31, 0⟩
def A.CLIENT_NEW (n : Nat) : Nat := dieBase n + 0x30010
def F.CLIENT_NEW_CNT (n : Nat) : Fld := ⟨A.CLIENT_NEW n, 31, 0⟩
def A.CLIENT_EVICT (n : Nat) : Nat := dieBase n + 0x30014
def F.CLIENT_EVICT_CNT (n : Nat) : Fld := ⟨A.CLIENT_EVICT n, 31, 0⟩
def A.CLIENT_ECC (n : Nat) : Nat := dieBase n + 0x30018
def F.CLIENT_ECC_CNT (n : Nat) : Fld := ⟨A.CLIENT_ECC n, 31, 0⟩
def A.ARR_HOST_FULL (n : Nat) : Nat := dieBase n + 0x3001C
def F.ARR_HOST_FULL_CNT (n : Nat) : Fld := ⟨A.ARR_HOST_FULL n, 31, 0⟩
def A.ARR_STATUS (n : Nat) : Nat := dieBase n + 0x30020
def F.ARR_STATUS_HOST_CELLS (n : Nat) : Fld := ⟨A.ARR_STATUS n, 11, 0⟩
def F.ARR_STATUS_CTX_CELLS (n : Nat) : Fld := ⟨A.ARR_STATUS n, 27, 16⟩
def F.ARR_STATUS_CTX_FULL (n : Nat) : Fld := ⟨A.ARR_STATUS n, 31, 31⟩
def A.CTX_LINE (n i w : Nat) : Nat := dieBase n + 0x30100 + 0x100 * i + 4 * w
def F.CTX_LINE_IMAGE (n i w : Nat) : Fld := ⟨A.CTX_LINE n i w, 31, 0⟩
def A.ENG_BLK_STATUS (n : Nat) : Nat := dieBase n + 0x40000
def F.ENG_BLK_STATUS_WRITE_ERR (n : Nat) : Fld := ⟨A.ENG_BLK_STATUS n, 0, 0⟩
def F.ENG_BLK_STATUS_LIMIT_ERR (n : Nat) : Fld := ⟨A.ENG_BLK_STATUS n, 2, 2⟩
def A.DISPATCH_STATUS (n : Nat) : Nat := dieBase n + 0x40004
def F.DISPATCH_STATUS_LEVEL (n : Nat) : Fld := ⟨A.DISPATCH_STATUS n, 8, 0⟩
def F.DISPATCH_STATUS_PEAK (n : Nat) : Fld := ⟨A.DISPATCH_STATUS n, 24, 16⟩
def A.ENG_LIB (n : Nat) : Nat := dieBase n + 0x40008
def F.ENG_LIB_LIB_ID (n : Nat) : Fld := ⟨A.ENG_LIB n, 31, 0⟩
def A.ENG_CTRL (n i : Nat) : Nat := dieBase n + 0x40100 + 0x40 * i
def F.ENG_CTRL_ENABLE (n i : Nat) : Fld := ⟨A.ENG_CTRL n i, 0, 0⟩
def F.ENG_CTRL_STATE (n i : Nat) : Fld := ⟨A.ENG_CTRL n i, 2, 1⟩
def F.ENG_CTRL_LATCHED (n i : Nat) : Fld := ⟨A.ENG_CTRL n i, 3, 3⟩
def F.ENG_CTRL_LAST_CODE (n i : Nat) : Fld := ⟨A.ENG_CTRL n i, 7, 4⟩
def A.ENG_STATUS (n i : Nat) : Nat := dieBase n + 0x40104 + 0x40 * i
def F.ENG_STATUS_THREADS (n i : Nat) : Fld := ⟨A.ENG_STATUS n i, 5, 0⟩
def F.ENG_STATUS_GATED (n i : Nat) : Fld := ⟨A.ENG_STATUS n i, 8, 8⟩
def F.ENG_STATUS_SLOW_CLK (n i : Nat) : Fld := ⟨A.ENG_STATUS n i, 9, 9⟩
def F.ENG_STATUS_FATAL (n i : Nat) : Fld := ⟨A.ENG_STATUS n i, 16, 16⟩
def A.ENG_DONE (n i : Nat) : Nat := dieBase n + 0x40108 + 0x40 * i
def F.ENG_DONE_COUNT (n i : Nat) : Fld := ⟨A.ENG_DONE n i, 31, 0⟩
def A.ENG_DONE_HI (n i : Nat) : Nat := dieBase n + 0x4010C + 0x40 * i
def F.ENG_DONE_HI_COUNT (n i : Nat) : Fld := ⟨A.ENG_DONE_HI n i, 31, 0⟩
def A.CT_BASE (n i : Nat) : Nat := dieBase n + 0x40800 + 0x80 * i
def F.CT_BASE_BASE (n i : Nat) : Fld := ⟨A.CT_BASE n i, 31, 0⟩
def A.CT_BASE_HI (n i : Nat) : Nat := dieBase n + 0x40804 + 0x80 * i
def F.CT_BASE_HI_BASE (n i : Nat) : Fld := ⟨A.CT_BASE_HI n i, 31, 0⟩
def A.CT_SIZE (n i : Nat) : Nat := dieBase n + 0x40808 + 0x80 * i
def F.CT_SIZE_SIZE (n i : Nat) : Fld := ⟨A.CT_SIZE n i, 31, 0⟩
def A.ST_BASE (n i : Nat) : Nat := dieBase n + 0x40810 + 0x80 * i
def F.ST_BASE_BASE (n i : Nat) : Fld := ⟨A.ST_BASE n i, 31, 0⟩
def A.ST_BASE_HI (n i : Nat) : Nat := dieBase n + 0x40814 + 0x80 * i
def F.ST_BASE_HI_BASE (n i : Nat) : Fld := ⟨A.ST_BASE_HI n i, 31, 0⟩
def A.ST_SIZE (n i : Nat) : Nat := dieBase n + 0x40818 + 0x80 * i
def F.ST_SIZE_SIZE (n i : Nat) : Fld := ⟨A.ST_SIZE n i, 31, 0⟩
def A.LOG_BASE (n i : Nat) : Nat := dieBase n + 0x40820 + 0x80 * i
def F.LOG_BASE_BASE (n i : Nat) : Fld := ⟨A.LOG_BASE n i, 31, 0⟩
def A.LOG_BASE_HI (n i : Nat) : Nat := dieBase n + 0x40824 + 0x80 * i
def F.LOG_BASE_HI_BASE (n i : Nat) : Fld := ⟨A.LOG_BASE_HI n i, 31, 0⟩
def A.LOG_SIZE (n i : Nat) : Nat := dieBase n + 0x40828 + 0x80 * i
def F.LOG_SIZE_SIZE (n i : Nat) : Fld := ⟨A.LOG_SIZE n i, 31, 0⟩
def A.BULK_BASE (n i : Nat) : Nat := dieBase n + 0x40830 + 0x80 * i
def F.BULK_BASE_BASE (n i : Nat) : Fld := ⟨A.BULK_BASE n i, 31, 0⟩
def A.BULK_BASE_HI (n i : Nat) : Nat := dieBase n + 0x40834 + 0x80 * i
def F.BULK_BASE_HI_BASE (n i : Nat) : Fld := ⟨A.BULK_BASE_HI n i, 31, 0⟩
def A.BULK_SIZE (n i : Nat) : Nat := dieBase n + 0x40838 + 0x80 * i
def F.BULK_SIZE_SIZE (n i : Nat) : Fld := ⟨A.BULK_SIZE n i, 31, 0⟩
def A.LOG_CFG (n i : Nat) : Nat := dieBase n + 0x40840 + 0x80 * i
def F.LOG_CFG_MODE (n i : Nat) : Fld := ⟨A.LOG_CFG n i, 0, 0⟩
def A.LOG_WR (n i : Nat) : Nat := dieBase n + 0x40844 + 0x80 * i
def F.LOG_WR_WR (n i : Nat) : Fld := ⟨A.LOG_WR n i, 27, 0⟩
def A.LOG_RD (n i : Nat) : Nat := dieBase n + 0x40848 + 0x80 * i
def F.LOG_RD_RD (n i : Nat) : Fld := ⟨A.LOG_RD n i, 27, 0⟩
def A.LOG_LOST (n i : Nat) : Nat := dieBase n + 0x4084C + 0x80 * i
def F.LOG_LOST_CNT (n i : Nat) : Fld := ⟨A.LOG_LOST n i, 31, 0⟩
def A.UC_BUDGET (n i : Nat) : Nat := dieBase n + 0x40850 + 0x80 * i
def F.UC_BUDGET_B (n i : Nat) : Fld := ⟨A.UC_BUDGET n i, 31, 0⟩
def A.UC_USED (n i : Nat) : Nat := dieBase n + 0x40854 + 0x80 * i
def F.UC_USED_U (n i : Nat) : Fld := ⟨A.UC_USED n i, 31, 0⟩
def A.UC_SESSIONS (n i : Nat) : Nat := dieBase n + 0x40858 + 0x80 * i
def F.UC_SESSIONS_N (n i : Nat) : Fld := ⟨A.UC_SESSIONS n i, 16, 0⟩
def A.UC_DENY (n i : Nat) : Nat := dieBase n + 0x4085C + 0x80 * i
def F.UC_DENY_CNT (n i : Nat) : Fld := ⟨A.UC_DENY n i, 31, 0⟩
def A.UC_DEFER (n i : Nat) : Nat := dieBase n + 0x40860 + 0x80 * i
def F.UC_DEFER_CNT (n i : Nat) : Fld := ⟨A.UC_DEFER n i, 31, 0⟩
def A.UC_SKIP (n i : Nat) : Nat := dieBase n + 0x40864 + 0x80 * i
def F.UC_SKIP_CNT (n i : Nat) : Fld := ⟨A.UC_SKIP n i, 31, 0⟩
def A.UC_ECC (n i : Nat) : Nat := dieBase n + 0x40868 + 0x80 * i
def F.UC_ECC_CNT (n i : Nat) : Fld := ⟨A.UC_ECC n i, 31, 0⟩
def A.CAL_BLK_STATUS (n : Nat) : Nat := dieBase n + 0x50000
def F.CAL_BLK_STATUS_WRITE_ERR (n : Nat) : Fld := ⟨A.CAL_BLK_STATUS n, 0, 0⟩
def F.CAL_BLK_STATUS_LIMIT_ERR (n : Nat) : Fld := ⟨A.CAL_BLK_STATUS n, 2, 2⟩
def A.CAL_CYCLE (n i : Nat) : Nat := dieBase n + 0x50100 + 0x100 * i
def F.CAL_CYCLE_N (n i : Nat) : Fld := ⟨A.CAL_CYCLE n i, 20, 0⟩
def A.CAL_WIN_START (n i : Nat) : Nat := dieBase n + 0x50104 + 0x100 * i
def F.CAL_WIN_START_S (n i : Nat) : Fld := ⟨A.CAL_WIN_START n i, 20, 0⟩
def A.CAL_WIN_LEN (n i : Nat) : Nat := dieBase n + 0x50108 + 0x100 * i
def F.CAL_WIN_LEN_L (n i : Nat) : Fld := ⟨A.CAL_WIN_LEN n i, 20, 0⟩
def A.CAL_STATE (n i : Nat) : Nat := dieBase n + 0x50110 + 0x100 * i
def F.CAL_STATE_COMMITTED (n i : Nat) : Fld := ⟨A.CAL_STATE n i, 11, 0⟩
def F.CAL_STATE_PEAK (n i : Nat) : Fld := ⟨A.CAL_STATE n i, 27, 16⟩
def A.CAL_FLAGS (n i : Nat) : Nat := dieBase n + 0x50114 + 0x100 * i
def F.CAL_FLAGS_OVF (n i : Nat) : Fld := ⟨A.CAL_FLAGS n i, 0, 0⟩
def F.CAL_FLAGS_LATE_SEEN (n i : Nat) : Fld := ⟨A.CAL_FLAGS n i, 1, 1⟩
def A.CAL_PUSHED (n i : Nat) : Nat := dieBase n + 0x50120 + 0x100 * i
def F.CAL_PUSHED_CNT (n i : Nat) : Fld := ⟨A.CAL_PUSHED n i, 31, 0⟩
def A.CAL_WIN_DEFER (n i : Nat) : Nat := dieBase n + 0x50124 + 0x100 * i
def F.CAL_WIN_DEFER_CNT (n i : Nat) : Fld := ⟨A.CAL_WIN_DEFER n i, 31, 0⟩
def A.CAL_LATE (n i : Nat) : Nat := dieBase n + 0x50128 + 0x100 * i
def F.CAL_LATE_CNT (n i : Nat) : Fld := ⟨A.CAL_LATE n i, 31, 0⟩
def A.CAL_HOST_SENT (n i : Nat) : Nat := dieBase n + 0x5012C + 0x100 * i
def F.CAL_HOST_SENT_CNT (n i : Nat) : Fld := ⟨A.CAL_HOST_SENT n i, 31, 0⟩
def A.CAL_RSV_0 (n i w : Nat) : Nat := dieBase n + 0x50140 + 0x100 * i + 8 * w
def F.CAL_RSV_0_START (n i w : Nat) : Fld := ⟨A.CAL_RSV_0 n i w, 20, 0⟩
def A.CAL_RSV_1 (n i w : Nat) : Nat := dieBase n + 0x50144 + 0x100 * i + 8 * w
def F.CAL_RSV_1_LEN (n i w : Nat) : Fld := ⟨A.CAL_RSV_1 n i w, 15, 0⟩
def F.CAL_RSV_1_VALID (n i w : Nat) : Fld := ⟨A.CAL_RSV_1 n i w, 31, 31⟩
def A.CAL_USE (n i w : Nat) : Nat := dieBase n + 0x501C0 + 0x100 * i + 4 * w
def F.CAL_USE_ROLE (n i w : Nat) : Fld := ⟨A.CAL_USE n i w, 2, 0⟩
def F.CAL_USE_CONTEXT (n i w : Nat) : Fld := ⟨A.CAL_USE n i w, 15, 8⟩
def A.RING_BLK_STATUS (n : Nat) : Nat := dieBase n + 0x60000
def F.RING_BLK_STATUS_WRITE_ERR (n : Nat) : Fld := ⟨A.RING_BLK_STATUS n, 0, 0⟩
def F.RING_BLK_STATUS_LIMIT_ERR (n : Nat) : Fld := ⟨A.RING_BLK_STATUS n, 2, 2⟩
def A.RXR_BASE (n i : Nat) : Nat := dieBase n + 0x61000 + 0x100 * i
def F.RXR_BASE_ADDR (n i : Nat) : Fld := ⟨A.RXR_BASE n i, 31, 6⟩
def A.RXR_BASE_HI (n i : Nat) : Nat := dieBase n + 0x61004 + 0x100 * i
def F.RXR_BASE_HI_ADDR (n i : Nat) : Fld := ⟨A.RXR_BASE_HI n i, 31, 0⟩
def A.RXR_CFG (n i : Nat) : Nat := dieBase n + 0x61008 + 0x100 * i
def F.RXR_CFG_LOG2 (n i : Nat) : Fld := ⟨A.RXR_CFG n i, 4, 0⟩
def F.RXR_CFG_BUF (n i : Nat) : Fld := ⟨A.RXR_CFG n i, 14, 8⟩
def F.RXR_CFG_SCALE (n i : Nat) : Fld := ⟨A.RXR_CFG n i, 17, 16⟩
def A.RXR_CTRL (n i : Nat) : Nat := dieBase n + 0x6100C + 0x100 * i
def F.RXR_CTRL_ENABLE (n i : Nat) : Fld := ⟨A.RXR_CTRL n i, 0, 0⟩
def F.RXR_CTRL_STATE (n i : Nat) : Fld := ⟨A.RXR_CTRL n i, 2, 1⟩
def F.RXR_CTRL_LATCHED (n i : Nat) : Fld := ⟨A.RXR_CTRL n i, 3, 3⟩
def F.RXR_CTRL_CFG_ERR (n i : Nat) : Fld := ⟨A.RXR_CTRL n i, 8, 8⟩
def F.RXR_CTRL_DMA_ERR (n i : Nat) : Fld := ⟨A.RXR_CTRL n i, 9, 9⟩
def A.RXR_HEAD (n i : Nat) : Nat := dieBase n + 0x61010 + 0x100 * i
def F.RXR_HEAD_I (n i : Nat) : Fld := ⟨A.RXR_HEAD n i, 15, 0⟩
def A.RXR_TAIL (n i : Nat) : Nat := dieBase n + 0x61014 + 0x100 * i
def F.RXR_TAIL_I (n i : Nat) : Fld := ⟨A.RXR_TAIL n i, 15, 0⟩
def A.RXR_IRQ (n i : Nat) : Nat := dieBase n + 0x61018 + 0x100 * i
def F.RXR_IRQ_VECTOR (n i : Nat) : Fld := ⟨A.RXR_IRQ n i, 5, 0⟩
def F.RXR_IRQ_EN (n i : Nat) : Fld := ⟨A.RXR_IRQ n i, 7, 7⟩
def F.RXR_IRQ_COUNT (n i : Nat) : Fld := ⟨A.RXR_IRQ n i, 15, 8⟩
def F.RXR_IRQ_HOLDOFF_US (n i : Nat) : Fld := ⟨A.RXR_IRQ n i, 31, 16⟩
def A.RXR_FRAMES (n i : Nat) : Nat := dieBase n + 0x61020 + 0x100 * i
def F.RXR_FRAMES_CNT (n i : Nat) : Fld := ⟨A.RXR_FRAMES n i, 31, 0⟩
def A.RXR_NOBUF (n i : Nat) : Nat := dieBase n + 0x61024 + 0x100 * i
def F.RXR_NOBUF_CNT (n i : Nat) : Fld := ⟨A.RXR_NOBUF n i, 31, 0⟩
def A.RXR_DISCARD (n i : Nat) : Nat := dieBase n + 0x61028 + 0x100 * i
def F.RXR_DISCARD_CNT (n i : Nat) : Fld := ⟨A.RXR_DISCARD n i, 31, 0⟩
def A.TXR_BASE (n i : Nat) : Nat := dieBase n + 0x62000 + 0x100 * i
def F.TXR_BASE_ADDR (n i : Nat) : Fld := ⟨A.TXR_BASE n i, 31, 6⟩
def A.TXR_BASE_HI (n i : Nat) : Nat := dieBase n + 0x62004 + 0x100 * i
def F.TXR_BASE_HI_ADDR (n i : Nat) : Fld := ⟨A.TXR_BASE_HI n i, 31, 0⟩
def A.TXR_CFG (n i : Nat) : Nat := dieBase n + 0x62008 + 0x100 * i
def F.TXR_CFG_LOG2 (n i : Nat) : Fld := ⟨A.TXR_CFG n i, 4, 0⟩
def F.TXR_CFG_LINK (n i : Nat) : Fld := ⟨A.TXR_CFG n i, 21, 20⟩
def A.TXR_CTRL (n i : Nat) : Nat := dieBase n + 0x6200C + 0x100 * i
def F.TXR_CTRL_ENABLE (n i : Nat) : Fld := ⟨A.TXR_CTRL n i, 0, 0⟩
def F.TXR_CTRL_STATE (n i : Nat) : Fld := ⟨A.TXR_CTRL n i, 2, 1⟩
def F.TXR_CTRL_LATCHED (n i : Nat) : Fld := ⟨A.TXR_CTRL n i, 3, 3⟩
def F.TXR_CTRL_CFG_ERR (n i : Nat) : Fld := ⟨A.TXR_CTRL n i, 8, 8⟩
def F.TXR_CTRL_DMA_ERR (n i : Nat) : Fld := ⟨A.TXR_CTRL n i, 9, 9⟩
def A.TXR_HEAD (n i : Nat) : Nat := dieBase n + 0x62010 + 0x100 * i
def F.TXR_HEAD_I (n i : Nat) : Fld := ⟨A.TXR_HEAD n i, 15, 0⟩
def A.TXR_TAIL (n i : Nat) : Nat := dieBase n + 0x62014 + 0x100 * i
def F.TXR_TAIL_I (n i : Nat) : Fld := ⟨A.TXR_TAIL n i, 15, 0⟩
def A.TXR_IRQ (n i : Nat) : Nat := dieBase n + 0x62018 + 0x100 * i
def F.TXR_IRQ_VECTOR (n i : Nat) : Fld := ⟨A.TXR_IRQ n i, 5, 0⟩
def F.TXR_IRQ_EN (n i : Nat) : Fld := ⟨A.TXR_IRQ n i, 7, 7⟩
def F.TXR_IRQ_COUNT (n i : Nat) : Fld := ⟨A.TXR_IRQ n i, 15, 8⟩
def F.TXR_IRQ_HOLDOFF_US (n i : Nat) : Fld := ⟨A.TXR_IRQ n i, 31, 16⟩
def A.TXR_FRAMES (n i : Nat) : Nat := dieBase n + 0x62020 + 0x100 * i
def F.TXR_FRAMES_CNT (n i : Nat) : Fld := ⟨A.TXR_FRAMES n i, 31, 0⟩
def A.TXR_NOBUF (n i : Nat) : Nat := dieBase n + 0x62024 + 0x100 * i
def F.TXR_NOBUF_CNT (n i : Nat) : Fld := ⟨A.TXR_NOBUF n i, 31, 0⟩
def A.TXR_DISCARD (n i : Nat) : Nat := dieBase n + 0x62028 + 0x100 * i
def F.TXR_DISCARD_CNT (n i : Nat) : Fld := ⟨A.TXR_DISCARD n i, 31, 0⟩
def A.TSQ_CFG (n i : Nat) : Nat := dieBase n + 0x70000 + 0x100 * i
def F.TSQ_CFG_SCALE (n i : Nat) : Fld := ⟨A.TSQ_CFG n i, 1, 0⟩
def A.TSQ_STATUS (n i : Nat) : Nat := dieBase n + 0x70004 + 0x100 * i
def F.TSQ_STATUS_LEVEL (n i : Nat) : Fld := ⟨A.TSQ_STATUS n i, 6, 0⟩
def F.TSQ_STATUS_OVF (n i : Nat) : Fld := ⟨A.TSQ_STATUS n i, 16, 16⟩
def A.TSQ_DROP (n i : Nat) : Nat := dieBase n + 0x70008 + 0x100 * i
def F.TSQ_DROP_CNT (n i : Nat) : Fld := ⟨A.TSQ_DROP n i, 31, 0⟩
def A.TSQ_W (n i w : Nat) : Nat := dieBase n + 0x70020 + 0x100 * i + 4 * w
def F.TSQ_W_W (n i w : Nat) : Fld := ⟨A.TSQ_W n i w, 31, 0⟩
def A.STAT_LIVE (n i w : Nat) : Nat := dieBase n + 0x80000 + 0x400 * i + 4 * w
def F.STAT_LIVE_CNT (n i w : Nat) : Fld := ⟨A.STAT_LIVE n i w, 31, 0⟩
def A.STAT_SNAP (n i w : Nat) : Nat := dieBase n + 0x80200 + 0x400 * i + 4 * w
def F.STAT_SNAP_CNT (n i w : Nat) : Fld := ⟨A.STAT_SNAP n i w, 31, 0⟩
def A.CTX_CNT (n i w : Nat) : Nat := dieBase n + 0x81000 + 0x40 * i + 4 * w
def F.CTX_CNT_CNT (n i w : Nat) : Fld := ⟨A.CTX_CNT n i w, 31, 0⟩
def A.CTX_CNT_SNAP (n i w : Nat) : Nat := dieBase n + 0x85000 + 0x40 * i + 4 * w
def F.CTX_CNT_SNAP_CNT (n i w : Nat) : Fld := ⟨A.CTX_CNT_SNAP n i w, 31, 0⟩
def A.STAT_SNAP_INFO (n : Nat) : Nat := dieBase n + 0x8F000
def F.STAT_SNAP_INFO_SEQ (n : Nat) : Fld := ⟨A.STAT_SNAP_INFO n, 31, 0⟩
def A.STAT_SNAP_S (n : Nat) : Nat := dieBase n + 0x8F008
def F.STAT_SNAP_S_S (n : Nat) : Fld := ⟨A.STAT_SNAP_S n, 31, 0⟩
def A.STAT_SNAP_S_HI (n : Nat) : Nat := dieBase n + 0x8F00C
def F.STAT_SNAP_S_HI_S (n : Nat) : Fld := ⟨A.STAT_SNAP_S_HI n, 31, 0⟩
def A.D_CNT_BLK_STATUS (n : Nat) : Nat := dieBase n + 0x90000
def F.D_CNT_BLK_STATUS_WRITE_ERR (n : Nat) : Fld := ⟨A.D_CNT_BLK_STATUS n, 0, 0⟩
def F.D_CNT_BLK_STATUS_LIMIT_ERR (n : Nat) : Fld := ⟨A.D_CNT_BLK_STATUS n, 2, 2⟩
def A.D_CNT_OVF (n : Nat) : Nat := dieBase n + 0x90004
def F.D_CNT_OVF_PROG (n : Nat) : Fld := ⟨A.D_CNT_OVF n, 7, 0⟩
def F.D_CNT_OVF_CYCLE (n : Nat) : Fld := ⟨A.D_CNT_OVF n, 8, 8⟩
def A.D_CYCLE (n : Nat) : Nat := dieBase n + 0x90010
def F.D_CYCLE_CNT (n : Nat) : Fld := ⟨A.D_CYCLE n, 31, 0⟩
def A.D_CYCLE_HI (n : Nat) : Nat := dieBase n + 0x90014
def F.D_CYCLE_HI_CNT (n : Nat) : Fld := ⟨A.D_CYCLE_HI n, 31, 0⟩
def A.D_CYCLE_SNAP (n : Nat) : Nat := dieBase n + 0x90018
def F.D_CYCLE_SNAP_CNT (n : Nat) : Fld := ⟨A.D_CYCLE_SNAP n, 31, 0⟩
def A.D_CYCLE_SNAP_HI (n : Nat) : Nat := dieBase n + 0x9001C
def F.D_CYCLE_SNAP_HI_CNT (n : Nat) : Fld := ⟨A.D_CYCLE_SNAP_HI n, 31, 0⟩
def A.D_CNT_CFG (n w : Nat) : Nat := dieBase n + 0x90100 + 0x20 * w
def F.D_CNT_CFG_EVENT (n w : Nat) : Fld := ⟨A.D_CNT_CFG n w, 7, 0⟩
def F.D_CNT_CFG_MODE (n w : Nat) : Fld := ⟨A.D_CNT_CFG n w, 9, 8⟩
def F.D_CNT_CFG_ENABLE (n w : Nat) : Fld := ⟨A.D_CNT_CFG n w, 12, 12⟩
def F.D_CNT_CFG_OVF_EV (n w : Nat) : Fld := ⟨A.D_CNT_CFG n w, 13, 13⟩
def F.D_CNT_CFG_MODE_HELD (n w : Nat) : Fld := ⟨A.D_CNT_CFG n w, 15, 15⟩
def A.D_CNT (n w : Nat) : Nat := dieBase n + 0x90108 + 0x20 * w
def F.D_CNT_CNT (n w : Nat) : Fld := ⟨A.D_CNT n w, 31, 0⟩
def A.D_CNT_HI (n w : Nat) : Nat := dieBase n + 0x9010C + 0x20 * w
def F.D_CNT_HI_CNT (n w : Nat) : Fld := ⟨A.D_CNT_HI n w, 15, 0⟩
def A.D_CNT_SNAP (n w : Nat) : Nat := dieBase n + 0x90110 + 0x20 * w
def F.D_CNT_SNAP_CNT (n w : Nat) : Fld := ⟨A.D_CNT_SNAP n w, 31, 0⟩
def A.D_CNT_SNAP_HI (n w : Nat) : Nat := dieBase n + 0x90114 + 0x20 * w
def F.D_CNT_SNAP_HI_CNT (n w : Nat) : Fld := ⟨A.D_CNT_SNAP_HI n w, 15, 0⟩

end Sys2Proof.Machine
end

