-- ==== Sys2Proof/Machine/RegMap.lean ====
section
/-! DEFINITION. The register map of BAR0 (spec/19_register_index.md and the register tables of the chapters): banks, rows, fields, access codes. -/

namespace Sys2Proof.Machine

/-- Access codes of R12. -/
inductive Acc where
  | ro | rw | w1c | wo | sc | rwl | rwg
deriving DecidableEq, Repr

/-- One field of a register: bits [hi:lo] and its access code. -/
structure FieldRow where
  hi : Nat
  lo : Nat
  acc : Acc
deriving DecidableEq, Repr

/-- One row of a register table: offset in its bank, repetition, reset value, place in a multiword group (R14), whether it is epoch-schedulable (R37), whether the group is a time value (R4). -/
structure RegRow where
  off : Nat
  reset : Nat := 0
  fields : List FieldRow := []
  rep : Nat := 1
  repStride : Nat := 4
  gpos : Nat := 0
  gstep : Nat := 0
  gwords : Nat := 1
  sched : Bool := false
  time : Bool := false
deriving DecidableEq, Repr

/-- The banks of the register index. -/
inductive BankId where
  | gbl | ts | sc | rf | slot | sel | str | tm | tin | gn
  | band | ck | kpll | frac | opll | tout | bn | up | gr | hd
  | cr | er | kcnt | lmc | dc | dpll | port | lnk | steer | pcnt
  | node | adm | ctx | engc | eng | lv | calc | cal | rblk | rx
  | tx | tsq | stat | cxc | cxs | sni | dcnt
deriving DecidableEq, Repr

/-- A bank: base offset (from BAR0, or from the die base for a replicated answer-die bank), its strides and counts, the status register and GUARD of its block (R458, R459, R18). -/
structure Bank where
  id : BankId
  die : Bool := false
  base : Nat
  stride : Nat := 0
  n : Nat := 1
  stride2 : Nat := 0
  n2 : Nat := 1
  status : Nat
  guard : Option Nat := none
  rows : List RegRow
deriving DecidableEq, Repr

def rowsGBL : List RegRow := [
  { off := 0, reset := 0x4870, fields := [⟨31, 0, .ro⟩] }, -- DEVICE_ID (R458)
  { off := 8, fields := [⟨31, 0, .ro⟩] }, -- IMAGE_GEN (R406)
  { off := 0xC, fields := [⟨31, 0, .ro⟩] }, -- IMAGE_ID (R406)
  { off := 0x10, fields := [⟨0, 0, .w1c⟩, ⟨1, 1, .w1c⟩, ⟨2, 2, .w1c⟩, ⟨3, 3, .w1c⟩] }, -- GBL_STATUS (R5)
  { off := 0x14, fields := [⟨31, 0, .wo⟩] }, -- GUARD (R18)
  { off := 0x20, fields := [⟨31, 0, .ro⟩] }, -- FUSE_PCI_ID (R331)
  { off := 0x24, fields := [⟨23, 0, .ro⟩] }, -- FUSE_PCI_SUB (R331)
  { off := 0x28, fields := [⟨31, 0, .ro⟩], gwords := 2 }, -- FUSE_SERIAL (R458)
  { off := 0x2C, fields := [⟨31, 0, .ro⟩], gpos := 1, gwords := 2 }, -- FUSE_SERIAL_HI (R458)
  { off := 0x30, fields := [⟨31, 0, .ro⟩], rep := 4, repStride := 8 }, -- FUSE_LINKCAL (R24)
  { off := 0x34, fields := [⟨31, 0, .ro⟩], rep := 4, repStride := 8 }, -- FUSE_LINKCAL_1 (R24)
  { off := 0x200, reset := 8, fields := [⟨2, 0, .rw⟩, ⟨3, 3, .rw⟩, ⟨4, 4, .rw⟩, ⟨5, 5, .sc⟩] }, -- MODE_CTRL (R77)
  { off := 0x204, reset := 1, fields := [⟨2, 0, .ro⟩, ⟨4, 3, .ro⟩, ⟨7, 5, .ro⟩, ⟨8, 8, .ro⟩, ⟨9, 9, .ro⟩, ⟨10, 10, .ro⟩, ⟨15, 12, .ro⟩, ⟨16, 16, .w1c⟩] }, -- MODE_STATUS (R76)
  { off := 0x208, fields := [⟨31, 0, .rwl⟩], gwords := 2 }, -- MODE_EPOCH (R79)
  { off := 0x20C, fields := [⟨31, 0, .rwl⟩], gpos := 1, gwords := 2 }, -- MODE_EPOCH_HI (R79)
  { off := 0x210, fields := [⟨0, 0, .rwg⟩] }, -- RESET_CTRL (R82)
  { off := 0x214, fields := [⟨8, 0, .w1c⟩] }, -- RESET_CAUSE (R84)
  { off := 0x218, fields := [⟨0, 0, .ro⟩, ⟨1, 1, .ro⟩, ⟨2, 2, .ro⟩, ⟨3, 3, .ro⟩, ⟨7, 4, .ro⟩, ⟨31, 16, .ro⟩] }, -- BOOT_STATUS (R87)
  { off := 0x280, fields := [⟨3, 0, .rw⟩] }, -- DIE_CTRL (R416)
  { off := 0x284, reset := 0xAA, fields := [⟨7, 0, .ro⟩, ⟨11, 8, .ro⟩, ⟨15, 12, .w1c⟩, ⟨31, 16, .ro⟩] }, -- DIE_STATE (R416)
  { off := 0x300, fields := [⟨31, 0, .rwl⟩], gwords := 2 }, -- SUMMARY_ADDR (R424)
  { off := 0x304, fields := [⟨31, 0, .rwl⟩], gpos := 1, gwords := 2 }, -- SUMMARY_ADDR_HI (R424)
  { off := 0x308, fields := [⟨0, 0, .sc⟩] }, -- SUMMARY_GO (R424)
  { off := 0x30C, fields := [⟨0, 0, .ro⟩, ⟨7, 4, .ro⟩, ⟨31, 31, .w1c⟩] }, -- SUMMARY_STATUS (R424)
  { off := 0x310, fields := [⟨31, 0, .ro⟩] }, -- SUMMARY_SEQ (R424)
  { off := 0x380, fields := [⟨15, 0, .ro⟩, ⟨21, 16, .ro⟩, ⟨31, 31, .w1c⟩] }, -- FAULT_STATUS (R423)
  { off := 0x384, fields := [⟨31, 0, .ro⟩] }, -- FAULT_SEQ (R423)
  { off := 0x388, fields := [⟨4, 0, .rw⟩] }, -- FAULT_SEL (R423)
  { off := 0x3A0, fields := [⟨31, 0, .ro⟩], rep := 8, repStride := 4, gstep := 1, gwords := 8 }, -- FAULT_REC (R423)
  { off := 0x400, fields := [⟨0, 0, .ro⟩, ⟨1, 1, .ro⟩, ⟨2, 2, .ro⟩, ⟨15, 8, .ro⟩, ⟨23, 16, .ro⟩] }, -- POS_INFO (R59)
  { off := 0x404, fields := [⟨31, 0, .ro⟩] }, -- POS_ID (R59)
  { off := 0x408, fields := [⟨31, 0, .ro⟩] }, -- POS_GEN (R59)
  { off := 0x410, fields := [⟨31, 6, .rwl⟩], gwords := 2 }, -- EU_ADDR (R68)
  { off := 0x414, fields := [⟨31, 0, .rwl⟩], gpos := 1, gwords := 2 }, -- EU_ADDR_HI (R68)
  { off := 0x418, fields := [⟨21, 0, .rw⟩] }, -- EU_LEN (R68)
  { off := 0x420, fields := [⟨31, 0, .rwl⟩], gwords := 2 }, -- EU_EPOCH (R68)
  { off := 0x424, fields := [⟨31, 0, .rwl⟩], gpos := 1, gwords := 2 }, -- EU_EPOCH_HI (R68)
  { off := 0x428, fields := [⟨0, 0, .sc⟩, ⟨1, 1, .sc⟩, ⟨2, 2, .rw⟩] }, -- EU_CTRL (R68)
  { off := 0x42C, fields := [⟨1, 0, .ro⟩, ⟨3, 2, .ro⟩, ⟨11, 8, .ro⟩, ⟨25, 16, .ro⟩, ⟨31, 31, .w1c⟩] }, -- EU_STATUS (R74)
  { off := 0x600, fields := [⟨0, 0, .sc⟩, ⟨1, 1, .sc⟩, ⟨2, 2, .rw⟩, ⟨4, 3, .rw⟩, ⟨5, 5, .rw⟩] }, -- STAT_SNAP_CTRL (R246)
  { off := 0x604, fields := [⟨0, 0, .ro⟩, ⟨1, 1, .ro⟩, ⟨2, 2, .w1c⟩, ⟨7, 4, .ro⟩, ⟨31, 31, .w1c⟩] }, -- STAT_SNAP_STATUS (R248)
  { off := 0x608, fields := [⟨31, 0, .ro⟩] }, -- STAT_SNAP_SEQ (R246)
  { off := 0x610, fields := [⟨15, 0, .rwl⟩], gwords := 4 }, -- STAT_SNAP_TIME (R246)
  { off := 0x614, fields := [⟨29, 0, .rwl⟩], gpos := 1, gwords := 4 }, -- STAT_SNAP_TIME_NS (R246)
  { off := 0x618, fields := [⟨31, 0, .rwl⟩], gpos := 2, gwords := 4 }, -- STAT_SNAP_TIME_SEC_LO (R246)
  { off := 0x61C, fields := [⟨15, 0, .rwl⟩], gpos := 3, gwords := 4, time := true }, -- STAT_SNAP_TIME_SEC_HI (R246)
  { off := 0x620, fields := [⟨31, 0, .rwl⟩], gwords := 2 }, -- STAT_SNAP_RAW (R246)
  { off := 0x624, fields := [⟨31, 0, .rwl⟩], gpos := 1, gwords := 2 }, -- STAT_SNAP_RAW_HI (R246)
  { off := 0x800, fields := [⟨0, 0, .w1c⟩, ⟨1, 1, .ro⟩, ⟨2, 2, .w1c⟩, ⟨7, 4, .ro⟩, ⟨31, 31, .w1c⟩] }, -- NTS_STATUS (R300)
  { off := 0x804, reset := 0xE4, fields := [⟨1, 0, .ro⟩, ⟨3, 2, .ro⟩, ⟨5, 4, .ro⟩, ⟨7, 6, .ro⟩] }, -- NTS_ROLES (R298)
  { off := 0x808, fields := [⟨0, 0, .sc⟩, ⟨1, 1, .sc⟩] }, -- NTS_ROT_CTRL (R300)
  { off := 0x80C, fields := [⟨23, 0, .rw⟩] }, -- NTS_ROT_PERIOD (R300)
  { off := 0x810, reset := 0x15180, fields := [⟨23, 0, .rw⟩], sched := true }, -- NTS_OVERLAP (R300)
  { off := 0x818, fields := [⟨31, 0, .rwl⟩], gwords := 2 }, -- NTS_ROT_EPOCH (R300)
  { off := 0x81C, fields := [⟨31, 0, .rwl⟩], gpos := 1, gwords := 2 }, -- NTS_ROT_EPOCH_HI (R300)
  { off := 0x820, fields := [⟨31, 0, .ro⟩], gwords := 2 }, -- NTS_PREV_UNTIL (R300)
  { off := 0x824, fields := [⟨31, 0, .ro⟩], gpos := 1, gwords := 2 }, -- NTS_PREV_UNTIL_HI (R300)
  { off := 0x840, fields := [⟨31, 0, .rwl⟩], rep := 4, repStride := 0x10, gwords := 2, sched := true }, -- NTS_KEY (R301)
  { off := 0x844, fields := [⟨3, 0, .rwl⟩, ⟨8, 8, .rwl⟩], rep := 4, repStride := 0x10, gpos := 1, gwords := 2, sched := true }, -- NTS_KEY_1 (R301)
  { off := 0x848, fields := [⟨31, 0, .ro⟩], rep := 4, repStride := 0x10 }, -- NTS_KEY_2 (R298)
  { off := 0x84C, rep := 4, repStride := 0x10 }, -- NTS_KEY_3 (R298)
  { off := 0x1000, fields := [⟨31, 0, .w1c⟩], rep := 4, repStride := 4 }, -- EV_STATUS (R354)
  { off := 0x1010, fields := [⟨31, 0, .rw⟩], rep := 4, repStride := 4 }, -- EV_ENABLE (R355)
  { off := 0x1020, fields := [⟨0, 0, .w1c⟩] }, -- EV_BLK_STATUS (R355)
  { off := 0x1100, fields := [⟨1, 0, .rw⟩, ⟨13, 8, .rw⟩, ⟨16, 16, .ro⟩, ⟨17, 17, .ro⟩], rep := 128, repStride := 4 }] -- EV_ROUTE (R355)

def rowsTS : List RegRow := [
  { off := 0, fields := [⟨0, 0, .w1c⟩, ⟨1, 1, .w1c⟩, ⟨2, 2, .w1c⟩, ⟨3, 3, .w1c⟩] }, -- TS_STATUS (R110)
  { off := 4, fields := [⟨31, 0, .wo⟩] }, -- TS_GUARD (R18)
  { off := 0x10, fields := [⟨15, 0, .ro⟩], gwords := 3 }, -- RAW (R97)
  { off := 0x14, fields := [⟨31, 0, .ro⟩], gpos := 1, gwords := 3 }, -- RAW_LO (R97)
  { off := 0x18, fields := [⟨31, 0, .ro⟩], gpos := 2, gwords := 3 }, -- RAW_HI (R97)
  { off := 0x20, fields := [⟨0, 0, .sc⟩, ⟨1, 1, .ro⟩] }, -- SNAP_CTRL (R98)
  { off := 0x30, fields := [⟨15, 0, .ro⟩], gwords := 3 }, -- SNAP_RAW (R98)
  { off := 0x34, fields := [⟨31, 0, .ro⟩], gpos := 1, gwords := 3 }, -- SNAP_RAW_LO (R98)
  { off := 0x38, fields := [⟨31, 0, .ro⟩], gpos := 2, gwords := 3 }, -- SNAP_RAW_HI (R98)
  { off := 0x40, fields := [⟨31, 0, .ro⟩], rep := 4, repStride := 4, gstep := 1, gwords := 4 }, -- SNAP_A (R98)
  { off := 0x50, fields := [⟨31, 0, .ro⟩], rep := 4, repStride := 4, gstep := 1, gwords := 4 }, -- SNAP_B (R98)
  { off := 0x60, fields := [⟨31, 0, .ro⟩], rep := 4, repStride := 4, gstep := 1, gwords := 4 }, -- SNAP_SRV (R98)
  { off := 0x100, fields := [⟨0, 0, .rw⟩, ⟨1, 1, .rw⟩, ⟨2, 2, .rw⟩, ⟨3, 3, .sc⟩, ⟨4, 4, .sc⟩] }, -- CASTLE_CTRL (R122)
  { off := 0x104, fields := [⟨0, 0, .ro⟩, ⟨1, 1, .ro⟩, ⟨2, 2, .ro⟩, ⟨11, 8, .ro⟩, ⟨31, 31, .w1c⟩] }, -- CASTLE_STATUS (R122)
  { off := 0x108, reset := 0x32, fields := [⟨19, 0, .rw⟩] }, -- CASTLE_LIMIT (R122)
  { off := 0x110, fields := [⟨31, 0, .rwl⟩], gwords := 2 }, -- CASTLE_EPOCH (R122)
  { off := 0x114, fields := [⟨31, 0, .rwl⟩], gpos := 1, gwords := 2 }, -- CASTLE_EPOCH_HI (R122)
  { off := 0x118, fields := [⟨31, 0, .ro⟩], gwords := 2 }, -- CASTLE_BRIDGE (R121)
  { off := 0x11C, fields := [⟨31, 0, .ro⟩], gpos := 1, gwords := 2 }, -- CASTLE_BRIDGE_HI (R121)
  { off := 0x200, fields := [⟨15, 0, .rw⟩] }, -- UTC_BASE (R117)
  { off := 0x204, fields := [⟨15, 0, .ro⟩, ⟨16, 16, .ro⟩, ⟨18, 17, .ro⟩, ⟨19, 19, .w1c⟩, ⟨23, 20, .ro⟩, ⟨27, 24, .ro⟩] }, -- UTC_STATUS (R117)
  { off := 0x208, fields := [⟨0, 0, .rw⟩, ⟨1, 1, .rw⟩, ⟨2, 2, .sc⟩, ⟨3, 3, .sc⟩] }, -- LEAP_CTRL (R118)
  { off := 0x210, fields := [⟨31, 0, .rwl⟩], gwords := 2 }, -- LEAP_NEW_SEC (R118)
  { off := 0x214, fields := [⟨15, 0, .rwl⟩], gpos := 1, gwords := 2 }, -- LEAP_NEW_SEC_HI (R118)
  { off := 0x240, fields := [⟨31, 0, .ro⟩], rep := 8, repStride := 0x10 }, -- LEAP_TABLE_0 (R117)
  { off := 0x244, fields := [⟨15, 0, .ro⟩], rep := 8, repStride := 0x10 }, -- LEAP_TABLE_1 (R117)
  { off := 0x248, fields := [⟨15, 0, .ro⟩, ⟨16, 16, .ro⟩, ⟨17, 17, .ro⟩], rep := 8, repStride := 0x10 }, -- LEAP_TABLE_2 (R117)
  { off := 0x24C, rep := 8, repStride := 0x10 }, -- LEAP_TABLE_3 (R117)
  { off := 0x300, fields := [⟨1, 0, .rw⟩, ⟨2, 2, .rw⟩, ⟨3, 3, .sc⟩, ⟨5, 4, .ro⟩] }, -- CONV_CTRL (R107)
  { off := 0x304, fields := [⟨15, 0, .rwl⟩], gwords := 3 }, -- CONV_RAW (R107)
  { off := 0x308, fields := [⟨31, 0, .rwl⟩], gpos := 1, gwords := 3 }, -- CONV_RAW_LO (R107)
  { off := 0x30C, fields := [⟨31, 0, .rwl⟩], gpos := 2, gwords := 3 }, -- CONV_RAW_HI (R107)
  { off := 0x310, fields := [⟨31, 0, .ro⟩], rep := 4, repStride := 4, gstep := 1, gwords := 4 }] -- CONV_RESULT (R107)

def rowsSC : List RegRow := [
  { off := 0, fields := [⟨0, 0, .rw⟩, ⟨1, 1, .rw⟩, ⟨2, 2, .rw⟩, ⟨3, 3, .sc⟩, ⟨4, 4, .sc⟩] }, -- SC_CTRL (R109)
  { off := 4, fields := [⟨0, 0, .ro⟩, ⟨1, 1, .ro⟩, ⟨2, 2, .ro⟩, ⟨3, 3, .w1c⟩, ⟨7, 4, .ro⟩, ⟨31, 31, .w1c⟩] }, -- SC_STATUS (R113)
  { off := 8, reset := 0x3E8, fields := [⟨15, 0, .rw⟩] }, -- SET_INTERVAL (R105)
  { off := 0x10, fields := [⟨31, 0, .rwl⟩], gwords := 2 }, -- INCR (R110)
  { off := 0x14, reset := 0x1400000, fields := [⟨31, 0, .rwl⟩], gpos := 1, gwords := 2 }, -- INCR_HI (R110)
  { off := 0x18, fields := [⟨31, 0, .rwl⟩], gwords := 2 }, -- FREQ_ADJ (R110)
  { off := 0x1C, fields := [⟨31, 0, .rwl⟩], gpos := 1, gwords := 2 }, -- FREQ_ADJ_HI (R110)
  { off := 0x20, fields := [⟨31, 0, .rwl⟩], gwords := 2 }, -- APPLY_EPOCH (R105)
  { off := 0x24, fields := [⟨31, 0, .rwl⟩], gpos := 1, gwords := 2 }, -- APPLY_EPOCH_HI (R105)
  { off := 0x30, fields := [⟨31, 0, .rwl⟩], gwords := 2 }, -- SLEW_AMOUNT (R110)
  { off := 0x34, fields := [⟨31, 0, .rwl⟩], gpos := 1, gwords := 2 }, -- SLEW_AMOUNT_HI (R110)
  { off := 0x38, reset := 0x2710, fields := [⟨16, 0, .rw⟩] }, -- SLEW_RATE (R110)
  { off := 0x40, fields := [⟨31, 0, .ro⟩], gwords := 2 }, -- SLEW_REMAIN (R110)
  { off := 0x44, fields := [⟨31, 0, .ro⟩], gpos := 1, gwords := 2 }, -- SLEW_REMAIN_HI (R110)
  { off := 0x50, fields := [⟨31, 0, .rwl⟩], gwords := 2 }, -- STEP_REL (R114)
  { off := 0x54, fields := [⟨31, 0, .rwg⟩], gpos := 1, gwords := 2 }, -- STEP_REL_HI (R114)
  { off := 0x60, fields := [⟨15, 0, .rwl⟩], gwords := 4 }, -- STEP_ABS (R114)
  { off := 0x64, fields := [⟨29, 0, .rwl⟩], gpos := 1, gwords := 4 }, -- STEP_ABS_NS (R114)
  { off := 0x68, fields := [⟨31, 0, .rwl⟩], gpos := 2, gwords := 4 }, -- STEP_ABS_SEC_LO (R114)
  { off := 0x6C, fields := [⟨15, 0, .rwg⟩], gpos := 3, gwords := 4, time := true }, -- STEP_ABS_SEC_HI (R114)
  { off := 0x100, fields := [⟨4, 0, .rw⟩] }, -- JRNL_SEL (R106)
  { off := 0x104, fields := [⟨31, 0, .ro⟩] }, -- JRNL_SEQ (R106)
  { off := 0x108, fields := [⟨31, 0, .ro⟩], gwords := 2 }, -- JRNL_EPOCH (R106)
  { off := 0x10C, fields := [⟨31, 0, .ro⟩], gpos := 1, gwords := 2 }, -- JRNL_EPOCH_HI (R106)
  { off := 0x110, fields := [⟨31, 0, .ro⟩], rep := 4, repStride := 4, gstep := 1, gwords := 4 }, -- JRNL_OFFSET (R106)
  { off := 0x120, fields := [⟨31, 0, .ro⟩], gwords := 2 }, -- JRNL_OFFSET_EXT (R106)
  { off := 0x124, fields := [⟨23, 0, .ro⟩], gpos := 1, gwords := 2 }, -- JRNL_OFFSET_EXT_HI (R106)
  { off := 0x128, fields := [⟨31, 0, .ro⟩], gwords := 2 }, -- JRNL_INCR (R106)
  { off := 0x12C, fields := [⟨31, 0, .ro⟩], gpos := 1, gwords := 2 }, -- JRNL_INCR_HI (R106)
  { off := 0x130, fields := [⟨7, 0, .ro⟩] }] -- JRNL_CAUSE (R103)

def rowsRF : List RegRow := [
  { off := 0, fields := [⟨0, 0, .w1c⟩, ⟨2, 2, .w1c⟩, ⟨3, 3, .w1c⟩] }, -- RF_STATUS (R144)
  { off := 0x10, fields := [⟨31, 0, .rw⟩] }, -- OSC_AGE_RATE (R139)
  { off := 0x14, fields := [⟨19, 0, .rw⟩] }, -- OSC_AGE_UNC (R142)
  { off := 0x18, fields := [⟨27, 0, .rw⟩] }, -- OSC_INIT_UNC (R142)
  { off := 0x1C, fields := [⟨27, 0, .rw⟩] }] -- OSC_TEMP_BAND (R142)

def rowsSLOT : List RegRow := [
  { off := 0, fields := [⟨3, 0, .ro⟩, ⟨15, 8, .ro⟩, ⟨31, 16, .ro⟩] }, -- SLOT_CFG (R125)
  { off := 4, fields := [⟨3, 0, .rw⟩, ⟨7, 4, .rw⟩], sched := true }, -- SLOT_RANK (R130)
  { off := 8, fields := [⟨11, 0, .rw⟩], sched := true }, -- SLOT_WTR (R132)
  { off := 0xC, fields := [⟨19, 0, .rw⟩], sched := true }, -- SLOT_BAND (R129)
  { off := 0x10, fields := [⟨19, 0, .rw⟩], sched := true }, -- SLOT_JUMP (R131)
  { off := 0x14, fields := [⟨19, 0, .rw⟩], sched := true }, -- SLOT_ACC (R141)
  { off := 0x18, fields := [⟨31, 0, .rwl⟩], gwords := 2, sched := true }, -- SLOT_COMP (R127)
  { off := 0x1C, fields := [⟨31, 0, .rwl⟩], gpos := 1, gwords := 2, sched := true }, -- SLOT_COMP_HI (R127)
  { off := 0x20, fields := [⟨0, 0, .sc⟩, ⟨1, 1, .sc⟩] }, -- SLOT_CMD (R133)
  { off := 0x24, fields := [⟨2, 0, .ro⟩, ⟨6, 4, .ro⟩, ⟨10, 8, .ro⟩, ⟨14, 12, .ro⟩, ⟨16, 16, .ro⟩, ⟨17, 17, .ro⟩, ⟨18, 18, .ro⟩, ⟨19, 19, .ro⟩, ⟨20, 20, .ro⟩, ⟨31, 31, .w1c⟩] }, -- SLOT_STATE (R129)
  { off := 0x28, fields := [⟨11, 0, .ro⟩, ⟨27, 16, .ro⟩] }, -- SLOT_WTR_REMAIN (R132)
  { off := 0x2C, fields := [⟨31, 0, .ro⟩] }, -- SLOT_FREQ (R127)
  { off := 0x30, fields := [⟨31, 0, .ro⟩], gwords := 2 }, -- SLOT_PHASE_A (R127)
  { off := 0x34, fields := [⟨31, 0, .ro⟩], gpos := 1, gwords := 2 }, -- SLOT_PHASE_A_HI (R127)
  { off := 0x38, fields := [⟨31, 0, .ro⟩], gwords := 2 }, -- SLOT_PHASE_B (R127)
  { off := 0x3C, fields := [⟨31, 0, .ro⟩], gpos := 1, gwords := 2 }] -- SLOT_PHASE_B_HI (R127)

def rowsSEL : List RegRow := [
  { off := 0, fields := [⟨0, 0, .rw⟩, ⟨1, 1, .rw⟩] }, -- SEL_CTRL (R144)
  { off := 4, reset := 0xF000, fields := [⟨2, 0, .ro⟩, ⟨3, 3, .ro⟩, ⟨7, 4, .ro⟩, ⟨9, 8, .ro⟩, ⟨15, 12, .ro⟩, ⟨31, 31, .w1c⟩] }, -- SEL_STATUS (R138)
  { off := 8, reset := 0x3E8, fields := [⟨19, 0, .rw⟩], sched := true }, -- PHASE_ACCEPT (R144)
  { off := 0xC, reset := 5, fields := [⟨15, 0, .rw⟩], sched := true }, -- FREQ_AGREE (R135)
  { off := 0x10, reset := 0x3E8, fields := [⟨23, 0, .rw⟩], sched := true }, -- HOLD_LIMIT (R143)
  { off := 0x14, reset := 0x64, fields := [⟨19, 0, .rw⟩], sched := true }, -- LOCK_WINDOW (R140)
  { off := 0x18, reset := 0xA, fields := [⟨9, 0, .rw⟩], sched := true }, -- SERVO_BW (R140)
  { off := 0x1C, fields := [⟨31, 0, .ro⟩] }, -- HOLD_REMAIN (R143)
  { off := 0x20, reset := 0xFFFFFFFF, fields := [⟨31, 0, .ro⟩] }, -- E_NOW (R145)
  { off := 0x24, fields := [⟨31, 0, .ro⟩] }, -- E_RATE (R145)
  { off := 0x28, reset := 0xFFFFFFFF, fields := [⟨31, 0, .rw⟩], sched := true }, -- HOST_BOUND (R146)
  { off := 0x30, fields := [⟨31, 0, .ro⟩], gwords := 2 }, -- HOLD_FREQ (R139)
  { off := 0x34, fields := [⟨31, 0, .ro⟩], gpos := 1, gwords := 2 }] -- HOLD_FREQ_HI (R139)

def rowsSTR : List RegRow := [
  { off := 0, fields := [⟨3, 0, .rw⟩, ⟨15, 8, .rw⟩, ⟨16, 16, .rw⟩, ⟨17, 17, .rw⟩, ⟨23, 20, .rw⟩, ⟨31, 24, .rw⟩] }, -- STR_CFG (R327)
  { off := 8, fields := [⟨31, 0, .rwl⟩], gwords := 2 }, -- STR_MASTER (R327)
  { off := 0xC, fields := [⟨31, 0, .rwl⟩], gpos := 1, gwords := 2 }, -- STR_MASTER_HI (R327)
  { off := 0x10, fields := [⟨15, 0, .rw⟩] }, -- STR_MASTER_PORT (R327)
  { off := 0x18, fields := [⟨31, 0, .rwl⟩], gwords := 2, sched := true }, -- STR_ASYM (R327)
  { off := 0x1C, fields := [⟨31, 0, .rwl⟩], gpos := 1, gwords := 2, sched := true }, -- STR_ASYM_HI (R327)
  { off := 0x20, fields := [⟨31, 0, .rwl⟩], gwords := 2, sched := true }, -- STR_CLASS (R329)
  { off := 0x24, fields := [⟨31, 0, .rwl⟩], gpos := 1, gwords := 2, sched := true }, -- STR_CLASS_HI (R329)
  { off := 0x28, fields := [⟨7, 0, .rw⟩, ⟨15, 8, .rw⟩, ⟨23, 16, .rw⟩] }, -- STR_REQ (R327)
  { off := 0x30, fields := [⟨0, 0, .ro⟩, ⟨1, 1, .ro⟩, ⟨15, 8, .ro⟩, ⟨16, 16, .w1c⟩] }, -- STR_STATUS (R329)
  { off := 0x38, fields := [⟨31, 0, .ro⟩], gwords := 2 }, -- STR_GM (R329)
  { off := 0x3C, fields := [⟨31, 0, .ro⟩], gpos := 1, gwords := 2 }, -- STR_GM_HI (R329)
  { off := 0x40, fields := [⟨31, 0, .ro⟩], gwords := 2 }, -- STR_DELAY (R328)
  { off := 0x44, fields := [⟨31, 0, .ro⟩], gpos := 1, gwords := 2 }, -- STR_DELAY_HI (R328)
  { off := 0x48, fields := [⟨31, 0, .ro⟩], gwords := 2 }, -- STR_OFS (R328)
  { off := 0x4C, fields := [⟨31, 0, .ro⟩], gpos := 1, gwords := 2 }] -- STR_OFS_HI (R328)

def rowsTM : List RegRow := [
  { off := 0, fields := [⟨0, 0, .w1c⟩, ⟨2, 2, .w1c⟩] }] -- TM_STATUS (R171)

def rowsIN : List RegRow := [
  { off := 0, fields := [⟨1, 0, .rw⟩, ⟨3, 2, .rw⟩, ⟨5, 4, .rw⟩, ⟨11, 8, .rw⟩] }, -- IN_CFG (R148)
  { off := 4, fields := [⟨9, 0, .rw⟩, ⟨31, 16, .rw⟩] }, -- IN_FILT (R149)
  { off := 8, fields := [⟨31, 0, .rw⟩] }, -- IN_COMP (R151)
  { off := 0xC, reset := 4, fields := [⟨0, 0, .rw⟩, ⟨2, 1, .ro⟩, ⟨3, 3, .ro⟩] }, -- IN_CTRL (R170)
  { off := 0x10, fields := [⟨0, 0, .ro⟩, ⟨1, 1, .ro⟩, ⟨2, 2, .w1c⟩, ⟨3, 3, .ro⟩, ⟨26, 16, .ro⟩] }, -- IN_STATUS (R153)
  { off := 0x20, reset := 0xF000, fields := [⟨1, 0, .rw⟩, ⟨3, 2, .rw⟩, ⟨4, 4, .rw⟩, ⟨10, 8, .rw⟩, ⟨15, 12, .rw⟩, ⟨16, 16, .rw⟩, ⟨17, 17, .rw⟩] }, -- MEAS_CFG (R157)
  { off := 0x24, reset := 0x3E8, fields := [⟨19, 0, .rw⟩] }, -- MEAS_GATE (R159)
  { off := 0x28, reset := 0x3E8, fields := [⟨24, 0, .rw⟩] }, -- MEAS_N (R168)
  { off := 0x2C, fields := [⟨31, 0, .rw⟩] }, -- MEAS_NOM (R166)
  { off := 0x30, reset := 0x3E8, fields := [⟨15, 0, .rw⟩] }, -- MEAS_RESID (R167)
  { off := 0x34, reset := 0xF4240, fields := [⟨31, 0, .rw⟩] }, -- MEAS_TIMEOUT (R164)
  { off := 0x38, fields := [⟨0, 0, .sc⟩, ⟨1, 1, .sc⟩, ⟨2, 2, .rw⟩, ⟨3, 3, .sc⟩] }, -- MEAS_CTRL (R171)
  { off := 0x3C, fields := [⟨0, 0, .ro⟩, ⟨1, 1, .ro⟩, ⟨2, 2, .ro⟩, ⟨7, 4, .ro⟩, ⟨12, 8, .ro⟩, ⟨16, 16, .w1c⟩, ⟨17, 17, .w1c⟩, ⟨31, 31, .w1c⟩] }, -- MEAS_STATUS (R171)
  { off := 0x40, fields := [⟨31, 0, .ro⟩] }, -- GLITCH_CNT (R149)
  { off := 0x44, fields := [⟨31, 0, .ro⟩] }, -- DEAD_CNT (R155)
  { off := 0x48, fields := [⟨31, 0, .ro⟩] }, -- ORPHAN_CNT (R164)
  { off := 0x4C, fields := [⟨31, 0, .ro⟩] }, -- NOSTOP_CNT (R164)
  { off := 0x50, fields := [⟨31, 0, .ro⟩] }, -- FIFO_DROP (R163)
  { off := 0x54, fields := [⟨31, 0, .ro⟩] }, -- RES_DROP (R169)
  { off := 0x58, fields := [⟨9, 0, .ro⟩, ⟨25, 16, .ro⟩] }, -- CAL_SPAN (R153)
  { off := 0x80, fields := [⟨31, 0, .ro⟩], rep := 4, repStride := 4, gstep := 1, gwords := 4 }, -- TS_W (R163)
  { off := 0xC0, fields := [⟨31, 0, .ro⟩], rep := 16, repStride := 4, gstep := 1, gwords := 16 }] -- RES_W (R169)

def rowsGN : List RegRow := [
  { off := 0, fields := [⟨0, 0, .w1c⟩, ⟨2, 2, .w1c⟩] }, -- GN_STATUS (R190)
  { off := 0x10, reset := 0x21F4, fields := [⟨0, 0, .rw⟩, ⟨2, 1, .ro⟩, ⟨3, 3, .ro⟩, ⟨6, 4, .rw⟩, ⟨8, 7, .rw⟩, ⟨10, 9, .rw⟩, ⟨12, 11, .rw⟩, ⟨13, 13, .rw⟩, ⟨14, 14, .sc⟩, ⟨15, 15, .sc⟩] }, -- GN_CTRL (R192)
  { off := 0x14, fields := [⟨1, 0, .ro⟩, ⟨2, 2, .ro⟩, ⟨3, 3, .ro⟩, ⟨4, 4, .ro⟩, ⟨5, 5, .ro⟩, ⟨7, 6, .ro⟩, ⟨15, 8, .ro⟩, ⟨31, 16, .ro⟩] }, -- GN_STATE (R185)
  { off := 0x18, fields := [⟨4, 0, .ro⟩, ⟨12, 8, .w1c⟩, ⟨31, 31, .w1c⟩] }, -- GN_SUSPECT (R191)
  { off := 0x1C, reset := 0x3C301F, fields := [⟨4, 0, .rw⟩, ⟨8, 8, .rw⟩, ⟨15, 12, .rw⟩, ⟨31, 16, .rw⟩] }, -- GN_CHK_CFG (R190)
  { off := 0x20, reset := 0xB404, fields := [⟨7, 0, .rw⟩, ⟨15, 8, .rw⟩] }, -- GN_CHK_CN0 (R190)
  { off := 0x24, reset := 0x64, fields := [⟨15, 0, .rw⟩] }, -- GN_CHK_TIME (R190)
  { off := 0x28, reset := 0x32, fields := [⟨15, 0, .rw⟩] }, -- GN_CHK_BAND (R190)
  { off := 0x2C, reset := 0x1E, fields := [⟨15, 0, .rw⟩] }, -- GN_CHK_RESID (R190)
  { off := 0x30, reset := 0xC, fields := [⟨7, 0, .rw⟩] }, -- GN_CHK_POWER (R190)
  { off := 0x34, reset := 0xA, fields := [⟨5, 0, .rw⟩] }, -- GN_HOLD (R187)
  { off := 0x38, reset := 0xE10, fields := [⟨15, 0, .rw⟩] }, -- GN_SURVEY (R185)
  { off := 0x40, fields := [⟨31, 0, .rwl⟩], gwords := 2 }, -- GN_CABLE (R184)
  { off := 0x44, fields := [⟨31, 0, .rwl⟩], gpos := 1, gwords := 2 }, -- GN_CABLE_HI (R184)
  { off := 0x48, reset := 0x3C0E10, fields := [⟨15, 0, .rw⟩, ⟨31, 16, .rw⟩] }, -- GN_DUTY (R193)
  { off := 0x200, fields := [⟨31, 0, .rwl⟩], gwords := 2 }, -- GN_POS_X (R185)
  { off := 0x204, fields := [⟨31, 0, .rwl⟩], gpos := 1, gwords := 2 }, -- GN_POS_X_HI (R185)
  { off := 0x208, fields := [⟨31, 0, .rwl⟩], gwords := 2 }, -- GN_POS_Y (R185)
  { off := 0x20C, fields := [⟨31, 0, .rwl⟩], gpos := 1, gwords := 2 }, -- GN_POS_Y_HI (R185)
  { off := 0x210, fields := [⟨31, 0, .rwl⟩], gwords := 2 }, -- GN_POS_Z (R185)
  { off := 0x214, fields := [⟨31, 0, .rwl⟩], gpos := 1, gwords := 2 }, -- GN_POS_Z_HI (R185)
  { off := 0x218, fields := [⟨23, 0, .ro⟩] }, -- GN_POS_UNC (R185)
  { off := 0x21C, fields := [⟨0, 0, .sc⟩] }, -- GN_POS_CMD (R185)
  { off := 0x280, fields := [⟨15, 0, .ro⟩], gwords := 10 }, -- SOL_RAW (R183)
  { off := 0x284, fields := [⟨31, 0, .ro⟩], gpos := 1, gwords := 10 }, -- SOL_RAW_LO (R183)
  { off := 0x288, fields := [⟨31, 0, .ro⟩], gpos := 2, gwords := 10 }, -- SOL_RAW_HI (R183)
  { off := 0x290, fields := [⟨31, 0, .ro⟩], rep := 4, repStride := 4, gpos := 4, gstep := 1, gwords := 10 }, -- SOL_TIME (R183)
  { off := 0x2A0, fields := [⟨31, 0, .ro⟩], gpos := 8, gwords := 10 }, -- SOL_DRIFT (R183)
  { off := 0x2A4, fields := [⟨31, 0, .ro⟩], gpos := 9, gwords := 10 }, -- SOL_UNC (R186)
  { off := 0x300, fields := [⟨6, 0, .rw⟩] }, -- CH_SEL (R180)
  { off := 0x304, fields := [⟨1, 0, .ro⟩, ⟨4, 2, .ro⟩, ⟨15, 8, .ro⟩, ⟨23, 16, .ro⟩, ⟨24, 24, .ro⟩, ⟨25, 25, .ro⟩] }, -- CH_INFO (R180)
  { off := 0x308, fields := [⟨15, 0, .ro⟩, ⟨23, 16, .ro⟩] }, -- CH_MP (R182)
  { off := 0x400, fields := [⟨0, 0, .ro⟩, ⟨1, 1, .ro⟩, ⟨15, 8, .ro⟩, ⟨31, 16, .ro⟩] }, -- HOT_STATUS (R195)
  { off := 0x404, fields := [⟨0, 0, .sc⟩, ⟨1, 1, .sc⟩] }] -- HOT_CMD (R195)

def rowsBAND : List RegRow := [
  { off := 0, fields := [⟨15, 0, .rw⟩, ⟨16, 16, .rw⟩] }, -- IF_CFG (R173)
  { off := 4, reset := 0x100280, fields := [⟨11, 0, .rw⟩, ⟨31, 16, .rw⟩] }, -- AGC_CFG (R176)
  { off := 8, fields := [⟨11, 0, .ro⟩, ⟨31, 16, .ro⟩] }, -- AGC_STATUS (R176)
  { off := 0xC, reset := 0x280000, fields := [⟨7, 0, .ro⟩, ⟨8, 8, .ro⟩, ⟨9, 9, .sc⟩, ⟨23, 16, .rw⟩, ⟨24, 24, .ro⟩] }, -- JAM (R178)
  { off := 0x10, fields := [⟨31, 0, .rwl⟩], gwords := 2 }, -- RF_DELAY (R184)
  { off := 0x14, fields := [⟨31, 0, .rwl⟩], gpos := 1, gwords := 2 }, -- RF_DELAY_HI (R184)
  { off := 0x18, reset := 0x3C1F, fields := [⟨3, 0, .rw⟩, ⟨5, 4, .rw⟩, ⟨15, 8, .rw⟩] }, -- NOTCH_CFG (R177)
  { off := 0x20, fields := [⟨23, 0, .ro⟩, ⟨30, 24, .ro⟩, ⟨31, 31, .ro⟩], rep := 4, repStride := 4 }] -- NOTCH (R177)

def rowsCK : List RegRow := [
  { off := 0, fields := [⟨0, 0, .w1c⟩, ⟨1, 1, .w1c⟩, ⟨2, 2, .w1c⟩] }, -- CK_STATUS (R200)
  { off := 4, fields := [⟨31, 0, .wo⟩] }, -- CK_GUARD (R18)
  { off := 0x10, fields := [⟨0, 0, .ro⟩, ⟨1, 1, .ro⟩, ⟨3, 2, .ro⟩, ⟨4, 4, .ro⟩, ⟨16, 16, .w1c⟩] }] -- OSC_STATUS (R197)

def rowsKPLL : List RegRow := [
  { off := 0, fields := [⟨0, 0, .ro⟩, ⟨1, 1, .ro⟩, ⟨2, 2, .ro⟩, ⟨3, 3, .ro⟩, ⟨4, 4, .ro⟩, ⟨11, 8, .ro⟩, ⟨16, 16, .w1c⟩, ⟨17, 17, .w1c⟩, ⟨18, 18, .w1c⟩] }, -- PLL_STATUS (R200)
  { off := 4, reset := 0xC80064, fields := [⟨9, 0, .rw⟩, ⟨25, 16, .rw⟩] }, -- PLL_TOL (R200)
  { off := 8, fields := [⟨1, 0, .rw⟩, ⟨8, 4, .rw⟩] }, -- PLL_SSC (R209)
  { off := 0xC, fields := [⟨31, 0, .ro⟩] }, -- PLL_DEV (R200)
  { off := 0x10, fields := [⟨15, 0, .ro⟩] }] -- PLL_UNLOCKS (R200)

def rowsFRAC : List RegRow := [
  { off := 0, fields := [⟨1, 0, .rw⟩] }, -- FRAC_CTRL (R210)
  { off := 4, fields := [⟨31, 0, .ro⟩] }, -- FRAC_FREQ (R210)
  { off := 8, fields := [⟨0, 0, .ro⟩, ⟨1, 1, .ro⟩] }] -- FRAC_STATUS (R210)

def rowsOPLL : List RegRow := [
  { off := 0, fields := [⟨1, 0, .rw⟩, ⟨2, 2, .rw⟩] }, -- OPLL_CFG (R211)
  { off := 4, fields := [⟨0, 0, .ro⟩, ⟨1, 1, .ro⟩, ⟨2, 2, .ro⟩, ⟨3, 3, .ro⟩, ⟨7, 4, .ro⟩, ⟨31, 31, .w1c⟩] }, -- OPLL_STATUS (R212)
  { off := 8, fields := [⟨31, 0, .rwg⟩] }, -- OPLL_PSTEP (R212)
  { off := 0xC, fields := [⟨31, 0, .ro⟩] }, -- OPLL_OFS (R211)
  { off := 0x10, fields := [⟨31, 0, .ro⟩], gwords := 2 }, -- OPLL_REMAIN (R213)
  { off := 0x14, fields := [⟨31, 0, .ro⟩], gpos := 1, gwords := 2 }] -- OPLL_REMAIN_HI (R213)

def rowsOUT : List RegRow := [
  { off := 0, reset := 0x80, fields := [⟨1, 0, .rw⟩, ⟨2, 2, .rw⟩, ⟨5, 4, .rw⟩, ⟨6, 6, .rw⟩, ⟨7, 7, .rw⟩] }, -- OUT_CFG (R215)
  { off := 4, reset := 4, fields := [⟨0, 0, .rw⟩, ⟨2, 1, .ro⟩, ⟨3, 3, .ro⟩] }, -- OUT_CTRL (R217)
  { off := 8, reset := 0x64, fields := [⟨18, 0, .rw⟩] }, -- OUT_WIDTH (R215)
  { off := 0xC, reset := 1, fields := [⟨23, 0, .rw⟩] }, -- OUT_FREQ (R215)
  { off := 0x10, fields := [⟨31, 0, .rw⟩] }, -- OUT_DELAY (R211)
  { off := 0x14, fields := [⟨2, 0, .rw⟩, ⟨3, 3, .rw⟩, ⟨4, 4, .rw⟩, ⟨14, 8, .rw⟩, ⟨16, 16, .rw⟩, ⟨17, 17, .rw⟩] }, -- OUT_IRIG (R220)
  { off := 0x18, fields := [⟨26, 0, .rw⟩] }, -- OUT_IRIG_CF (R220)
  { off := 0x1C, fields := [⟨0, 0, .ro⟩, ⟨1, 1, .ro⟩, ⟨7, 4, .ro⟩, ⟨10, 8, .ro⟩] }] -- OUT_STATUS (R218)

def rowsBN : List RegRow := [
  { off := 0, fields := [⟨0, 0, .w1c⟩, ⟨2, 2, .w1c⟩] }, -- BN_STATUS (R362)
  { off := 0x10, fields := [⟨2, 0, .rw⟩] }, -- BN_CFG (R362)
  { off := 0x14, reset := 1, fields := [⟨0, 0, .rw⟩, ⟨2, 1, .ro⟩, ⟨3, 3, .ro⟩, ⟨4, 4, .sc⟩] }, -- BN_CTRL (R372)
  { off := 0x18, fields := [⟨0, 0, .ro⟩, ⟨1, 1, .ro⟩, ⟨15, 8, .ro⟩, ⟨23, 16, .ro⟩, ⟨31, 31, .w1c⟩] }, -- BN_OP (R372)
  { off := 0x1C, reset := 0x400, fields := [⟨10, 0, .ro⟩] }, -- BN_SLOTS (R362)
  { off := 0x100, fields := [⟨0, 0, .w1c⟩, ⟨1, 1, .w1c⟩, ⟨2, 2, .w1c⟩, ⟨3, 3, .w1c⟩] }, -- KS_ALERT (R376)
  { off := 0x200, fields := [⟨3, 0, .ro⟩, ⟨13, 8, .ro⟩, ⟨16, 16, .ro⟩], rep := 16, repStride := 4 }, -- KS_SLOT (R374)
  { off := 0x400, fields := [⟨31, 0, .ro⟩], rep := 12, repStride := 4 }, -- FUSE_VENDOR_HASH (R380)
  { off := 0x440, fields := [⟨31, 0, .ro⟩], rep := 12, repStride := 4 }, -- FUSE_CUSTOMER_HASH (R380)
  { off := 0x480, fields := [⟨31, 0, .ro⟩], rep := 8, repStride := 4 }, -- FUSE_MIN_GEN (R380)
  { off := 0x4A0, reset := 4, fields := [⟨1, 0, .ro⟩, ⟨2, 2, .ro⟩, ⟨16, 8, .ro⟩, ⟨24, 24, .ro⟩] }, -- FUSE_STATE (R380)
  { off := 0x8000, fields := [⟨31, 0, .rw⟩], rep := 8192, repStride := 4 }] -- BN_WINDOW (R363)

def rowsUP : List RegRow := [
  { off := 0, fields := [⟨0, 0, .w1c⟩, ⟨2, 2, .w1c⟩] }, -- UPD_BLK_STATUS (R402)
  { off := 0x10, fields := [⟨1, 0, .ro⟩, ⟨3, 2, .ro⟩, ⟨4, 4, .ro⟩, ⟨5, 5, .ro⟩, ⟨24, 16, .ro⟩, ⟨31, 27, .ro⟩] }, -- UPD_SESSION (R400)
  { off := 0x14, fields := [⟨0, 0, .ro⟩, ⟨2, 1, .ro⟩, ⟨8, 4, .ro⟩, ⟨24, 16, .ro⟩, ⟨31, 31, .w1c⟩] }, -- UPD_FWD (R405)
  { off := 0x20, fields := [⟨2, 0, .ro⟩, ⟨3, 3, .ro⟩, ⟨4, 4, .ro⟩], rep := 4, repStride := 0x10 }, -- UPD_BANK_0 (R397)
  { off := 0x24, fields := [⟨31, 0, .ro⟩], rep := 4, repStride := 0x10 }, -- UPD_BANK_1 (R397)
  { off := 0x28, fields := [⟨31, 0, .ro⟩], rep := 4, repStride := 0x10 }, -- UPD_BANK_2 (R397)
  { off := 0x2C, fields := [⟨31, 0, .ro⟩], rep := 4, repStride := 0x10 }, -- UPD_BANK_3 (R397)
  { off := 0x60, reset := 0x258, fields := [⟨15, 0, .rw⟩] }, -- TRIAL_HOLD (R407)
  { off := 0x64, fields := [⟨15, 0, .ro⟩] }, -- TRIAL_REMAIN (R407)
  { off := 0x68, fields := [⟨15, 0, .ro⟩, ⟨16, 16, .w1c⟩, ⟨17, 17, .ro⟩] }, -- SET_STATUS (R409)
  { off := 0x6C, fields := [⟨31, 0, .ro⟩] }, -- HDR_SEQ (R397)
  { off := 0x70, fields := [⟨7, 0, .ro⟩, ⟨8, 8, .ro⟩] }, -- SPI_INFO (R396)
  { off := 0x200, fields := [⟨5, 0, .ro⟩, ⟨16, 16, .w1c⟩] }, -- GR_EVQ_STATUS (R393)
  { off := 0x220, fields := [⟨31, 0, .ro⟩], rep := 8, repStride := 4, gstep := 1, gwords := 8 }] -- GR_EVQ_W (R393)

def rowsGR : List RegRow := [
  { off := 0, reset := 9, fields := [⟨0, 0, .rw⟩, ⟨2, 1, .rw⟩, ⟨3, 3, .rw⟩] }, -- GR_PCFG (R389)
  { off := 4, fields := [⟨0, 0, .ro⟩, ⟨1, 1, .ro⟩, ⟨4, 2, .ro⟩, ⟨5, 5, .ro⟩, ⟨11, 8, .ro⟩, ⟨16, 16, .w1c⟩] }, -- GR_PSTATUS (R392)
  { off := 8, fields := [⟨31, 0, .rw⟩] }, -- GR_RX_ASYM (R389)
  { off := 0xC, fields := [⟨31, 0, .rw⟩] }, -- GR_TX_ASYM (R389)
  { off := 0x10, reset := 0x3E8, fields := [⟨19, 0, .rw⟩] }, -- GR_CMP_UNC (R391)
  { off := 0x18, fields := [⟨31, 0, .ro⟩], gwords := 2 }, -- GR_PEER_ID (R392)
  { off := 0x1C, fields := [⟨31, 0, .ro⟩], gpos := 1, gwords := 2 }, -- GR_PEER_ID_HI (R392)
  { off := 0x20, fields := [⟨31, 0, .ro⟩], gwords := 2 }, -- GR_OFS (R391)
  { off := 0x24, fields := [⟨31, 0, .ro⟩], gpos := 1, gwords := 2 }, -- GR_OFS_HI (R391)
  { off := 0x28, fields := [⟨31, 0, .ro⟩], gwords := 2 }, -- GR_DELAY (R391)
  { off := 0x2C, fields := [⟨31, 0, .ro⟩], gpos := 1, gwords := 2 }, -- GR_DELAY_HI (R391)
  { off := 0x30, fields := [⟨31, 0, .ro⟩] }] -- GR_ERR (R386)

def rowsHD : List RegRow := [
  { off := 0, fields := [⟨0, 0, .w1c⟩, ⟨2, 2, .w1c⟩, ⟨3, 3, .w1c⟩, ⟨4, 4, .w1c⟩] }, -- HD_STATUS (R333)
  { off := 4, fields := [⟨2, 0, .ro⟩, ⟨7, 4, .ro⟩, ⟨8, 8, .ro⟩, ⟨9, 9, .ro⟩] }, -- PCIE_STATUS (R331)
  { off := 0x10, fields := [⟨0, 0, .rw⟩, ⟨7, 4, .rw⟩] }, -- BAR2_CTRL (R334)
  { off := 0x18, fields := [⟨31, 12, .rwl⟩], gwords := 2 }, -- BAR2_BASE (R334)
  { off := 0x1C, fields := [⟨31, 0, .rwl⟩], gpos := 1, gwords := 2 }] -- BAR2_BASE_HI (R334)

def rowsCR : List RegRow := [
  { off := 0, fields := [⟨31, 6, .rwl⟩], gwords := 2 }, -- CMDR_BASE (R336)
  { off := 4, fields := [⟨31, 0, .rwl⟩], gpos := 1, gwords := 2 }, -- CMDR_BASE_HI (R336)
  { off := 8, reset := 0x806, fields := [⟨4, 0, .rw⟩] }, -- CMDR_CFG (R336)
  { off := 0xC, reset := 4, fields := [⟨0, 0, .rw⟩, ⟨2, 1, .ro⟩, ⟨3, 3, .ro⟩, ⟨8, 8, .w1c⟩, ⟨9, 9, .w1c⟩] }, -- CMDR_CTRL (R337)
  { off := 0x10, fields := [⟨15, 0, .ro⟩] }, -- CMDR_HEAD (R336)
  { off := 0x14, fields := [⟨15, 0, .rw⟩] }, -- CMDR_TAIL (R336)
  { off := 0x18, reset := 0x100, fields := [⟨5, 0, .rw⟩, ⟨7, 7, .rw⟩, ⟨15, 8, .rw⟩, ⟨31, 16, .rw⟩] }, -- CMDR_IRQ (R347)
  { off := 0x20, fields := [⟨31, 0, .ro⟩] }, -- CMDR_FRAMES (R336)
  { off := 0x24, fields := [⟨31, 0, .ro⟩] }, -- CMDR_NOBUF (R336)
  { off := 0x28, fields := [⟨31, 0, .ro⟩] }] -- CMDR_DISCARD (R336)

def rowsER : List RegRow := [
  { off := 0, fields := [⟨31, 6, .rwl⟩], gwords := 2 }, -- EVR_BASE (R336)
  { off := 4, fields := [⟨31, 0, .rwl⟩], gpos := 1, gwords := 2 }, -- EVR_BASE_HI (R336)
  { off := 8, reset := 0x806, fields := [⟨4, 0, .rw⟩] }, -- EVR_CFG (R336)
  { off := 0xC, reset := 4, fields := [⟨0, 0, .rw⟩, ⟨2, 1, .ro⟩, ⟨3, 3, .ro⟩, ⟨8, 8, .w1c⟩, ⟨9, 9, .w1c⟩] }, -- EVR_CTRL (R337)
  { off := 0x10, fields := [⟨15, 0, .ro⟩] }, -- EVR_HEAD (R336)
  { off := 0x14, fields := [⟨15, 0, .rw⟩] }, -- EVR_TAIL (R336)
  { off := 0x18, reset := 0x100, fields := [⟨5, 0, .rw⟩, ⟨7, 7, .rw⟩, ⟨15, 8, .rw⟩, ⟨31, 16, .rw⟩] }, -- EVR_IRQ (R347)
  { off := 0x20, fields := [⟨31, 0, .ro⟩] }, -- EVR_FRAMES (R336)
  { off := 0x24, fields := [⟨31, 0, .ro⟩] }, -- EVR_NOBUF (R336)
  { off := 0x28, fields := [⟨31, 0, .ro⟩] }] -- EVR_DISCARD (R336)

def rowsKCNT : List RegRow := [
  { off := 0, fields := [⟨0, 0, .w1c⟩, ⟨2, 2, .w1c⟩] }, -- K_CNT_BLK_STATUS (R430)
  { off := 4, fields := [⟨3, 0, .w1c⟩, ⟨8, 8, .w1c⟩] }, -- K_CNT_OVF (R430)
  { off := 0x10, fields := [⟨31, 0, .ro⟩], gwords := 2 }, -- K_CYCLE (R430)
  { off := 0x14, fields := [⟨31, 0, .ro⟩], gpos := 1, gwords := 2 }, -- K_CYCLE_HI (R430)
  { off := 0x18, fields := [⟨31, 0, .ro⟩], gwords := 2 }, -- K_CYCLE_SNAP (R430)
  { off := 0x1C, fields := [⟨31, 0, .ro⟩], gpos := 1, gwords := 2 }, -- K_CYCLE_SNAP_HI (R430)
  { off := 0x100, fields := [⟨7, 0, .rw⟩, ⟨9, 8, .rw⟩, ⟨12, 12, .rw⟩, ⟨13, 13, .rw⟩, ⟨15, 15, .ro⟩], rep := 4, repStride := 0x20 }, -- K_CNT_CFG (R430)
  { off := 0x108, fields := [⟨31, 0, .rwl⟩], rep := 4, repStride := 0x20, gwords := 2 }, -- K_CNT (R430)
  { off := 0x10C, fields := [⟨15, 0, .rwl⟩], rep := 4, repStride := 0x20, gpos := 1, gwords := 2 }, -- K_CNT_HI (R430)
  { off := 0x110, fields := [⟨31, 0, .ro⟩], rep := 4, repStride := 0x20, gwords := 2 }, -- K_CNT_SNAP (R430)
  { off := 0x114, fields := [⟨15, 0, .ro⟩], rep := 4, repStride := 0x20, gpos := 1, gwords := 2 }] -- K_CNT_SNAP_HI (R430)

def rowsLMC : List RegRow := [
  { off := 0, fields := [⟨1, 0, .ro⟩, ⟨2, 2, .ro⟩] }, -- LMC_STATUS (R86)
  { off := 0x10, fields := [⟨31, 0, .ro⟩], rep := 2, repStride := 4 }, -- LMC_CE (R420)
  { off := 0x20, fields := [⟨31, 0, .ro⟩], rep := 2, repStride := 4 }, -- LMC_UE (R420)
  { off := 0x40, fields := [⟨0, 0, .ro⟩, ⟨1, 1, .ro⟩, ⟨2, 2, .ro⟩, ⟨12, 8, .ro⟩, ⟨20, 16, .ro⟩, ⟨24, 24, .w1c⟩], rep := 10, repStride := 4 }] -- LMC_LINK (R22)

def rowsDC : List RegRow := [
  { off := 0, fields := [⟨3, 0, .ro⟩, ⟨6, 4, .ro⟩, ⟨10, 8, .ro⟩] }, -- DIE_INFO (R57)
  { off := 4, fields := [⟨3, 0, .ro⟩, ⟨7, 4, .ro⟩, ⟨23, 16, .ro⟩] }, -- ENG_FAULT (R414)
  { off := 8, fields := [⟨31, 0, .ro⟩] }, -- ENG_LOST (R413)
  { off := 0x10, fields := [⟨7, 0, .rw⟩] }, -- FB_SEL (R418)
  { off := 0x14, fields := [⟨31, 0, .ro⟩] }, -- FB_RATE (R418)
  { off := 0x18, fields := [⟨15, 0, .ro⟩] }, -- FB_BURST (R418)
  { off := 0x100, fields := [⟨0, 0, .ro⟩, ⟨1, 1, .ro⟩, ⟨2, 2, .ro⟩, ⟨3, 3, .ro⟩, ⟨15, 8, .ro⟩, ⟨16, 16, .w1c⟩] }, -- REPLICA_STATUS (R27)
  { off := 0x104, fields := [⟨31, 0, .ro⟩] }, -- REPLICA_RESID (R26)
  { off := 0x108, fields := [⟨31, 0, .ro⟩] }, -- REPLICA_DELAY (R24)
  { off := 0x10C, fields := [⟨0, 0, .ro⟩, ⟨1, 1, .ro⟩, ⟨2, 2, .ro⟩, ⟨12, 8, .ro⟩, ⟨20, 16, .ro⟩, ⟨24, 24, .w1c⟩] }, -- LINK_STATUS_DL (R22)
  { off := 0x240, fields := [⟨31, 0, .ro⟩], gwords := 2 }, -- ENG_FB_EPOCH (R207)
  { off := 0x244, fields := [⟨31, 0, .ro⟩], gpos := 1, gwords := 2 }] -- ENG_FB_EPOCH_HI (R207)

def rowsDPLL : List RegRow := [
  { off := 0, fields := [⟨0, 0, .ro⟩, ⟨1, 1, .ro⟩, ⟨2, 2, .ro⟩, ⟨3, 3, .ro⟩, ⟨4, 4, .ro⟩, ⟨11, 8, .ro⟩, ⟨16, 16, .w1c⟩, ⟨17, 17, .w1c⟩, ⟨18, 18, .w1c⟩] }, -- DPLL_STATUS (R200)
  { off := 4, reset := 0xC80064, fields := [⟨9, 0, .rw⟩, ⟨25, 16, .rw⟩] }, -- DPLL_TOL (R200)
  { off := 8, fields := [⟨1, 0, .rw⟩, ⟨8, 4, .rw⟩] }, -- DPLL_SSC (R209)
  { off := 0xC, fields := [⟨31, 0, .ro⟩] }, -- DPLL_DEV (R200)
  { off := 0x10, fields := [⟨15, 0, .ro⟩] }] -- DPLL_UNLOCKS (R200)

def rowsPORT : List RegRow := [
  { off := 0, fields := [⟨0, 0, .w1c⟩, ⟨2, 2, .w1c⟩] }, -- PORT_STATUS (R237)
  { off := 4, fields := [⟨0, 0, .ro⟩, ⟨4, 1, .ro⟩] }] -- PORT_MODE (R224)

def rowsLNK : List RegRow := [
  { off := 0, fields := [⟨2, 0, .ro⟩, ⟨3, 3, .ro⟩, ⟨5, 4, .ro⟩, ⟨6, 6, .ro⟩, ⟨11, 8, .ro⟩, ⟨15, 12, .ro⟩] }, -- LINK_CFG (R224)
  { off := 4, reset := 4, fields := [⟨0, 0, .rw⟩, ⟨2, 1, .ro⟩, ⟨3, 3, .ro⟩, ⟨4, 4, .sc⟩] }, -- LINK_CTRL (R227)
  { off := 8, fields := [⟨0, 0, .ro⟩, ⟨1, 1, .ro⟩, ⟨2, 2, .ro⟩, ⟨3, 3, .ro⟩, ⟨4, 4, .ro⟩, ⟨5, 5, .ro⟩, ⟨6, 6, .ro⟩, ⟨7, 7, .ro⟩, ⟨16, 16, .w1c⟩, ⟨17, 17, .w1c⟩, ⟨18, 18, .w1c⟩] }, -- LINK_STATUS (R228)
  { off := 0xC, fields := [⟨15, 0, .rw⟩], sched := true }, -- LINK_TPID (R231)
  { off := 0x10, fields := [⟨2, 0, .rw⟩] }, -- LINK_HOST_RING (R242)
  { off := 0x14, fields := [⟨31, 0, .ro⟩] }, -- RX_SKEW (R235)
  { off := 0x18, fields := [⟨31, 0, .rw⟩], sched := true }, -- RX_ASYM (R237)
  { off := 0x1C, fields := [⟨31, 0, .rw⟩] }, -- TX_ASYM (R237)
  { off := 0x20, fields := [⟨31, 0, .ro⟩], gwords := 2 }, -- GRID_ORIGIN (R239)
  { off := 0x24, fields := [⟨31, 0, .ro⟩], gpos := 1, gwords := 2 }, -- GRID_ORIGIN_HI (R239)
  { off := 0x28, fields := [⟨31, 0, .ro⟩] }, -- GRID_ERR (R240)
  { off := 0x30, fields := [⟨1, 0, .rw⟩, ⟨4, 2, .rw⟩, ⟨5, 5, .rw⟩] }, -- LINK_TEST (R249)
  { off := 0x34, fields := [⟨31, 0, .ro⟩], rep := 4, repStride := 4 }] -- PRBS_ERR (R249)

def rowsSTEER : List RegRow := [
  { off := 0, fields := [⟨0, 0, .rwl⟩, ⟨1, 1, .rwl⟩, ⟨7, 4, .rwl⟩, ⟨15, 8, .rwl⟩, ⟨18, 16, .rwl⟩], gwords := 6, sched := true }, -- RULE_0 (R243)
  { off := 4, fields := [⟨9, 0, .rwl⟩], gpos := 1, gwords := 6, sched := true }, -- RULE_1 (R243)
  { off := 8, fields := [⟨15, 0, .rwl⟩, ⟨27, 16, .rwl⟩, ⟨30, 28, .rwl⟩], gpos := 2, gwords := 6, sched := true }, -- RULE_2 (R243)
  { off := 0xC, fields := [⟨15, 0, .rwl⟩, ⟨23, 16, .rwl⟩], gpos := 3, gwords := 6, sched := true }, -- RULE_3 (R243)
  { off := 0x10, fields := [⟨15, 0, .rwl⟩, ⟨31, 16, .rwl⟩], gpos := 4, gwords := 6, sched := true }, -- RULE_4 (R243)
  { off := 0x14, fields := [⟨11, 0, .rwl⟩], gpos := 5, gwords := 6, sched := true }, -- RULE_5 (R243)
  { off := 0x18, fields := [⟨31, 0, .ro⟩] }, -- RULE_6 (R243)
  { off := 0x1C }] -- RULE_7 (R243)

def rowsPCNT : List RegRow := [
  { off := 0, fields := [⟨31, 0, .ro⟩] }, -- PARSE_DROP (R253)
  { off := 4, fields := [⟨31, 0, .ro⟩] }, -- L3_ERR (R254)
  { off := 8, fields := [⟨31, 0, .ro⟩] }] -- L4_ERR (R254)

def rowsNODE : List RegRow := [
  { off := 0, fields := [⟨0, 0, .rwl⟩, ⟨7, 1, .rwl⟩, ⟨9, 8, .rwl⟩, ⟨11, 10, .rwl⟩, ⟨18, 12, .rwl⟩, ⟨19, 19, .rwl⟩, ⟨20, 20, .rwl⟩, ⟨22, 21, .rwl⟩], gwords := 16, sched := true }, -- NODE_0 (R253)
  { off := 4, fields := [⟨7, 0, .rwl⟩, ⟨9, 8, .rwl⟩], gpos := 1, gwords := 16, sched := true }, -- NODE_1 (R253)
  { off := 8, fields := [⟨31, 0, .rwl⟩], rep := 4, repStride := 0xC, gpos := 2, gstep := 3, gwords := 16, sched := true }, -- NODE_V (R253)
  { off := 0xC, fields := [⟨31, 0, .rwl⟩], rep := 4, repStride := 0xC, gpos := 3, gstep := 3, gwords := 16, sched := true }, -- NODE_M (R253)
  { off := 0x10, fields := [⟨9, 0, .rwl⟩, ⟨31, 31, .rwl⟩], rep := 4, repStride := 0xC, gpos := 4, gstep := 3, gwords := 16, sched := true }, -- NODE_R (R253)
  { off := 0x38, gpos := 14, gwords := 16, sched := true }, -- NODE_14 (R253)
  { off := 0x3C, gpos := 15, gwords := 16, sched := true }] -- NODE_15 (R253)

def rowsADM : List RegRow := [
  { off := 0, fields := [⟨0, 0, .w1c⟩, ⟨2, 2, .w1c⟩] }, -- CTX_STATUS (R257)
  { off := 4, fields := [⟨7, 0, .rw⟩, ⟨9, 8, .rw⟩] }, -- ADM_SEL (R260)
  { off := 8, fields := [⟨31, 0, .ro⟩], gwords := 2 }, -- ADM_LEVEL (R260)
  { off := 0xC, fields := [⟨31, 0, .ro⟩], gpos := 1, gwords := 2 }, -- ADM_LEVEL_HI (R260)
  { off := 0x10, fields := [⟨31, 0, .ro⟩] }, -- CLIENT_NEW (R262)
  { off := 0x14, fields := [⟨31, 0, .ro⟩] }, -- CLIENT_EVICT (R262)
  { off := 0x18, fields := [⟨31, 0, .ro⟩] }, -- CLIENT_ECC (R262)
  { off := 0x1C, fields := [⟨31, 0, .ro⟩] }, -- ARR_HOST_FULL (R251)
  { off := 0x20, fields := [⟨11, 0, .ro⟩, ⟨27, 16, .ro⟩, ⟨31, 31, .w1c⟩] }] -- ARR_STATUS (R252)

def rowsCTX : List RegRow := [
  { off := 0, fields := [⟨31, 0, .rwl⟩], rep := 64, repStride := 4, gstep := 1, gwords := 4, sched := true }] -- CTX_LINE (R256)

def rowsENGC : List RegRow := [
  { off := 0, fields := [⟨0, 0, .w1c⟩, ⟨2, 2, .w1c⟩] }, -- ENG_BLK_STATUS (R277)
  { off := 4, fields := [⟨8, 0, .ro⟩, ⟨24, 16, .ro⟩] }, -- DISPATCH_STATUS (R264)
  { off := 8, fields := [⟨31, 0, .ro⟩] }] -- ENG_LIB (R264)

def rowsENG : List RegRow := [
  { off := 0, fields := [⟨0, 0, .rw⟩, ⟨2, 1, .ro⟩, ⟨3, 3, .ro⟩, ⟨7, 4, .ro⟩] }, -- ENG_CTRL (R410)
  { off := 4, fields := [⟨5, 0, .ro⟩, ⟨8, 8, .ro⟩, ⟨9, 9, .ro⟩, ⟨16, 16, .w1c⟩] }, -- ENG_STATUS (R413)
  { off := 8, fields := [⟨31, 0, .ro⟩], gwords := 2 }, -- ENG_DONE (R264)
  { off := 0xC, fields := [⟨31, 0, .ro⟩], gpos := 1, gwords := 2 }] -- ENG_DONE_HI (R264)

def rowsLV : List RegRow := [
  { off := 0, fields := [⟨31, 0, .ro⟩], gwords := 2 }, -- CT_BASE (R275)
  { off := 4, fields := [⟨31, 0, .ro⟩], gpos := 1, gwords := 2 }, -- CT_BASE_HI (R275)
  { off := 8, fields := [⟨31, 0, .ro⟩] }, -- CT_SIZE (R275)
  { off := 0x10, fields := [⟨31, 0, .ro⟩], gwords := 2 }, -- ST_BASE (R275)
  { off := 0x14, fields := [⟨31, 0, .ro⟩], gpos := 1, gwords := 2 }, -- ST_BASE_HI (R275)
  { off := 0x18, fields := [⟨31, 0, .ro⟩] }, -- ST_SIZE (R275)
  { off := 0x20, fields := [⟨31, 0, .ro⟩], gwords := 2 }, -- LOG_BASE (R275)
  { off := 0x24, fields := [⟨31, 0, .ro⟩], gpos := 1, gwords := 2 }, -- LOG_BASE_HI (R275)
  { off := 0x28, fields := [⟨31, 0, .ro⟩] }, -- LOG_SIZE (R275)
  { off := 0x30, fields := [⟨31, 0, .ro⟩], gwords := 2 }, -- BULK_BASE (R275)
  { off := 0x34, fields := [⟨31, 0, .ro⟩], gpos := 1, gwords := 2 }, -- BULK_BASE_HI (R275)
  { off := 0x38, fields := [⟨31, 0, .ro⟩] }, -- BULK_SIZE (R275)
  { off := 0x40, fields := [⟨0, 0, .rw⟩] }, -- LOG_CFG (R277)
  { off := 0x44, fields := [⟨27, 0, .ro⟩] }, -- LOG_WR (R277)
  { off := 0x48, fields := [⟨27, 0, .rw⟩] }, -- LOG_RD (R277)
  { off := 0x4C, fields := [⟨31, 0, .ro⟩] }, -- LOG_LOST (R277)
  { off := 0x50, fields := [⟨31, 0, .ro⟩] }, -- UC_BUDGET (R325)
  { off := 0x54, fields := [⟨31, 0, .ro⟩] }, -- UC_USED (R325)
  { off := 0x58, fields := [⟨16, 0, .ro⟩] }, -- UC_SESSIONS (R323)
  { off := 0x5C, fields := [⟨31, 0, .ro⟩] }, -- UC_DENY (R324)
  { off := 0x60, fields := [⟨31, 0, .ro⟩] }, -- UC_DEFER (R326)
  { off := 0x64, fields := [⟨31, 0, .ro⟩] }, -- UC_SKIP (R326)
  { off := 0x68, fields := [⟨31, 0, .ro⟩] }] -- UC_ECC (R323)

def rowsCALC : List RegRow := [
  { off := 0, fields := [⟨0, 0, .w1c⟩, ⟨2, 2, .w1c⟩] }] -- CAL_BLK_STATUS (R266)

def rowsCAL : List RegRow := [
  { off := 0, fields := [⟨20, 0, .rwl⟩], gwords := 3, sched := true }, -- CAL_CYCLE (R266)
  { off := 4, fields := [⟨20, 0, .rwl⟩], gpos := 1, gwords := 3, sched := true }, -- CAL_WIN_START (R266)
  { off := 8, fields := [⟨20, 0, .rwl⟩], gpos := 2, gwords := 3, sched := true }, -- CAL_WIN_LEN (R266)
  { off := 0x10, fields := [⟨11, 0, .ro⟩, ⟨27, 16, .ro⟩] }, -- CAL_STATE (R266)
  { off := 0x14, fields := [⟨0, 0, .w1c⟩, ⟨1, 1, .w1c⟩] }, -- CAL_FLAGS (R272)
  { off := 0x20, fields := [⟨31, 0, .ro⟩] }, -- CAL_PUSHED (R268)
  { off := 0x24, fields := [⟨31, 0, .ro⟩] }, -- CAL_WIN_DEFER (R270)
  { off := 0x28, fields := [⟨31, 0, .ro⟩] }, -- CAL_LATE (R273)
  { off := 0x2C, fields := [⟨31, 0, .ro⟩] }, -- CAL_HOST_SENT (R271)
  { off := 0x40, fields := [⟨20, 0, .rwl⟩], rep := 16, repStride := 8, gwords := 2, sched := true }, -- CAL_RSV_0 (R266)
  { off := 0x44, fields := [⟨15, 0, .rwl⟩, ⟨31, 31, .rwl⟩], rep := 16, repStride := 8, gpos := 1, gwords := 2, sched := true }, -- CAL_RSV_1 (R266)
  { off := 0xC0, fields := [⟨2, 0, .rw⟩, ⟨15, 8, .rw⟩], rep := 16, repStride := 4, sched := true }] -- CAL_USE (R314)

def rowsRBLK : List RegRow := [
  { off := 0, fields := [⟨0, 0, .w1c⟩, ⟨2, 2, .w1c⟩] }] -- RING_BLK_STATUS (R336)

def rowsRX : List RegRow := [
  { off := 0, fields := [⟨31, 6, .rwl⟩], gwords := 2 }, -- RXR_BASE (R336)
  { off := 4, fields := [⟨31, 0, .rwl⟩], gpos := 1, gwords := 2 }, -- RXR_BASE_HI (R336)
  { off := 8, reset := 0x806, fields := [⟨4, 0, .rw⟩, ⟨14, 8, .rw⟩, ⟨17, 16, .rw⟩] }, -- RXR_CFG (R336)
  { off := 0xC, reset := 4, fields := [⟨0, 0, .rw⟩, ⟨2, 1, .ro⟩, ⟨3, 3, .ro⟩, ⟨8, 8, .w1c⟩, ⟨9, 9, .w1c⟩] }, -- RXR_CTRL (R337)
  { off := 0x10, fields := [⟨15, 0, .ro⟩] }, -- RXR_HEAD (R336)
  { off := 0x14, fields := [⟨15, 0, .rw⟩] }, -- RXR_TAIL (R336)
  { off := 0x18, reset := 0x100, fields := [⟨5, 0, .rw⟩, ⟨7, 7, .rw⟩, ⟨15, 8, .rw⟩, ⟨31, 16, .rw⟩] }, -- RXR_IRQ (R347)
  { off := 0x20, fields := [⟨31, 0, .ro⟩] }, -- RXR_FRAMES (R336)
  { off := 0x24, fields := [⟨31, 0, .ro⟩] }, -- RXR_NOBUF (R336)
  { off := 0x28, fields := [⟨31, 0, .ro⟩] }] -- RXR_DISCARD (R336)

def rowsTX : List RegRow := [
  { off := 0, fields := [⟨31, 6, .rwl⟩], gwords := 2 }, -- TXR_BASE (R336)
  { off := 4, fields := [⟨31, 0, .rwl⟩], gpos := 1, gwords := 2 }, -- TXR_BASE_HI (R336)
  { off := 8, reset := 0x806, fields := [⟨4, 0, .rw⟩, ⟨21, 20, .rw⟩] }, -- TXR_CFG (R336)
  { off := 0xC, reset := 4, fields := [⟨0, 0, .rw⟩, ⟨2, 1, .ro⟩, ⟨3, 3, .ro⟩, ⟨8, 8, .w1c⟩, ⟨9, 9, .w1c⟩] }, -- TXR_CTRL (R337)
  { off := 0x10, fields := [⟨15, 0, .ro⟩] }, -- TXR_HEAD (R336)
  { off := 0x14, fields := [⟨15, 0, .rw⟩] }, -- TXR_TAIL (R336)
  { off := 0x18, reset := 0x100, fields := [⟨5, 0, .rw⟩, ⟨7, 7, .rw⟩, ⟨15, 8, .rw⟩, ⟨31, 16, .rw⟩] }, -- TXR_IRQ (R347)
  { off := 0x20, fields := [⟨31, 0, .ro⟩] }, -- TXR_FRAMES (R336)
  { off := 0x24, fields := [⟨31, 0, .ro⟩] }, -- TXR_NOBUF (R336)
  { off := 0x28, fields := [⟨31, 0, .ro⟩] }] -- TXR_DISCARD (R336)

def rowsTSQ : List RegRow := [
  { off := 0, fields := [⟨1, 0, .rw⟩] }, -- TSQ_CFG (R345)
  { off := 4, fields := [⟨6, 0, .ro⟩, ⟨16, 16, .w1c⟩] }, -- TSQ_STATUS (R346)
  { off := 8, fields := [⟨31, 0, .ro⟩] }, -- TSQ_DROP (R346)
  { off := 0x20, fields := [⟨31, 0, .ro⟩], rep := 8, repStride := 4, gstep := 1, gwords := 8 }] -- TSQ_W (R345)

def rowsSTAT : List RegRow := [
  { off := 0, fields := [⟨31, 0, .ro⟩], rep := 128, repStride := 4, gstep := 1, gwords := 2 }, -- STAT_LIVE (R245)
  { off := 0x200, fields := [⟨31, 0, .ro⟩], rep := 128, repStride := 4, gstep := 1, gwords := 2 }] -- STAT_SNAP (R246)

def rowsCXC : List RegRow := [
  { off := 0, fields := [⟨31, 0, .ro⟩], rep := 16, repStride := 4, gstep := 1, gwords := 2 }] -- CTX_CNT (R426)

def rowsCXS : List RegRow := [
  { off := 0, fields := [⟨31, 0, .ro⟩], rep := 16, repStride := 4, gstep := 1, gwords := 2 }] -- CTX_CNT_SNAP (R426)

def rowsSNI : List RegRow := [
  { off := 0, fields := [⟨31, 0, .ro⟩] }, -- STAT_SNAP_INFO (R246)
  { off := 8, fields := [⟨31, 0, .ro⟩], gwords := 2 }, -- STAT_SNAP_S (R246)
  { off := 0xC, fields := [⟨31, 0, .ro⟩], gpos := 1, gwords := 2 }] -- STAT_SNAP_S_HI (R246)

def rowsDCNT : List RegRow := [
  { off := 0, fields := [⟨0, 0, .w1c⟩, ⟨2, 2, .w1c⟩] }, -- D_CNT_BLK_STATUS (R430)
  { off := 4, fields := [⟨7, 0, .w1c⟩, ⟨8, 8, .w1c⟩] }, -- D_CNT_OVF (R430)
  { off := 0x10, fields := [⟨31, 0, .ro⟩], gwords := 2 }, -- D_CYCLE (R430)
  { off := 0x14, fields := [⟨31, 0, .ro⟩], gpos := 1, gwords := 2 }, -- D_CYCLE_HI (R430)
  { off := 0x18, fields := [⟨31, 0, .ro⟩], gwords := 2 }, -- D_CYCLE_SNAP (R430)
  { off := 0x1C, fields := [⟨31, 0, .ro⟩], gpos := 1, gwords := 2 }, -- D_CYCLE_SNAP_HI (R430)
  { off := 0x100, fields := [⟨7, 0, .rw⟩, ⟨9, 8, .rw⟩, ⟨12, 12, .rw⟩, ⟨13, 13, .rw⟩, ⟨15, 15, .ro⟩], rep := 8, repStride := 0x20 }, -- D_CNT_CFG (R430)
  { off := 0x108, fields := [⟨31, 0, .rwl⟩], rep := 8, repStride := 0x20, gwords := 2 }, -- D_CNT (R430)
  { off := 0x10C, fields := [⟨15, 0, .rwl⟩], rep := 8, repStride := 0x20, gpos := 1, gwords := 2 }, -- D_CNT_HI (R430)
  { off := 0x110, fields := [⟨31, 0, .ro⟩], rep := 8, repStride := 0x20, gwords := 2 }, -- D_CNT_SNAP (R430)
  { off := 0x114, fields := [⟨15, 0, .ro⟩], rep := 8, repStride := 0x20, gpos := 1, gwords := 2 }] -- D_CNT_SNAP_HI (R430)

/-- Every bank of the map (spec/19_register_index.md). -/
def keeperBanks : List Bank := [
  { id := .gbl, base := 0, status := 0x10, guard := some 0x14, rows := rowsGBL },
  { id := .ts, base := 0x10000, status := 0x10000, guard := some 0x10004, rows := rowsTS },
  { id := .sc, base := 0x11000, stride := 0x1000, n := 2, status := 0x10000, guard := some 0x10004, rows := rowsSC },
  { id := .rf, base := 0x20000, status := 0x20000, rows := rowsRF },
  { id := .slot, base := 0x20100, stride := 0x40, n := 12, status := 0x20000, rows := rowsSLOT },
  { id := .sel, base := 0x21000, stride := 0x1000, n := 2, status := 0x20000, rows := rowsSEL },
  { id := .str, base := 0x23000, stride := 0x80, n := 8, status := 0x20000, rows := rowsSTR },
  { id := .tm, base := 0x30000, status := 0x30000, rows := rowsTM },
  { id := .tin, base := 0x30100, stride := 0x100, n := 8, status := 0x30000, rows := rowsIN },
  { id := .gn, base := 0x40000, status := 0x40000, rows := rowsGN },
  { id := .band, base := 0x40100, stride := 0x80, n := 2, status := 0x40000, rows := rowsBAND },
  { id := .ck, base := 0x50000, status := 0x50000, guard := some 0x50004, rows := rowsCK },
  { id := .kpll, base := 0x50100, stride := 0x20, n := 4, status := 0x50000, rows := rowsKPLL },
  { id := .frac, base := 0x50200, stride := 0x10, n := 4, status := 0x50000, rows := rowsFRAC },
  { id := .opll, base := 0x50300, stride := 0x40, n := 2, status := 0x50000, guard := some 0x50004, rows := rowsOPLL },
  { id := .tout, base := 0x50400, stride := 0x40, n := 4, status := 0x50000, rows := rowsOUT },
  { id := .bn, base := 0x60000, status := 0x60000, rows := rowsBN },
  { id := .up, base := 0x70000, status := 0x70000, rows := rowsUP },
  { id := .gr, base := 0x70100, stride := 0x80, n := 2, status := 0x70000, rows := rowsGR },
  { id := .hd, base := 0x80000, status := 0x80000, rows := rowsHD },
  { id := .cr, base := 0x80100, status := 0x80000, rows := rowsCR },
  { id := .er, base := 0x80200, status := 0x80000, rows := rowsER },
  { id := .kcnt, base := 0x90000, status := 0x90000, rows := rowsKCNT },
  { id := .lmc, base := 0x91000, status := 0x90000, rows := rowsLMC }]

/-- The banks of one answer die, offsets from the die base. -/
def dieBanks : List Bank := [
  { id := .dc, die := true, base := 0, status := 0x10000, rows := rowsDC },
  { id := .dpll, die := true, base := 0x200, stride := 0x20, n := 2, status := 0x10000, rows := rowsDPLL },
  { id := .port, die := true, base := 0x10000, status := 0x10000, rows := rowsPORT },
  { id := .lnk, die := true, base := 0x11000, stride := 0x1000, n := 4, status := 0x10000, rows := rowsLNK },
  { id := .steer, die := true, base := 0x20000, stride := 0x20, n := 64, status := 0x10000, rows := rowsSTEER },
  { id := .pcnt, die := true, base := 0x20800, stride := 0x10, n := 4, status := 0x10000, rows := rowsPCNT },
  { id := .node, die := true, base := 0x21000, stride := 0x1000, n := 4, stride2 := 0x40, n2 := 64, status := 0x10000, rows := rowsNODE },
  { id := .adm, die := true, base := 0x30000, status := 0x30000, rows := rowsADM },
  { id := .ctx, die := true, base := 0x30100, stride := 0x100, n := 255, status := 0x30000, rows := rowsCTX },
  { id := .engc, die := true, base := 0x40000, status := 0x40000, rows := rowsENGC },
  { id := .eng, die := true, base := 0x40100, stride := 0x40, n := 4, status := 0x40000, rows := rowsENG },
  { id := .lv, die := true, base := 0x40800, stride := 0x80, n := 4, status := 0x40000, rows := rowsLV },
  { id := .calc, die := true, base := 0x50000, status := 0x50000, rows := rowsCALC },
  { id := .cal, die := true, base := 0x50100, stride := 0x100, n := 4, status := 0x50000, rows := rowsCAL },
  { id := .rblk, die := true, base := 0x60000, status := 0x60000, rows := rowsRBLK },
  { id := .rx, die := true, base := 0x61000, stride := 0x100, n := 8, status := 0x60000, rows := rowsRX },
  { id := .tx, die := true, base := 0x62000, stride := 0x100, n := 8, status := 0x60000, rows := rowsTX },
  { id := .tsq, die := true, base := 0x70000, stride := 0x100, n := 4, status := 0x60000, rows := rowsTSQ },
  { id := .stat, die := true, base := 0x80000, stride := 0x400, n := 4, status := 0x90000, rows := rowsSTAT },
  { id := .cxc, die := true, base := 0x81000, stride := 0x40, n := 256, status := 0x90000, rows := rowsCXC },
  { id := .cxs, die := true, base := 0x85000, stride := 0x40, n := 256, status := 0x90000, rows := rowsCXS },
  { id := .sni, die := true, base := 0x8F000, status := 0x90000, rows := rowsSNI },
  { id := .dcnt, die := true, base := 0x90000, status := 0x90000, rows := rowsDCNT }]

end Sys2Proof.Machine
end

