-- ==== Sys2Proof/Machine/State.lean ====
section
/-! DEFINITION. The state of the device: registers, clocks, scales, references, links, rings, keys, memories, the command queue; faults and refusals of the model; State.reset. -/

namespace Sys2Proof.Machine

/-- The two requesters of R17: the PCIe host and the housekeeping cores. -/
abbrev Req := Sys2Proof.Req

/-- What leaves the device. Launch instants in 2^-16 tick. -/
inductive Output where
  /-- Data of a register read. -/
  | readData (req : Req) (addr : Nat) (value : Word)
  /-- Data of a read through BAR2. -/
  | bar2Data (bs : List Byte)
  /-- An MSI-X message write (R357). -/
  | msix (vector addr data : Nat)
  /-- A frame on a line port, launched at an instant. -/
  | frame (die link at16 : Nat) (bs : List Byte)
  /-- A frame on a ring port, at a raw tick. -/
  | ringFrame (port tick : Nat) (bs : List Byte)
  /-- An SMBus reply; none: NACK. -/
  | smbus (bs : Option (List Byte))
  /-- An IRIG-B frame of an output: the 100 code elements (R220). -/
  | irig (output second : Nat) (code : List Nat)
  /-- The level at the ball of a timing output changes at an instant; none: high impedance (R211, R215, R217). -/
  | pin (output : Nat) (level : Option Bool) (at16 : Int)
deriving DecidableEq, Repr

/-! ## Bus and registers -/

/-- One arming of a block's GUARD (R18): who armed, the armed register's low 16 offset bits, the raw count of the arming. -/
structure Arm where
  req : Req
  target : Nat
  since : Nat
deriving DecidableEq, Repr

/-- The register file and the per-requester latch and staging of multiword groups (R12 to R19). -/
structure Bus where
  /-- Registers by BAR0 offset; an unlisted register reads its reset value. -/
  regs : SMap Word := []
  /-- Staged words, keyed by requester and offset (R16, R17). -/
  staged : List ((Req × Nat) × Word) := []
  /-- Latched higher words, keyed by requester and offset (R14, R17). -/
  latched : List ((Req × Nat) × Word) := []
  /-- Armings, keyed by the offset of the block's GUARD (R18). -/
  arms : List (Nat × Arm) := []
  /-- Answer-die registers written since LOAD, by BAR0 offset: the keeper's shadow (R90). -/
  shadow : List (Nat × Word) := []
deriving DecidableEq, Repr

/-! ## Clocks -/

/-- The raw counter and the counters beside it. -/
structure Clk where
  /-- Master raw count, 64 bits (R96). -/
  raw : Nat := 0
  /-- 1 once the raw counter runs (LOAD step 4, R86). -/
  running : Bool := false
  /-- Ticks since the last AON count (R194: one count per 320 ticks). -/
  aonRes : Nat := 0
  /-- Oscillator frequency in MHz: 0 none, 10, 20 or 25 (R197). -/
  oscMhz : Nat := 0
  /-- Part of a SYS-PLL cycle not yet counted, in 1 / (4 × 10^9) cycle (R429: 1,000 MHz against 800 MHz, with its spread). -/
  sysRes : Nat := 0
  /-- Ticks since the last oscillator cycle while the raw counter counts by whole cycles (R92). -/
  cycRes : Nat := 0
  /-- Levels of the keeper's raw signals at the last tick, bit i for event 0xF0 + i (R433). -/
  rawLast : Nat := 0
  /-- Sub-tick phase stored at entry to STANDBY with TB-PLL off (R93). -/
  phi : Nat := 0
  /-- Sub-tick fraction of the master count, in 2^-16 tick (R96, R93). -/
  frac : Nat := 0
  /-- Spans with the TB-PLL off, newest first: raw counts of entry and, once over, of the handover (R92, R93); by them a stamp carries COARSE (R7). -/
  coarseSpans : List (Nat × Option Nat) := []
deriving DecidableEq, Repr

/-! ## Scales (R99 to R124) -/

/-- The slew fields of a set (R103): end epoch S + N, rate δ in 2^-56 ns per tick, sign, and R_k, the part of |A| not yet applied at the set's EPOCH, in 2^-72 ns. -/
structure SlewF where
  endEpoch : Nat
  delta : Nat
  neg : Bool
  rem : Nat
deriving DecidableEq, Repr

/-- What a set changes: CAUSE bits, an absolute setting and a relative step after it (2^-72 ns), a new increment without slew (none: that in force is kept), a slew of an amount (2^-72 ns) at a rate in ppb. -/
structure Change where
  cause : Nat
  abs : Option Int := none
  step : Int := 0
  incr0 : Option Nat := none
  slew : Option (Int × Nat) := none
deriving DecidableEq, Repr

/-- A parameter set (R103). OFFSET in 2^-72 ns, INCR in 2^-56 ns per tick. -/
structure PSet where
  seq : Nat
  epoch : Nat
  ofs : Int
  incr : Nat
  cause : Nat
  slew : Option SlewF := none
  /-- What the set itself changes, by which it is formed again while it is not in force (R105, R112, R115); none: it only ends a slew. -/
  chg : Option Change := none
  /-- Bit n: answer die n holds the set (R29, R30). -/
  held : Nat := 0
deriving DecidableEq, Repr

/-- A slew staged by SLEW_GO for the next APPLY (R111): amount in 2^-16 ns, rate in ppb. -/
structure Staged where
  amount : Int
  ppb : Nat
deriving DecidableEq, Repr

/-- A quality record (R145): selector state, FREQ_AIDED, raw epoch Q, E_Q in ns (none: unbounded), rate G in ps/s. -/
structure Quality where
  state : Nat := 0
  freqAided : Bool := false
  q : Nat := 0
  eq : Option Nat := none
  g : Nat := 0
  held : Nat := 0
deriving DecidableEq, Repr

/-- One time-scale (R99 to R115). -/
structure Scale where
  /-- The last 16 sets in force, newest first (R106). -/
  journal : List PSet := []
  /-- The pending set (R105). -/
  pend : Option PSet := none
  /-- Sets held beside the pending set (R105): the end set of a running slew, with what is merged into it. -/
  ends : List PSet := []
  staged : Option Staged := none
  /-- SEQ of the next set formed (R103). -/
  nextSeq : Nat := 1
  /-- Owner in force: true host. SC_CTRL.DISCIPLINE takes effect at the next set epoch (R109). -/
  hostOwns : Bool := false
  /-- Quality records published, newest first. -/
  quality : List Quality := []
  /-- Epochs of the last quality records published in state LOCKED, newest first (R283). -/
  lockedQ : List Nat := []
deriving DecidableEq, Repr

/-- A Castling switch published for its epoch (R121, R124): S, target scale, D in 2^-72 ns, δ, N ticks. -/
structure Switch where
  s : Nat
  target : Nat
  d : Int
  delta : Nat
  n : Nat
  held : Nat := 0
deriving DecidableEq, Repr

/-- A pending Castling request and its decision (R122). -/
structure CastleReq where
  s : Nat
  target : Nat
  force : Bool
  /-- Decision code once decided at S - 16,384 ticks, and the switch if there is one. -/
  decided : Option Nat := none
  switch : Option Switch := none
deriving DecidableEq, Repr

/-- A leap entry (R117, R118): TAI second L, offset from L onward, source, raw tick of its addition and what that tick reads on Scale A, Scale B and served time in 2^-16 ns (R120), and whether Leap applied has been raised. -/
structure Leap where
  sec : Nat
  offset : Int
  fromGnss : Bool := false
  addedRaw : Nat := 0
  added : List Int := []
  applied : Bool := false
deriving DecidableEq, Repr

/-- The time-scale unit. -/
structure Ts where
  a : Scale := {}
  b : Scale := {}
  /-- Switches published, newest first; empty: Scale A is served with no bridge. -/
  switches : List Switch := []
  castle : Option CastleReq := none
  /-- The newest switch's Castling complete is still to come. -/
  bridgeOpen : Bool := false
  leaps : List Leap := []
  /-- What a source has last reported of the next leap (R119): true for GNSS, and L and whether it is negative, or no leap. Compared while that source is not the authoritative one. -/
  altLeap : Option (Bool × Option (Nat × Bool)) := none
deriving DecidableEq, Repr

/-! ## Reference slots and selectors (R125 to R147) -/

/-- What the source of a slot has delivered (R127, R128). -/
structure Src where
  /-- Reference time of the last sample in 2^-16 ns (for a PPS slot: within the second) and its raw instant in 2^-16 tick. -/
  ref16 : Int := 0
  inst16 : Nat := 0
  has : Bool := false
  /-- Samples of the last 10 s, newest first: raw instant, reference time (R351). -/
  hist : List (Nat × Int) := []
  /-- Fractional frequencies in ppt that the source itself has reported in the last 10 s (SyncE, GNSS), newest first, each with its instant in 2^-16 tick. -/
  ys : List (Nat × Int) := []
  /-- Instant in 2^-16 tick of the last accepted edge, Sync, comparison or host sample (R128). -/
  heard : Nat := 0
  /-- IRIG-B frames that have failed their checks since the last good one (R128). -/
  bad : Nat := 0
  /-- Uncertainty the source reports, in ns (R141). -/
  unc : Nat := 0
  /-- The source flags itself unusable (R129, reason SUSPECT). -/
  suspect : Bool := false
  /-- The signal is invalid at the next evaluation (R329). -/
  skip : Bool := false
deriving DecidableEq, Repr

/-- One selector's view of one slot. The state itself stands in SLOT_STATE. -/
structure SlotView where
  /-- Reasons set, bit c for code c of R129. -/
  reasons : Nat := 0
  /-- Raw count at which the WTR ends, and the offset at its start (R132). -/
  wtrEnd : Nat := 0
  wtrPhi : Int := 0
  /-- Offset of the last evaluation, in 2^-16 ns. -/
  phi : Option Int := none
  /-- φ_last: the last offset before the signal was lost (R131); none while it has never been lost since LOAD. -/
  phiLast : Option Int := none
  /-- Bound at the loss of the slot, in ps; none unbounded (R131). -/
  eLoss : Option Nat := none
  everQualified : Bool := false
  bandSince : Option Nat := none
  agreeSince : Option Nat := none
  disSince : Option Nat := none
  /-- Slots that agree with this JUMPED one, each with the raw count since which it has on every evaluation (R132). -/
  early : List (Nat × Nat) := []
deriving DecidableEq, Repr

/-- A switch of the chosen slot in progress (R136, R137, R144). -/
structure SelSwitch where
  target : Nat
  count : Nat := 0
  sum : Int := 0
  /-- Average offset and the raw count of the last evaluation of MEASURE. -/
  measured : Option (Int × Nat) := none
  /-- Epoch of the commit set once published, and its build-out. -/
  commit : Option Nat := none
  buildOut : Int := 0
  /-- The commit is the initial setting of the scale (R137). -/
  init : Bool := false
  /-- The selector was LOCKED when the switch began (R138). -/
  fromLocked : Bool := false
deriving DecidableEq, Repr

/-- One selector, beside its registers. -/
structure Sel where
  views : List SlotView := List.replicate 12 {}
  sw : Option SelSwitch := none
  lockSince : Option Nat := none
  everLocked : Bool := false
  /-- A switch has committed since the selector left FREE_RUN (R141). -/
  committed : Bool := false
  /-- Spans of LOCKED, newest first: raw counts of its begin and, once over, its end (R139, R142). -/
  locks : List (Nat × Option Nat) := []
  /-- Filtered phase error φ_f in 2^-16 ns, and its values of the last 10 s with their raw counts, newest first (R140, R141). -/
  phiF : Int := 0
  phiHist : List (Nat × Int) := []
  /-- Integral part and output of the loop in 2^-16 ppt, and its outputs of the last 610 s with their raw counts, newest first (R139, R140, R142). -/
  integ : Int := 0
  freqOut : Int := 0
  freqHist : List (Nat × Int) := []
  /-- HOLDOVER: raw count of the entry, E0 in ps, F in ppt (R142). -/
  entry : Nat := 0
  e0 : Nat := 0
  fPpt : Nat := 0
  /-- Start of the TB-PLL coast in progress, and coast time accrued, in ticks (R143). -/
  coast : Option Nat := none
  coastTicks : Nat := 0
  /-- Coast term added to E_lock until LOCKED again, in ps (R141). -/
  extra : Nat := 0
  /-- The slot chosen before the TB-PLL unlock. -/
  back : Option Nat := none
  /-- A host step is to be removed as a build-out (R147). -/
  restep : Bool := false
  /-- Build-out beyond 1 s still to be slewed, in 2^-16 ns (R136). -/
  slewLeft : Int := 0
deriving DecidableEq, Repr

/-- Slots and selectors. -/
structure Refs where
  srcs : List Src := List.replicate 12 {}
  selA : Sel := {}
  selB : Sel := {}
deriving DecidableEq, Repr

/-! ## Timing inputs (R148 to R171). Times in 2^-18 ns ("t18"). -/

/-- An open candidate (R149): the stamp of its first edge, its level, and the raw count at which the present run of hold began. -/
structure Candidate where
  stamp : Nat
  level : Bool
  edge : Nat
  run : Option Nat
deriving DecidableEq, Repr

/-- One gate, or one PERIOD measurement without a gate, with its exact sums (R166). Open and close stamps in 2^-16 tick. -/
structure Gate where
  opened : Nat
  closed : Option Nat := none
  t0 : Int := 0
  n : Nat := 0
  si : Int := 0
  si2 : Int := 0
  st : Int := 0
  sit : Int := 0
  st2 : Int := 0
  m : Nat := 0
  sp : Int := 0
  sp2 : Int := 0
  minp : Int := 0
  maxp : Int := 0
  /-- The first stamp's time; the last stamp and its time. -/
  first : Int := 0
  last : Option (Nat × Int) := none
  /-- Stamps not yet in the sums, oldest first, with their times: an edge of the gate still in the filter may move them (R42). -/
  tail : List (Nat × Int) := []
  ambiguous : Bool := false
  calWarn : Bool := false
  dead0 : Nat := 0
deriving DecidableEq, Repr

/-- An armed start of INTERVAL (R164): its stamp, the raw count of its acceptance, its time on the unit's timeline in 2^-18 ns, its R7 record; CAL_WARN seen since, and DEAD_CNT at it (R169). -/
structure Start where
  stamp : Nat
  since : Nat
  t18 : Int
  rec' : List Byte
  calWarn : Bool := false
  dead0 : Nat := 0
deriving DecidableEq, Repr

/-- One timing input and its measurement unit. -/
structure TimIn where
  /-- Level at the ball. -/
  level : Bool := false
  cand : Option Candidate := none
  lastStamp : Option Nat := none
  divCount : Nat := 0
  /-- Histograms of the two delay lines at their last good calibration (R151). -/
  tables : List (Option (List Nat)) := [none, none]
  /-- The line that is not live has a fresh table waiting for the swap (R152). -/
  swapReady : Bool := false
  /-- Good calibrations since the last failure, bit per line (R153). -/
  goodLines : Nat := 0
  /-- FIFOs of 16-byte stamp records and 64-byte result records (R162, R169). -/
  stamps : List (List Byte) := []
  results : List (List Byte) := []
  gates : List Gate := []
  /-- Next internal gate's open, in ticks (R159). -/
  nextOpen : Option Nat := none
  armedAt : Nat := 0
  /-- STOP has been given: no further gate opens. -/
  stopping : Bool := false
  /-- Armed start of INTERVAL (R164). -/
  start : Option Start := none
  /-- A stop accepted in the present tick, with that raw count: a start accepted in the same tick counts before it (R164). -/
  stop : Option (Nat × Nat) := none
  seq : Nat := 0
  /-- Accepted stamps and their times on the unit's timeline, newest first, as far back as an edge of a gate may still be in the filter (R42, R161). -/
  recent : List (Nat × Int) := []
  /-- Last stamp of the measurement just ended, with which the next begins (R168). -/
  carry : Option (Nat × Int) := none
deriving DecidableEq, Repr

/-! ## GNSS (R172 to R196) -/

/-- One tracking channel (R180, CH_INFO, CH_MP). -/
structure Channel where
  state : Nat := 0
  signal : Nat := 0
  sv : Nat := 0
  cn0 : Nat := 0
  used : Bool := false
  /-- Raw count since which C/N0 has stayed below 24 dB-Hz (R181). -/
  lowSince : Option Nat := none
  /-- Elevation of the satellite, by which channels are allotted (R180). -/
  elev : Int := 0
  mp : Bool := false
  mpDelay : Nat := 0
  mpRatio : Nat := 0
deriving DecidableEq, Repr

/-- One IF band, beside its registers (R175 to R178): jamming calibration, spectrum lines above threshold with their run, notches' bin and quiet run, history of AGC code, rms and mean C/N0 (sum and count) at the last epochs. -/
structure GnBand where
  /-- The last two stamps of every 8,184th sample-clock edge (R174): number of the edge, stamp in 2^-16 tick. -/
  clkStamps : List (Nat × Nat) := []
  calCode : Nat := 0
  calRms : Nat := 0
  /-- Bin and number of consecutive spectra of each line above THR. -/
  lines : List (Nat × Nat) := []
  /-- Bin and consecutive quiet spectra of each active notch. -/
  notch : List (Option (Nat × Nat)) := [none, none, none, none]
  /-- Raw count, AGC code, rms, sum and number of C/N0 at recent epochs, newest first (POWER_AGC). -/
  hist : List (Nat × Nat × Nat × Nat × Nat) := []
deriving DecidableEq, Repr

/-- The latest time solution (R183, R186): raw stamp, TAI in 2^-16 ns, drift in 2^-16 ppt and its uncertainty in ppt, reported uncertainty in ns. -/
structure Solution where
  r16 : Nat
  time : Int
  drift : Int
  driftUnc : Nat := 0
  unc : Nat
deriving DecidableEq, Repr

/-- The GNSS unit. -/
structure Gnss where
  bands : List GnBand := [{}, {}]
  channels : List Channel := List.replicate 96 {}
  sol : Option Solution := none
  /-- Raw count of the last epoch that gave a solution, and of the start of short holdover. -/
  shortSince : Option Nat := none
  surveySince : Option Nat := none
  /-- Sums of the coordinates averaged by a survey, and their number (R185). -/
  surveySum : List Int := [0, 0, 0]
  surveyN : Nat := 0
  /-- Held position, ECEF X, Y, Z in mm (R185), and whether a SET or a stored position gave it. -/
  pos : List Int := [0, 0, 0]
  posSet : Bool := false
  /-- Position to hold from the next epoch (R185). -/
  posNext : Option (List Int) := none
  /-- Consecutive failing epochs per check, and consecutive epochs with every check passed (R190, R191). -/
  fails : List Nat := [0, 0, 0, 0, 0]
  passes : Nat := 0
  /-- Band and sample-clock edge of the last measurement epoch, and its raw stamp r_k until its solution is published (R174, R183). -/
  epochEdge : Option (Nat × Nat) := none
  epoch : Option Nat := none
  /-- What each satellite has last said of UTC (R188): system 0 GPS, 1 Galileo, 2 BeiDou, satellite, offset, announced leap as L and whether negative. -/
  utcSeen : List (Nat × Nat × Int × Option (Nat × Bool)) := []
  /-- No navigation message has been decoded since the start-up (R194). -/
  fresh : Bool := false
  /-- Offset against the named scale at the previous epoch, with its raw stamp (check TIME). -/
  lastPhi : Option (Nat × Int) := none
  skipTime : Bool := false
  startAt : Nat := 0
  fixed : Bool := false
  lastSave : Nat := 0
  /-- Duty cycle: AON count of its period start, and asleep in it (R193). -/
  dutyAt : Nat := 0
  asleep : Bool := false
  /-- Navigation data held: ephemeris entries, and bytes 0x0050 to 0x1EFF of the hot-start record (R195). -/
  ephCount : Nat := 0
  nav : List Byte := []
deriving DecidableEq, Repr

/-! ## PLLs, output PLLs, outputs (R199 to R223) -/

/-- A PLL beside its registers: windows beyond UNLOCK_PPM in a row (R200); the control value, and the mean control value of the last window within LOCK_PPM, which coasting freezes (R202); the spread swing in ppb from which the running ramp began, and its raw count (R209). -/
structure Pll where
  badWin : Nat := 0
  control : Int := 0
  frozen : Int := 0
  swingFrom : Nat := 0
  swingAt : Nat := 0
deriving DecidableEq, Repr

/-- A fractional stage's ratio (R210): target, value at a raw count, in 2^-16 ppt. -/
structure Frac where
  target : Int := 0
  start : Int := 0
  since : Nat := 0
deriving DecidableEq, Repr

/-- The mover of an output PLL (R212, R213), in ps: target of PHASE_OFS, its value and the whole remainder at a raw count, steps accepted and not yet started with their start; of a realign wait, the first tick from which a whole second ends it and the step whose removal keeps the old timing. -/
structure Opll where
  target : Int := 0
  ofs0 : Int := 0
  remain0 : Int := 0
  since : Nat := 0
  queued : List (Nat × Int) := []
  resumeFrom : Nat := 0
  held : Int := 0
deriving DecidableEq, Repr

/-- A timing output beside its registers: the tick from which a whole second of its source completes its transition (R217); the settings in force while new ones are staged, and the tick from which a whole second puts those in force (R218); the level at its ball, none high impedance; the IRIG-B frame on the wire, by the second it started at (R220). -/
structure TOut where
  transFrom : Nat := 0
  live : Option (List Word) := none
  stagedFrom : Nat := 0
  pin : Option Bool := none
  frame : Option (Int × List Nat) := none
deriving DecidableEq, Repr

/-- PLLs 0 TB, 1 SYS, 2 and 3 OPLL0 and OPLL1, 4 to 7 ENG n, 8 to 11 SerDes n. -/
structure Cks where
  plls : List Pll := List.replicate 12 {}
  fracs : List Frac := List.replicate 4 {}
  oplls : List Opll := List.replicate 2 {}
  outs : List TOut := List.replicate 4 {}
deriving DecidableEq, Repr


/-! ## Events, rings, PCIe -/

/-- One MSI-X table entry in BAR4 (R332, R357). -/
structure MsixEntry where
  addr : Nat := 0
  data : Nat := 0
  masked : Bool := true
  pending : Bool := false
deriving DecidableEq, Repr

/-- Run-time state of one host ring beside its registers (R338, R347, R359), keyed by the ring bank's offset. -/
structure RingRt where
  /-- FSEQ of a receive ring, SEQ of the event ring. -/
  seq : Nat := 0
  /-- PHASE of the event ring. -/
  phase : Bool := true
  /-- Write-backs not yet reported by an MSI-X message. -/
  unrep : Nat := 0
  /-- Raw count of the oldest unreported write-back. -/
  oldest : Option Nat := none
  /-- Descriptors fetched (transmit and command rings), beyond the head. -/
  fetched : Nat := 0
  /-- Indices of transmit descriptors completed while an earlier one is not. -/
  done : List Nat := []
deriving DecidableEq, Repr

/-- One command of the command ring in execution (R349). -/
structure CmdRun where
  /-- Descriptor address in host memory. -/
  desc : Nat
  opcode : Nat
  tag : Nat
  input : List Byte
  outAddr : Nat
  outMax : Nat
  /-- Status and output once known; none while the unit works. -/
  result : Option (Nat × List Byte) := none
  /-- Written back already (the head waits for earlier commands). -/
  written : Bool := false
  /-- Its ring has been stopped or reset: nothing of it is written back. -/
  stale : Bool := false
  /-- Accepted raw count. -/
  since : Nat := 0
deriving DecidableEq, Repr

/-- The latest raise of an event source (R359): raw tick, the block's status register, INDEX. -/
structure Raised where
  src : Nat
  tick : Nat
  detail : Nat
  index : Nat
deriving DecidableEq, Repr

/-- The PCIe function and the host DMA. -/
structure Pcie where
  perstN : Bool := false
  linkUp : Bool := false
  busMaster : Bool := false
  funcMask : Bool := false
  msix : List MsixEntry := List.replicate 64 {}
  rings : List (Nat × RingRt) := []
  cmds : List CmdRun := []
  raised : List Raised := []
deriving DecidableEq, Repr

/-! ## Faults and retention -/

/-- One fault record (R423). -/
structure FaultRec where
  tick : Nat := 0
  aon : Nat := 0
  code : Nat := 0
  die : Nat := 0xFF
  index : Nat := 0
  lost : Nat := 0
  duration : Nat := 0
  detail : Nat := 0
  seq : Nat := 0
deriving DecidableEq, Repr

/-- A fault detected and not yet recorded; ended: the raw count at which it ended. -/
structure OpenFault where
  fr : FaultRec
  ended : Option Nat := none
  /-- Raised only after the LOAD that follows a device reset (R423). -/
  afterLoad : Bool := false
  /-- Its record has been written; the fault still holds (R36). -/
  logged : Bool := false
deriving DecidableEq, Repr

/-- The always-on retention memory and the AON counter (R84, R194). -/
structure Retention where
  faults : List FaultRec := []
  faultSeq : Nat := 0
  aon : Nat := 0
  /-- The two copies of the GNSS hot-start record (R195), and which one is newer. -/
  hot : List (Option (List Byte)) := [none, none]
  hotNew : Nat := 0
deriving DecidableEq, Repr

/-! ## Keys (R374 to R382) -/

/-- A filled key slot: TYPE, POLICY, secret material, public key. -/
structure KeySlot where
  ty : Nat
  policy : Nat
  material : List Byte
  pub : List Byte := []
deriving DecidableEq, Repr

/-- The keeper's secrets. -/
structure Keys where
  slots : List (Option KeySlot) := List.replicate 16 none
  /-- Nonce key of R38 and salt of the client and session tables (R262, R323), drawn at each boot. -/
  nonceKey : List Byte := zeros 16
  salt : Nat := 0
  /-- The import session held (R376): id, device scalar, raw count of its opening. -/
  session : Option (List Byte × List Byte × Nat) := none
  /-- The debug challenge held (R382) and the raw count of its issue. -/
  challenge : Option (List Byte × Nat) := none
deriving DecidableEq, Repr

/-- What a big-number or key command changes at its completion, beside its result slots (R375). -/
inductive KeyFx where
  | none
  | put (slot : Nat) (k : KeySlot)
  | erase (slot : Nat)
  /-- A failed unwrap: the alert of R376. -/
  | alert
  | session (id scalar : List Byte)
  | challenge (c : List Byte)
  | customer (hash : List Byte)
  | lock
  | minGen (g : Nat)
  /-- An accepted debug unlock (R383). -/
  | unlock (perms : Nat)
deriving DecidableEq, Repr

/-- The command the big-number engine runs (R367, R369): its descriptor, the raw counts of its start and end, its code and output, the operand slots it writes at the end, the slots it names, its other effect. -/
structure BnJob where
  desc : Nat
  opcode : Nat
  start : Nat
  due : Nat
  code : Nat
  out : List Byte := []
  writes : List (Nat × Nat) := []
  fx : KeyFx := .none
deriving DecidableEq, Repr

/-! ## The Position in force (R51 to R74) -/

/-- The Position in force, beside the registers it loads. -/
structure Pos where
  /-- The PRIV word (R58). -/
  priv : Nat := 0
  /-- LIB_ID of the microcode library (R59). -/
  lib : Nat := 0
  /-- HOST_KIB of each die (R251). -/
  hostKib : List Nat := [0, 0, 0, 0]
  /-- Answer dies present, as a mask (R56). -/
  present : Nat := 0
  /-- Registers that the Position loads, by BAR0 offset (R60). -/
  init : List (Nat × Word) := []
  /-- FALLBACK entries: die, context, BURST, RATE (R418). -/
  fallback : List (Nat × Nat × Nat × Nat) := []
  /-- FALLBACK tables that a patch has replaced of late, newest first, each with the patch's epoch: requests stamped before it are admitted under the table before it (R70). -/
  fallbackWas : List (Nat × List (Nat × Nat × Nat × Nat)) := []
  /-- Limits in force (R61). -/
  limits : List Limit := []
  /-- SHA-384 of the full Position loaded at boot (R66). -/
  digest : List Byte := []
deriving DecidableEq, Repr


/-- A submission as EU_CTRL.SUBMIT took it (R68): host address, length in bytes, epoch. -/
structure EuReq where
  addr : Nat
  len : Nat
  epoch : Nat
deriving DecidableEq, Repr

/-- A checked patch that waits for its epoch (R66): POSITION_ID, the registers its sections give, and the FALLBACK table and limits it brings, if any. -/
structure Patch where
  epoch : Nat
  id : Nat
  regs : List (Nat × Word) := []
  fallback : Option (List (Nat × Nat × Nat × Nat)) := none
  limits : Option (List Limit) := none
deriving DecidableEq, Repr

/-- Epoch-scheduled changes (R66 to R74): a submission of each kind under check, then pending. -/
structure Eu where
  patchReq : Option EuReq := none
  batchReq : Option EuReq := none
  patch : Option Patch := none
  /-- Epoch and entries: offset and value. -/
  batch : Option (Nat × List (Nat × Word)) := none
deriving DecidableEq, Repr

/-! ## Line links, calendar, requests (R224 to R277) -/

/-- A host frame fetched whole from a transmit ring (R342, R343): its descriptors' indices, bytes without FCS, LAUNCH_AT (scale code or 255, time in 2^-16 ns or raw tick), STAMP, TAG. -/
structure HostFrame where
  ring : Nat
  descs : List Nat
  bytes : List Byte
  launch : Option (Nat × Int) := none
  stamp : Bool := false
  tag : Nat := 0
deriving DecidableEq, Repr

/-- What a committed start granule carries. -/
inductive Load where
  /-- The reply of a request, by its number. -/
  | reply (q : Nat)
  | hostFrame (f : HostFrame)
  /-- A device-scheduled frame without FCS; pdelay: it is a Pdelay_Req (R308). -/
  | sched (bs : List Byte) (pdelay : Bool)
deriving DecidableEq, Repr

/-- A committed start (R267, R268): granule, granules to the earliest next start, outgoing deficit count, launch instant in 2^-16 tick, frame length, dropped as LATE, launched, launches after its first granule. -/
structure Commit where
  start : Nat
  occ : Nat
  dOut : Nat
  lam : Nat
  len : Nat
  load : Load
  late : Bool := false
  gone : Bool := false
  pushed : Bool := false
deriving DecidableEq, Repr

/-- Calendar settings in force (R266, R71): N, window start and length, reserved slots (START, LEN, VALID), uses. -/
structure Cal where
  n : Nat := 0
  ws : Nat := 0
  wl : Nat := 0
  rsv : List (Nat × Nat × Bool) := []
  use : List Nat := []
deriving DecidableEq, Repr

/-- One link's instance of a context bucket (R260, R261): level in units of 1/(10^9 × 2^16) request. -/
structure Bucket where
  ctx : Nat
  level : Nat
  last : Option Int := none
deriving DecidableEq, Repr

/-- A due device-scheduled message of a role and context (R315): the index of the last due instant served or discarded. -/
structure DueMark where
  role : Nat
  ctx : Nat
  due : Int
deriving DecidableEq, Repr

/-- A Follow_Up owed for a two-step Sync (R316). -/
structure FollowUp where
  ctx : Nat
  seq : Nat
  lam : Nat
  after : Nat
deriving DecidableEq, Repr

/-- A due mark of a granted unicast message (R326): session index, message type 0 Sync or 11 Announce, number k of its last due instant handled. -/
structure UcMark where
  session : Nat
  mtype : Nat
  k : Int
deriving DecidableEq, Repr

/-- One line link beside its registers. -/
structure Lnk where
  /-- LINK_GEN (R229). -/
  gen : Nat := 0
  /-- Raw count from which every lock of R228 has held without break. -/
  lockedSince : Option Nat := none
  /-- Raw count from which a high-BER state has lasted. -/
  berSince : Option Nat := none
  /-- Raw instant in 2^-16 tick at which a shutdown was accepted (R227). -/
  downAt : Nat := 0
  /-- Grid map (R239, R240): granule of the last anchor, its instant in 2^-16/125 tick, and the stage offset applied in 2^-16 ppt. -/
  gridK : Nat := 0
  gridT : Int := 0
  gridY : Int := 0
  /-- Granule of the re-anchor while a grid fault is open, and good measurements in a row (R241). -/
  reanchor : Option Nat := none
  goodGrid : Nat := 0
  /-- Calendar in force, granule of its restart, and settings waiting for the next cycle. -/
  cal : Cal := {}
  calBase : Nat := 0
  calNew : Bool := false
  /-- Granule of the host window last served (R270). -/
  winAt : Option Nat := none
  commits : List Commit := []
  buckets : List Bucket := []
  /-- Frames on their way through the near-end loopback, oldest first (R249). -/
  looped : List (List Byte) := []
  /-- Transmit-stamp queue (R345): entries, oldest first, and the next QSEQ. -/
  tsq : List (List Byte) := []
  tsqSeq : Nat := 0
  /-- Device-scheduled messages. -/
  dues : List DueMark := []
  follow : List FollowUp := []
  ucMarks : List UcMark := []
  /-- Indices of the valid entries of the session table (R323). -/
  sessions : List Nat := []
  /-- Announce messages received for the BMCA since it last ran: context and bytes (R321). -/
  announces : List (Nat × List Byte) := []
deriving DecidableEq, Repr

/-- Where a request stands. -/
inductive Stage where
  /-- Waiting for the client-table read (R260 step 3). -/
  | client
  /-- Waiting for the session-table read (R309 row 5). -/
  | grant
  /-- In the dispatch queue. -/
  | queued
  /-- In a thread of an engine. -/
  | thread (e : Nat)
  /-- Decided: its reply, if any, is in the transmit buffer. -/
  | done
  /-- Lost with its engine (R413). -/
  | lost
  /-- Found the dispatch queue full. -/
  | full
deriving DecidableEq, Repr

/-- A request of a context from its FCS confirm to its outcome (R260 to R276). -/
structure Query where
  id : Nat
  link : Nat
  ctx : Nat
  /-- The context image in force at the arrival. -/
  img : List Word
  /-- The frame without FCS. -/
  bytes : List Byte
  /-- Arrival stamp in 2^-16 tick. -/
  stamp : Nat
  /-- Arrival end + P + T_TURN in 2^-16/625 tick (R268, R276). -/
  need : Nat
  l3 : Nat := 0
  l4 : Nat := 0
  pay : Nat := 0
  /-- Number of VLAN tags, and arrival-buffer cells held (R252). -/
  ntags : Nat := 0
  cells : Nat := 0
  ipv6 : Bool := false
  ip : Bool := false
  stage : Stage := .done
  denied : Bool := false
  refused : Bool := false
  admitted : Bool := false
  /-- Launch instant of its commitment. -/
  lam : Option Nat := none
  /-- Reply without FCS once ready. -/
  reply : Option (List Byte) := none
  /-- Outcome code of R276, once known. -/
  outcome : Option Nat := none
  /-- Its launch instant, a raw tick, has fallen while its link was down and before the reply was formed: it counts as the reply it will be (R228, R427). -/
  fallen : Option Nat := none
deriving DecidableEq, Repr

/-- A request whose outcome is ordered without a launch (R276, R279): ordering instant in raw ticks, arrival stamp in 2^-16 tick, link, context, outcome, source address, LOG and LOG_REFUSED. -/
structure Ordering where
  at' : Nat
  stamp : Nat
  link : Nat
  ctx : Nat
  outcome : Nat
  src : List Byte
  ipv6 : Bool
  log : Bool
  logRefused : Bool
deriving DecidableEq, Repr

/-- One engine beside its registers: raw count of its last rejoin and of its last thread's end. -/
structure Eng where
  rejoin : Option Nat := none
  idleSince : Nat := 0
  /-- Raw count at which a fault recovery ends (R413). -/
  recoverAt : Option Nat := none
deriving DecidableEq, Repr


/-- One PTP slave stream of the keeper (R327 to R329). -/
structure Strm where
  /-- Messages received and not yet taken: arrival stamp in 2^-16 tick, message (R33). -/
  inbox : List (Nat × List Byte) := []
  /-- Sequence number of the next request, and requests sent: sequence number and λ in 2^-16 tick, newest first. -/
  seq : Nat := 0
  sent : List (Nat × Nat) := []
  /-- A two-step Sync that awaits its Follow_Up: sequence number, arrival t2, correction. -/
  sync : Option (Nat × Nat × Int) := none
  /-- A two-step Pdelay_Resp that awaits its follow-up: sequence number, arrival t4, requestReceiptTimestamp in 2^-16 ns, correction. -/
  peer : Option (Nat × Nat × Int × Int) := none
  /-- The latest completed delay exchange: t3 in 2^-16 tick, t4 and c_R in 2^-16 ns. -/
  exch : Option (Nat × Int × Int) := none
  /-- Twice the last 16 values d_k in 2^-18 ns, newest first. -/
  ds : List Int := []
  /-- Signaling messages that wait for the STREAM slot. -/
  sig : List (List Byte) := []
  /-- Due index of the last request sent (R315). -/
  due : Option Int := none
  gm : Option (List Byte) := none
deriving DecidableEq, Repr

/-! ## Answer dies -/

/-- One answer die. -/
structure Die where
  /-- The replica has aligned since the die's power-up (source 4 of R358). -/
  everAligned : Bool := false
  /-- The replica since its load (R25), in 2^-16 tick: its value at the marker edge of the last sync word, and that word's marker count. None before the first sync word after power-up. -/
  replica : Option (Int × Nat) := none
  /-- Sync word on its way (R23, R24), in 2^-16 tick: the master raw count at the marker, tick count and sub-tick fraction, and the filtered forward delay. -/
  sync : Option (Nat × Int) := none
  /-- Raw count of the last instant at which a sync word came or was missed. -/
  lastSync : Nat := 0
  /-- Consecutive sync words with the residual beyond, and within, ±20 ps (R27). -/
  badSync : Nat := 0
  goodSync : Nat := 0
  /-- Forward delays of the last 64 echoes, newest first, in 2^-16 tick (R24). -/
  fwds : List Int := []
  /-- Forwarded clock pairs lost, bit per pair (R28). -/
  pairsLost : Nat := 0
  /-- Sets not held at their epoch: scale and epoch (R31). -/
  missing : List (Nat × Nat) := []
  /-- Instant in 2^-16 tick of the changeover of the engine clock in fallback (R205). -/
  fbAt : Option Nat := none
  /-- Fallbacks that are over, newest first: instants of the changeover and of the return epoch, by which a request stamped before the epoch is still admitted under the FALLBACK table (R207). -/
  fbPast : List (Nat × Nat) := []
  /-- Part of an ENG-PLL cycle not yet counted, in 1 / (8 × 10^9) cycle (R430: 1,500 MHz against 800 MHz, with its spread). -/
  engRes : Nat := 0
  links : List Lnk := List.replicate 4 {}
  queries : List Query := []
  nextQuery : Nat := 0
  /-- Host frames that hold cells of the host partition (R251): raw count at which each gives them up, and its cells. -/
  hostHeld : List (Nat × Nat) := []
  orderings : List Ordering := []
  engines : List Eng := List.replicate 4 {}
  /-- Host frames fetched and not yet committed, per transmit ring, oldest first (R343). -/
  txq : List (List HostFrame) := List.replicate 8 []
  /-- Raw counts of the die's latest resets (R422). -/
  resets : List Nat := []
  /-- Levels of the die's raw signals at the last tick, bit i for event 0xF0 + i (R433). -/
  rawLast : Nat := 0
  /-- A transition was begun by a die reset, not by DIE_CTRL (R422). -/
  resetting : Bool := false
deriving DecidableEq, Repr

/-! ## Modes (R75 to R95) -/

/-- A mode request as MODE_CTRL held it at GO (R77, R79). -/
structure ModeReq where
  mode : Nat
  standbyTb : Bool
  useEpoch : Bool
  epoch : Nat
deriving DecidableEq, Repr

/-- A mode transition in progress: the mode it reaches at the next completion, whether STANDBY_TB will be set, the SERVE epoch it waits for, the mode still to be reached from WARM. -/
structure ModeRun where
  target : Nat
  tb : Bool := true
  epoch : Option Nat := none
  next : Option ModeReq := none
  /-- The epoch has passed; an exit drains (R79). -/
  passed : Bool := false
deriving DecidableEq, Repr

/-- Beside the mode registers. -/
structure Md where
  /-- The SERVE epoch last passed or pending, true for entry (R79). -/
  serve : Option (Nat × Bool) := none
  run : Option ModeRun := none
  /-- A request latched during a transition (R78). -/
  latched : Option ModeReq := none
  /-- Raw count at which the housekeeping cores began a restart (R421). -/
  coresDown : Option Nat := none
  /-- Raw count of the last completed core restart (R422, code 0x30). -/
  coresUp : Option Nat := none
  /-- Balls RESET_N and PWR_GOOD: low when true. -/
  resetLow : Bool := false
  powerBad : Bool := false
  /-- The sample of BOOT_SAFE_N of this LOAD (R85), once taken: low when true. -/
  safePin : Option Bool := none
  /-- Ticks of 1.25 ns since the last edge that began BYPASS, an internal reset or LOAD. -/
  age : Nat := 0
  /-- An internal reset has been forced and has not begun (R82). -/
  resetDue : Bool := false
  /-- An internal reset's pulse is running (R83). -/
  pulse : Bool := false
  /-- How far LOAD has come (R86): 0 entered, 1 its steps have begun, 2 an oscillator is accepted. -/
  load : Nat := 0
  /-- The device is held in BYPASS by a thermal shutdown (R422). -/
  hot : Bool := false
  /-- The last reset came from the glitch detector (KS_ALERT.GLITCH). -/
  glitch : Bool := false
  /-- STANDBY with the TB-PLL off: lock of the TB-PLL awaited since (R93). -/
  restart : Option Nat := none
  /-- Ticks counted towards the next second of TRIAL_REMAIN (R89). -/
  trialRes : Nat := 0
  /-- Permissions of an accepted debug unlock (R383): those that the next reset brings, and those of the last reset. -/
  unlockNext : Option Nat := none
  unlocked : Option Nat := none
deriving DecidableEq, Repr


/-! ## Snapshots, summaries, SMBus (R246 to R248, R360, R361, R424, R425) -/

/-- A summary being taken: the tick S, the address latched at GO, its SEQ, the record once latched. -/
structure SumRun where
  s : Nat
  addr : Nat := 0
  /-- The record as it stood at S, its number and CRC left out. -/
  image : Option (List Byte) := none
  data : Option (List Byte) := none
deriving DecidableEq, Repr

/-- Summaries of the host, SMBus and ring buffers; the SMBus buffer and its pointer. -/
structure Sums where
  host : Option SumRun := none
  smb : Option SumRun := none
  smbBuf : Option (List Byte) := none
  smbPtr : Nat := 0
  ringBuf : Option (List Byte) := none
  /-- Summaries taken since LOAD. -/
  taken : Nat := 0
deriving DecidableEq, Repr

/-- A pending statistics snapshot (R246, R247): its instant as a raw tick, or as a scale code and a time in 2^-16 ns; SEQ it will take; S once latched. -/
structure StatRun where
  scale : Option Nat := none
  value : Int := 0
  seq : Nat
  latched : Option Nat := none
deriving DecidableEq, Repr

/-! ## Serial memory and updates (R396 to R409) -/

/-- What a boot header says of one image bank or Position slot (R397). -/
structure BankRec where
  state : Nat := 0
  gen : Nat := 0
  id : Nat := 0
  size : Nat := 0
  digest : List Byte := []
  dgOk : Bool := false
deriving DecidableEq, Repr

/-- A boot header (R397): image banks, then Position slots, with the active and previous one of each kind. -/
structure BootHdr where
  seq : Nat := 0
  active : Nat := 0
  prev : Nat := 1
  posActive : Nat := 0
  posPrev : Nat := 1
  banks : List BankRec := [{}, {}]
  slots : List BankRec := [{}, {}]
deriving DecidableEq, Repr

/-- One copy of a settings bank (R408): FORMAT, SEQ and records by tag; key records (0x0010) are keyed by slot in the low byte of the second key. -/
structure SetCopy where
  format : Nat := 0
  seq : Nat := 0
  recs : List ((Nat × Nat) × List Byte) := []
deriving DecidableEq, Repr

/-- The serial memory outside the image banks and Position slots: the valid boot-header copies, the settings banks' valid copies, the boot journal (newest first): AON counter, banks and slots tried, reason codes. -/
structure Nv where
  hdrs : List (Option BootHdr) := [none, none]
  sets : List (List (Option SetCopy)) := [[none, none], [none, none]]
  journal : List (Nat × List Nat × List Nat × List Nat) := []
deriving DecidableEq, Repr

/-- A block of a ring session being gathered (R399). -/
structure PartBlock where
  index : Nat
  crc : Nat
  parts : Nat
  got : List (Nat × List Byte) := []
deriving DecidableEq, Repr

/-- A block forwarded and not acknowledged (R404): index, raw tick of its last try, tries. -/
structure SentBlock where
  index : Nat
  at' : Nat
  tries : Nat := 1
deriving DecidableEq, Repr

/-- Forwarding of a session (R404): ring port, HOPS of what is sent, whether the OPEN has been answered, blocks to send, sent, acknowledged; CLOSE owed, CLOSE sent. -/
structure Fwd where
  port : Nat
  hops : Nat
  opened : Bool := false
  queue : List Nat := []
  sent : List SentBlock := []
  acked : List Nat := []
  closing : Bool := false
  closed : Bool := false
deriving DecidableEq, Repr

/-- The update session (R398 to R404). -/
structure Upd where
  /-- 0 host, 1 RING_L, 2 RING_R. -/
  source : Nat
  kind : Nat
  held : Bool := false
  id : Nat
  gen : Nat
  size : Nat
  digest : List Byte
  origin : List Byte
  seq : Nat
  /-- Bank or slot that is written. -/
  target : Nat
  /-- Row 5 of R400 was passed by privilege. -/
  dg : Bool := false
  stored : List Nat := []
  /-- Raw tick of the last ring message. -/
  last : Nat := 0
  parts : List PartBlock := []
  /-- Blocks kept by a device that answered HELD. -/
  keep : List (Nat × List Byte) := []
  fwd : Option Fwd := none
deriving DecidableEq, Repr

/-! ## Goeri ring (R385 to R395) -/

/-- One ring port beside its registers. -/
structure RPort where
  /-- End of the last frame sent, in ticks. -/
  busy : Nat := 0
  /-- COMPARE frames sent, newest first: SEQ and launch in 2^-16 tick at the balls. -/
  sent : List (Nat × Nat) := []
  /-- SEQ and arrival of the last COMPARE received, its STATE and STEPS. -/
  rx : Option (Nat × Nat) := none
  steps : Nat := 0
  /-- Twice the last 16 values θ on the scale of each chain-peer slot's owner: against Scale A and B, in 2^-16 ns. -/
  thA : List Int := []
  thB : List Int := []
  lastPair : Option Nat := none
  pairs : Nat := 0
  origin : Option (List Byte) := none
deriving DecidableEq, Repr

/-- A ring query that this device has sent (R395). -/
structure RingQ where
  desc : Nat
  kind : Nat
  seq : Nat
  since : Nat
  recs : List (List Byte) := []
deriving DecidableEq, Repr

/-- A SUMMARY query answered for another device, until the record is latched (R395). -/
structure RingSum where
  port : Nat
  origin : List Byte
  seq : Nat
  hops : Nat
  s : Nat
  /-- The record as it stood at S, its number and CRC left out. -/
  image : Option (List Byte) := none
deriving DecidableEq, Repr

/-- The ring logic. -/
structure Ring where
  ports : List RPort := [{}, {}]
  /-- SEQ of the next message this device originates. -/
  seq : Nat := 0
  evq : List (List Byte) := []
  query : Option RingQ := none
  sums : List RingSum := []
  /-- The bypass has opened in this LOAD: both ports have trained (R95). -/
  opened : Bool := false
deriving DecidableEq, Repr

/-! ## The device, its memories and the queue -/

/-- Everything the device holds, but the memories reached by posted writes and the command queue. -/
structure Dev where
  bus : Bus := {}
  clk : Clk := {}
  ts : Ts := {}
  refs : Refs := {}
  tin : List TimIn := List.replicate 8 {}
  gn : Gnss := {}
  cks : Cks := {}
  pcie : Pcie := {}
  dies : List Die := [{}, {}, {}, {}]
  /-- Junction temperatures in 0.125 °C: keeper, answer dies 0 to 3, ledger dies 0 and 1 (R360). -/
  temps : List Int := List.replicate 7 0
  keys : Keys := {}
  bn : Option BnJob := none
  nv : Nv := {}
  upd : Option Upd := none
  ring : Ring := {}
  pos : Pos := {}
  eu : Eu := {}
  md : Md := {}
  streams : List Strm := List.replicate 8 {}
  sums : Sums := {}
  statRun : Option StatRun := none
  /-- The host rings' counters as the last snapshot latched them, by BAR0 offset (R246); no register shows them. -/
  ringSnap : SMap Word := []
  /-- Register batches published by the firmware: epoch, and the writes (R321). -/
  batches : List (Nat × List (Nat × Word)) := []
  openFaults : List OpenFault := []
  ret : Retention := {}
  /-- Registers changed of late: tick of the change, offset, value before it, newest first (R37, R70). -/
  hist : List (Nat × Nat × Word) := []
  /-- What the device has put out, newest first (frames, messages, read data, pin changes). -/
  out : List Output := []
  /-- Writes to host memory posted by the command in execution (R331). -/
  posted : List MemOp := []
  /-- Writes to the ledger posted by the command in execution. -/
  lposted : List MemOp := []
  /-- Writes to the serial memory posted by the command in execution. -/
  fposted : List MemOp := []
  /-- Number of free values drawn so far: the model's own field, not the spec's. -/
  freeCtr : Nat := 0
deriving DecidableEq, Repr

/-- The whole state: the device, host memory (R331), the ledger (R275), the serial memory (R396) and the commands waiting, first in first out. -/
structure State where
  dev : Dev := {}
  host : Mem := []
  ledger : Mem := []
  /-- Image banks and Position slots of the serial memory, by its offsets (R396). -/
  flash : Mem := []
  pending : List Instr := []
deriving DecidableEq, Repr

/-- Reasons for which a step could stop with a fault. No meaning of this model raises one: every fault of the spec is an effect on State (R420, R422). -/
inductive Fault where
  /-- Never raised; kept so that the type is not empty. Safe. -/
  | none
deriving DecidableEq, Repr

/-- Reasons for which a step could answer no state. -/
inductive Refusal where
  /-- A command with no meaning yet. Safe. -/
  | notModelled (mnemonic : String)
deriving DecidableEq, Repr

/-- The device right after reset: LOAD has been entered and none of its steps has run (MODE_STATUS reads 1), every register at its reset value, every memory empty. -/
def State.reset : State := {}


end Sys2Proof.Machine
end

