-- ==== Sys2Proof/Machine/Operands.lean ====
section
/-! DEFINITION. Reading and writing registers, fields and multiword values from inside the device; reset values; lookup of an offset in the register map (R458). -/

namespace Sys2Proof.Machine

/-- A place in the register map: bank, row, answer die, indices, and where its block reports (R458, R459). -/
structure Hit where
  bank : BankId
  row : RegRow
  die : Option Nat
  i : Nat
  j : Nat
  w : Nat
  status : Nat
  guard : Option Nat
deriving Repr

/-- Row of a bank that assigns offset o from the bank's (i, j) element. -/
def findRow (rows : List RegRow) (o : Nat) : Option (RegRow × Nat) :=
  rows.findSome? fun r =>
    if r.off ≤ o ∧ (o - r.off) % r.repStride = 0 ∧ (o - r.off) / r.repStride < r.rep then
      some (r, (o - r.off) / r.repStride)
    else none

/-- The element of a bank that offset o falls in: indices and remainder. -/
def Bank.locate (b : Bank) (o : Nat) : Option (Nat × Nat × Nat) :=
  if o < b.base then none else
  let x := o - b.base
  let i := if b.stride = 0 then 0 else x / b.stride
  let x := if b.stride = 0 then x else x % b.stride
  let j := if b.stride2 = 0 then 0 else x / b.stride2
  let x := if b.stride2 = 0 then x else x % b.stride2
  if i < b.n ∧ j < b.n2 then some (i, j, x) else none

def findIn (banks : List Bank) (die : Option Nat) (base o : Nat) : Option Hit :=
  banks.findSome? fun b =>
    match b.locate o with
    | none => none
    | some (i, j, x) =>
      match findRow b.rows x with
      | none => none
      | some (r, w) => some { bank := b.id, row := r, die := die, i := i, j := j, w := w,
                              status := base + b.status, guard := b.guard.map (base + ·) }

/-- The register that BAR0 offset a names, if any (R458). -/
def lookup (a : Nat) : Option Hit :=
  if a < 0x100000 then findIn keeperBanks none 0 a
  else if a < 0x500000 then
    let n := a / 0x100000 - 1
    findIn dieBanks (some n) (dieBase n) (a % 0x100000)
  else none

/-- Reset value of a register (the register tables). -/
def regReset (a : Nat) : Word :=
  match lookup a with
  | some h => BitVec.ofNat 32 h.row.reset
  | none => 0

/-- The stored value of a register. -/
def Dev.reg (d : Dev) (a : Nat) : Word := SMap.find regReset d.bus.regs a

/-- Stores a register. -/
def Dev.setReg (d : Dev) (a : Nat) (v : Word) : Dev :=
  { d with bus.regs := SMap.put regReset d.bus.regs a v }

/-- A field of a register. -/
def Dev.get (d : Dev) (f : Fld) : Nat := bits f.hi f.lo (d.reg f.addr)

/-- Writes one field; the other bits of the register are kept. -/
def Dev.set (d : Dev) (f : Fld) (v : Nat) : Dev :=
  d.setReg f.addr (putBits f.hi f.lo (d.reg f.addr) v)

/-- A one-bit field as a truth value. -/
def Dev.flag (d : Dev) (f : Fld) : Bool := d.get f == 1

def Dev.setFlag (d : Dev) (f : Fld) (b : Bool) : Dev := d.set f (boolNat b)

/-- Value of k consecutive words, least significant first (R14). -/
def Dev.wide (d : Dev) (a : Nat) : Nat → Nat
  | 0 => 0
  | k + 1 => (d.reg a).toNat + 2 ^ 32 * Dev.wide d (a + 4) k

/-- Stores a value over k consecutive words, least significant first. -/
def Dev.setWide (d : Dev) (a : Nat) : Nat → Nat → Dev
  | 0, _ => d
  | k + 1, v => Dev.setWide (d.setReg a (BitVec.ofNat 32 v)) (a + 4) k (v / 2 ^ 32)

/-- A 64-bit register. -/
def Dev.get64 (d : Dev) (a : Nat) : Nat := d.wide a 2
def Dev.set64 (d : Dev) (a v : Nat) : Dev := d.setWide a 2 v

/-- Adds n to a 32-bit counter that wraps. -/
def Dev.count32 (d : Dev) (a : Nat) (n : Nat := 1) : Dev :=
  d.setReg a (d.reg a + BitVec.ofNat 32 n)

/-- Adds n to a 64-bit counter (low word first) that wraps. -/
def Dev.count64 (d : Dev) (a : Nat) (n : Nat := 1) : Dev :=
  d.set64 a ((d.get64 a + n) % 2 ^ 64)

/-- Adds to a field that saturates at its maximum. -/
def Dev.countSat (d : Dev) (f : Fld) (n : Nat := 1) : Dev :=
  d.set f (min (d.get f + n) (2 ^ (f.hi + 1 - f.lo) - 1))

/-- The keeper's shadow takes the present value of an answer-die register that has been written (R90). -/
def Dev.keepShadow (d : Dev) (a : Nat) : Dev :=
  { d with bus.shadow := (a, d.reg a) :: d.bus.shadow.filter (·.1 != a) }

/-- A register restored from a shadow value: its writable fields; status fields keep what they hold. -/
def RegRow.restore (r : RegRow) (old v : Word) : Word :=
  r.fields.foldl (fun w f =>
    match f.acc with
    | .rw | .rwl | .rwg => putBits f.hi f.lo w (bits f.hi f.lo v)
    | _ => w) old

/-- The operating mode codes of R76. -/
inductive Mode where
  | bypass | load | standby | warm | serve | trial | test | safe
deriving DecidableEq, Repr

def Mode.decode : Nat → Mode
  | 0 => .bypass | 1 => .load | 2 => .standby | 3 => .warm
  | 4 => .serve | 5 => .trial | 6 => .test | _ => .safe

def Mode.code : Mode → Nat
  | .bypass => 0 | .load => 1 | .standby => 2 | .warm => 3
  | .serve => 4 | .trial => 5 | .test => 6 | .safe => 7

def Dev.mode (d : Dev) : Mode := Mode.decode (d.get F.MODE_STATUS_MODE)

/-- LOAD has completed (R88). -/
def Dev.loaded (d : Dev) : Bool := d.mode ≠ .bypass && d.mode ≠ .load

/-- The device answers (R75): SERVE or TRIAL. -/
def Dev.serving (d : Dev) : Bool := d.mode == .serve || d.mode == .trial

/-- The TB-PLL is off (R92). -/
def Dev.coarse (d : Dev) : Bool := d.flag F.MODE_STATUS_TB_OFF

/-- The TB-PLL was off at a raw count. -/
def Dev.coarseAt (d : Dev) (r : Nat) : Bool := d.clk.coarseSpans.any fun p => decide (p.1 ≤ r) && p.2.all (r < ·)

/-- Acts only once LOAD has completed: before, writes to all but the keeper global block are discarded (R88). -/
def Dev.whenUp (d : Dev) (f : Dev → Dev) : Dev := if d.loaded then f d else d

/-- R49 states. -/
abbrev stRunning : Nat := 0
abbrev stStopping : Nat := 1
abbrev stStopped : Nat := 2
abbrev stStarting : Nat := 3

/-- R49 state of answer die n in DIE_STATE. -/
def Dev.dieSt (d : Dev) (n : Nat) : Nat := d.get F.DIE_STATE_STATE / 4 ^ n % 4

/-- An answer die that is powered: running, draining or, for R416, starting. -/
def Dev.diePowered (d : Dev) (n : Nat) : Bool := d.dieSt n != stStopped && d.dieSt n != stStarting

/-- The ticks of one millisecond, one microsecond, one second. -/
abbrev msTicks : Nat := 800000
abbrev usTicks : Nat := 800
abbrev secTicks : Nat := 800000000

/-- The publication lead of R30: 16,384 ticks. -/
abbrev leadTicks : Nat := 16384

/-- The raw count of the present instant (R96). -/
def Dev.raw (d : Dev) : Nat := d.clk.raw

/-- The raw count as a stamp reads it: with the TB-PLL off, a multiple of 80 ticks (R92). -/
def Dev.stampTick (d : Dev) (r : Nat) : Nat := if d.coarse then r / 80 * 80 else r

end Sys2Proof.Machine
end

