-- ==== Sys2Proof/Machine/Flags.lean ====
section
/-! DEFINITION. Status flags: sticky bits, performance counters, event sources and their deliveries (R354 to R359), the fault log (R423). -/

namespace Sys2Proof.Machine

/-! ## Output, posted writes, free values -/

/-- Puts one item out. -/
def Dev.emit (d : Dev) (o : Output) : Dev := { d with out := o :: d.out }

/-- Posts a write to host memory. -/
def Dev.post (d : Dev) (a : Nat) (bs : List Byte) : Dev :=
  { d with posted := d.posted ++ [.wr a bs] }

/-- Posts a write to the ledger. -/
def Dev.lpost (d : Dev) (a : Nat) (bs : List Byte) : Dev :=
  { d with lposted := d.lposted ++ [.wr a bs] }

/-- Posts a write to the serial memory. -/
def Dev.fpost (d : Dev) (a : Nat) (bs : List Byte) : Dev :=
  { d with fposted := d.fposted ++ [.wr a bs] }

/-- The number of the next free value, and the device that has drawn it. -/
def Dev.draw (d : Dev) : Nat × Dev := (d.freeCtr, { d with freeCtr := d.freeCtr + 1 })

/-! ## Limits (R61) -/

/-- Sets a sticky bit of a register. -/
def Dev.stick (d : Dev) (a b : Nat) : Dev :=
  d.setReg a (d.reg a ||| BitVec.ofNat 32 (2 ^ b))

/-- A field of a register or group lies within its limit (R61). -/
def Dev.within (d' : Dev) (x : Limit) : Bool :=
  let v := d'.wide x.addr ((x.lo + x.width + 31) / 32) / 2 ^ x.lo % 2 ^ x.width
  let i : Int := if x.least < 0 then toSigned x.width v else v
  decide (x.least ≤ i ∧ i ≤ x.most)

/-- Limits in force on the words of a write. -/
def limitsOn (l : List Limit) (ws : List (Nat × Word)) : List Limit := l.filter fun x => ws.any (·.1 == x.addr)

/-- A committed write of words keeps every limit in force on them (R61). -/
def Dev.limitOk (d : Dev) (ws : List (Nat × Word)) : Bool :=
  (limitsOn d.pos.limits ws).all (ws.foldl (fun d w => d.setReg w.1 w.2) d).within

/-- A committed write that makes register a read v has its effect, or is discarded with LIMIT_ERR in the status register of the owning block (R61). -/
def Dev.limited (d : Dev) (a : Nat) (v : Word) (f : Dev → Dev) : Dev :=
  if d.limitOk [(a, v)] then f d else d.stick (((lookup a).map (·.status)).getD A.GBL_STATUS) 2

/-- The same for a write of bit 0, the request bit of a register (R45). -/
def Dev.limitedBit (d : Dev) (a : Nat) (want : Bool) (f : Dev → Dev) : Dev :=
  d.limited a (putBits 0 0 (d.reg a) (boolNat want)) f

/-! ## Performance counters (R430 to R432) -/

/-- Adds n to one programmable 48-bit counter: its wrap sets CNT_OVF and may raise an event flag (returned). -/
def Dev.bumpProg (d : Dev) (cfg ovf k n : Nat) : Dev × Bool :=
  let v := d.get64 (cfg + 8) + n
  let d := d.set64 (cfg + 8) (v % 2 ^ 48)
  if v < 2 ^ 48 then (d, false)
  else ((d.setReg ovf (d.reg ovf ||| BitVec.ofNat 32 (2 ^ k))), bit (d.reg cfg).toNat 13)

/-- A counter counts event ev: ENABLE is 1 and EVENT names it (R430). -/
def Dev.counts (d : Dev) (cfg ev : Nat) : Bool :=
  bit (d.reg cfg).toNat 12 && bits 7 0 (d.reg cfg) == ev && ev != 0

/-- Adds n to every counter k < 4 (keeper) or 8 (die) that counts ev; answers whether an overflow event is to be raised. -/
def Dev.bumpAll (d : Dev) (cfg0 ovf ev n : Nat) : Nat → Dev × Bool
  | 0 => (d, false)
  | k + 1 =>
    let (d, r) := Dev.bumpAll d cfg0 ovf ev n k
    if d.counts (cfg0 + 0x20 * k) ev then
      let (d, r') := d.bumpProg (cfg0 + 0x20 * k) ovf k n
      (d, r || r')
    else (d, r)

/-- Adds n to a 64-bit counter for an event with an instant in 2^-16 tick (R245, R426). While a snapshot is latching, an event from before its S is counted in the copy too, up bytes further (R246). -/
def Dev.countStamped (d : Dev) (a up n t16 : Nat) : Dev :=
  let d := d.count64 a n
  if (d.statRun.bind (·.latched)).any fun s => decide (t16 < s * 65536) then d.count64 (a + up) n else d

/-! ## MSI-X (R357) -/

/-- Sends or holds one MSI-X message. -/
def Dev.msixSend (d : Dev) (v : Nat) : Dev :=
  if !d.flag F.PCIE_STATUS_MSIX_EN then d
  else match d.pcie.msix[v]? with
  | none => d
  | some e =>
    if d.flag F.PCIE_STATUS_D3 || d.pcie.funcMask || e.masked || !d.pcie.busMaster then
      { d with pcie.msix := setAt d.pcie.msix v { e with pending := true } }
    else
      let d := { d with pcie.msix := setAt d.pcie.msix v { e with pending := false } }
      let d := (d.bumpAll (A.K_CNT_CFG 0) A.K_CNT_OVF 0x08 1 4).1
      (d.post e.addr (leBytes 4 e.data)).emit (.msix v e.addr e.data)

/-! ## Host rings: write-back reports (R347) -/

def Dev.ringRt (d : Dev) (ring : Nat) : RingRt :=
  match d.pcie.rings.find? (·.1 = ring) with
  | some (_, r) => r
  | none => {}

def Dev.setRingRt (d : Dev) (ring : Nat) (r : RingRt) : Dev :=
  { d with pcie.rings := (ring, r) :: d.pcie.rings.filter (·.1 ≠ ring) }

/-- Ring registers by offset in a ring bank (R336). -/
def ringHead (ring : Nat) : Fld := ⟨ring + 0x10, 15, 0⟩
def ringTail (ring : Nat) : Fld := ⟨ring + 0x14, 15, 0⟩
def ringState (ring : Nat) : Fld := ⟨ring + 0xC, 2, 1⟩
def ringLog2 (ring : Nat) : Fld := ⟨ring + 8, 4, 0⟩

/-- Number of descriptors of a ring. -/
def Dev.ringSize (d : Dev) (ring : Nat) : Nat := 2 ^ d.get (ringLog2 ring)

/-- Host address of descriptor i of a ring. -/
def Dev.descAddr (d : Dev) (ring i : Nat) : Nat := d.get64 ring / 64 * 64 + 32 * i

/-- Sends the ring's MSI-X message and forgets the unreported write-backs. -/
def Dev.ringMessage (d : Dev) (ring : Nat) : Dev :=
  let d := d.setRingRt ring { d.ringRt ring with unrep := 0, oldest := none }
  d.msixSend (bits 5 0 (d.reg (ring + 0x18)))

/-- One write-back (or event record) of a ring: the COUNT and HOLDOFF rules of R347. -/
def Dev.ringReport (d : Dev) (ring : Nat) : Dev :=
  let rt := d.ringRt ring
  let irq := d.reg (ring + 0x18)
  let rt := { rt with unrep := rt.unrep + 1, oldest := some (rt.oldest.getD d.raw) }
  let d := d.setRingRt ring rt
  if bit irq.toNat 7 && (rt.unrep ≥ bits 15 8 irq || bits 31 16 irq == 0) then d.ringMessage ring
  else d

/-! ## Event table (R354 to R359) -/

/-- Level sources of R358. -/
def isLevel (src : Nat) : Bool :=
  src == 5 || src == 9 || src == 30 || src == 32 || (src ≥ 64 && src < 128 && src % 16 == 4)

def evStatus (src : Nat) : Fld := ⟨A.EV_STATUS (src / 32), src % 32, src % 32⟩
def evEnable (src : Nat) : Fld := ⟨A.EV_ENABLE (src / 32), src % 32, src % 32⟩

/-- Device-wide facts that level sources stand on. -/
def Dev.levelHolds (d : Dev) (src : Nat) : Bool :=
  if src = 5 then
    (d.get (ringState A.EVR_BASE) == stRunning) &&
      (d.get (ringHead A.EVR_BASE) + 1) % d.ringSize A.EVR_BASE == d.get (ringTail A.EVR_BASE)
  else if src = 9 then d.temps.any (· > 840)
  else if src = 30 then (List.range 8).any fun i => d.flag (F.IN_STATUS_CAL_WARN i)
  else if src = 32 then d.flag F.OSC_STATUS_AON_RC
  else if src ≥ 64 ∧ src % 16 = 4 then
    let n := (src - 64) / 16
    d.diePowered n && ((d.dies[n]?).map (·.everAligned)).getD false && !d.flag (F.REPLICA_STATUS_ALIGNED n)
  else false

/-- The 32-byte event record of R359. -/
def evRecord (tick src status index seq : Nat) (phase resent : Bool) : List Byte :=
  leBytes 8 tick ++ zeros 4 ++ [0xFF] ++ zeros 3 ++
  [byte src, byte (boolNat (isLevel src) + 2 * boolNat resent + 128 * boolNat phase)] ++ zeros 2 ++
  leBytes 4 seq ++ leBytes 4 status ++ [byte index] ++ zeros 3

/-- Remembers the latest raise of a source. -/
def Dev.remember (d : Dev) (src detail index : Nat) : Dev :=
  let r : Raised := { src := src, tick := d.raw, detail := detail, index := index }
  { d with pcie.raised := r :: d.pcie.raised.filter (·.src ≠ src) }

/-- The event ring is full: status of source 5 (R359). -/
def Dev.markFull (d : Dev) : Dev :=
  if d.get (evStatus 5) = 1 then d else (d.remember 5 (d.reg A.HD_STATUS).toNat 0).set (evStatus 5) 1

/-- What storing an event record leaves to be done once HEAD has moved to h (R359): source 5 where the ring is full from here on, the phase at the wrap, the count and the report. -/
def Dev.eventStored (d : Dev) (h : Nat) (phase : Bool) : Dev :=
  let ring := A.EVR_BASE
  let d := if (h + 1) % d.ringSize ring = d.get (ringTail ring) then d.markFull else d
  let d := if h = 0 then d.setRingRt ring { d.ringRt ring with phase := !phase } else d
  (d.count32 (ring + 0x20)).ringReport ring

/-- Writes one record to the event ring, or drops it when the ring is full (R359): EVR_DROP counts it and source 5's status is set. -/
def Dev.eventRing (d : Dev) (src tick status index : Nat) (resent : Bool) : Dev :=
  let ring := A.EVR_BASE
  if d.get (ringState ring) != stRunning then d else
  let rt := d.ringRt ring
  let d := d.setRingRt ring { rt with seq := (rt.seq + 1) % 2 ^ 32 }
  let h := d.get (ringHead ring)
  let h' := (h + 1) % d.ringSize ring
  if h' = d.get (ringTail ring) then
    (d.count32 (ring + 0x24)).markFull
  else
    let d := d.post (d.descAddr ring h) (evRecord tick src status index rt.seq rt.phase resent)
    (d.set (ringHead ring) h').eventStored h' rt.phase

/-- One delivery of a source to its route (R355). IRQ_N follows from status, enable and route (R356). -/
def Dev.deliver (d : Dev) (src tick status index : Nat) (resent : Bool := false) : Dev :=
  let d := (d.bumpAll (A.K_CNT_CFG 0) A.K_CNT_OVF 0x07 1 4).1
  let route := d.reg (A.EV_ROUTE src)
  match bits 1 0 route with
  | 1 => d.msixSend (bits 13 8 route)
  | 3 => d.eventRing src tick status index resent
  | _ => d

/-- Source 5 was set by a drop: its own delivery, which R355 never routes to the event ring. -/
def Dev.afterDrop (d d0 : Dev) : Dev :=
  if d.get (evStatus 5) == 1 && d0.get (evStatus 5) == 0 && d.get (evEnable 5) == 1 then
    d.deliver 5 d.raw (d.reg A.HD_STATUS).toNat 0
  else d

/-- A source is raised (R354): its status bit is set; if the bit was 0 and the source is enabled, one delivery is made. Sources of a gated die are not raised (R358). -/
def Dev.raise (d : Dev) (src : Nat) (status : Nat := A.GBL_STATUS) (index : Nat := 0) : Dev :=
  if src ≥ 64 ∧ d.dieSt ((src - 64) / 16) = stStopped then d
  else if d.get (evStatus src) = 1 then d
  else
    let d0 := d
    let d := (d.remember src (d.reg status).toNat index).set (evStatus src) 1
    if d.get (evEnable src) = 1 then
      (d.deliver src d.raw (d.reg status).toNat index).afterDrop d0
    else d

/-- Raises a level source if its condition holds (R354). -/
def Dev.raiseLevel (d : Dev) (src : Nat) (status : Nat := A.GBL_STATUS) (index : Nat := 0) : Dev :=
  if d.levelHolds src then d.raise src status index else d

/-- Status register and INDEX of a level source. -/
def Dev.levelWhere (d : Dev) (src : Nat) : Nat × Nat :=
  if src = 5 then (A.HD_STATUS, 0)
  else if src = 30 then
    let i := ((List.range 8).find? fun i => d.flag (F.IN_STATUS_CAL_WARN i)).getD 0
    (A.IN_STATUS i, i)
  else if src = 32 then (A.OSC_STATUS, 0)
  else if src ≥ 64 then (A.REPLICA_STATUS ((src - 64) / 16), 0)
  else (A.GBL_STATUS, 0)

/-- A level source is raised whenever its condition holds while its status is 0 (R354). -/
def Dev.levelCheck (d : Dev) (src : Nat) : Dev := d.raiseLevel src (d.levelWhere src).1 (d.levelWhere src).2

/-- The level sources of R358. -/
def levelSources : List Nat := [5, 9, 30, 32, 68, 84, 100, 116]

/-- One further delivery of a source, with the instant, DETAIL and INDEX of its raise (R354, R355). -/
def Dev.redeliver (d : Dev) (src : Nat) (resent : Bool) : Dev :=
  match d.pcie.raised.find? (·.src = src) with
  | some r => (d.deliver src r.tick r.detail r.index resent).afterDrop d
  | none => (d.deliver src d.raw 0 0 resent).afterDrop d

/-- Source k of answer die n (R358). -/
def dieSrc (n k : Nat) : Nat := 64 + 16 * n + k

/-- An internal reset is forced: its cause is set, and the reset is about to begin (R82). -/
def Dev.askReset (d : Dev) (cause : Nat) : Dev := { d.stick A.RESET_CAUSE cause with md.resetDue := true }

/-- Counts n of keeper event ev; an overflow may raise source 46 (R432). -/
def Dev.keeperCount (d : Dev) (ev : Nat) (n : Nat := 1) : Dev :=
  let (d, r) := d.bumpAll (A.K_CNT_CFG 0) A.K_CNT_OVF ev n 4
  if r then d.raise 46 A.K_CNT_BLK_STATUS else d

/-- Counts n of event ev on answer die n'; an overflow may raise the die's source 14 (R432). -/
def Dev.dieCount (d : Dev) (die ev : Nat) (n : Nat := 1) : Dev :=
  let (d, r) := d.bumpAll (A.D_CNT_CFG die 0) (A.D_CNT_OVF die) ev n 8
  if r then d.raise (dieSrc die 14) (A.D_CNT_BLK_STATUS die) else d

/-- IRQ_N is driven low: a source with KIND 2 has status and enable set (R356), outside BYPASS and LOAD (R95). -/
def Dev.irqLow (d : Dev) : Bool :=
  d.loaded && (List.range 128).any fun s =>
    bits 1 0 (d.reg (A.EV_ROUTE s)) == 2 && d.get (evStatus s) == 1 && d.get (evEnable s) == 1

/-! ## Faults (R420 to R423) -/

/-- A fault is detected; die 0xFF is the keeper. -/
def Dev.faultBegin (d : Dev) (code die index status : Nat) (afterLoad : Bool := false) : Dev :=
  let fr : FaultRec := { tick := d.raw, aon := d.ret.aon, code := code, die := die, index := index,
                         detail := (d.reg status).toNat }
  { d with openFaults := d.openFaults ++ [{ fr := fr, afterLoad := afterLoad }] }

/-- A fault ends after the given number of ticks from now. -/
def Dev.faultEnd (d : Dev) (code die index : Nat) (after : Nat := 0) : Dev :=
  { d with openFaults := d.openFaults.map fun f =>
      if f.fr.code = code ∧ f.fr.die = die ∧ f.fr.index = index ∧ f.ended = none then
        { f with ended := some (d.raw + after) } else f }

/-- A fault without duration. -/
def Dev.faultPulse (d : Dev) (code die index status : Nat) (lost : Nat := 0) : Dev :=
  let fr : FaultRec := { tick := d.raw, aon := d.ret.aon, code := code, die := die, index := index,
                         lost := lost, detail := (d.reg status).toNat }
  { d with openFaults := d.openFaults ++ [{ fr := fr, ended := some d.raw }] }

/-- Requests lost on a die count in every fault open on it (R423). -/
def Dev.faultLost (d : Dev) (die : Nat) (n : Nat := 1) : Dev :=
  { d with openFaults := d.openFaults.map fun f =>
      if f.fr.die = die ∧ !f.afterLoad ∧ (f.ended.all (d.raw < ·)) then { f with fr.lost := min 65535 (f.fr.lost + n) } else f }

/-- A detected fault is in progress on answer die n (R36). -/
def Dev.inFault (d : Dev) (die : Nat) : Bool :=
  d.openFaults.any fun f => f.fr.die = die && !f.afterLoad && f.ended.all (d.raw < ·)

/-- An uncorrectable ledger error is counted on its ledger die (LMC_UE). -/
def Dev.ledgerUe (d : Dev) : Dev :=
  let (n, d) := d.draw
  d.count32 (A.LMC_UE (Config.ledgerDie n % 2))

end Sys2Proof.Machine
end

