-- ==== Sys2Proof/Machine/Ops.lean ====
section
/-! DEFINITION. How a command's effect is answered (posted writes settled into the memories), and the shutdown and re-enable rule shared by every block (R45 to R50). -/

namespace Sys2Proof.Machine

/-- What a step answers. -/
abbrev Answer := Host.Outcome State Fault Refusal

/-- The device after a command, its posted writes made in order. -/
def State.commit (s : State) (d : Dev) : State :=
  { s with dev := { d with posted := [], lposted := [], fposted := [] }
           host := s.host.ops d.posted
           ledger := s.ledger.ops d.lposted
           flash := s.flash.ops d.fposted }

/-- A command whose effect is a function of the device. -/
def State.run (s : State) (f : Dev → Dev) : Answer := .next (s.commit (f s.dev))

/-- A command whose effect also reads host memory and the ledger. -/
def State.runM (s : State) (f : Mem → Mem → Dev → Dev) : Answer :=
  .next (s.commit (f s.host s.ledger s.dev))

/-- A command whose effect also reads the serial memory. -/
def State.runF (s : State) (f : Mem → Mem → Mem → Dev → Dev) : Answer :=
  .next (s.commit (f s.host s.ledger s.flash s.dev))

/-! ## Shutdown and re-enable (R45 to R50) -/

/-- What a request makes a block do. -/
inductive EnAct where
  | nothing | start | stop
deriving DecidableEq, Repr

/-- The outcome of a request: the action, the companion bit after it, and the code (0 ACCEPTED, 1 LATCHED). -/
structure EnRes where
  act : EnAct
  latched : Bool
  code : Nat
deriving DecidableEq, Repr

/-- A request for service (want) or for shutdown, by the block's R49 state (R46, R47, R50). -/
def enableReq (st : Nat) (want : Bool) : EnRes :=
  match st with
  | 0 => { act := if want then .nothing else .stop, latched := false, code := 0 }
  | 1 => { act := .nothing, latched := want, code := boolNat want }
  | 2 => { act := if want then .start else .nothing, latched := false, code := 0 }
  | _ => { act := .nothing, latched := !want, code := boolNat !want }

/-- The state a block enters when its action starts. -/
def EnAct.state (st : Nat) : EnAct → Nat
  | .nothing => st
  | .start => stStarting
  | .stop => stStopping

end Sys2Proof.Machine
end

