-- ==== Sys2Proof/Machine/TimeArith.lean ====
section
/-! DEFINITION. Time values (R3, R4, R7, R8), the scale mapping (R99 to R102), served time (R121), UTC and the leap smear (R117, R120). Instants r16 are in 2^-16 tick, times in 2^-72 ns ("t72") or 2^-16 ns ("t16"). -/

namespace Sys2Proof.Machine

/-- The nominal increment 1.25 × 2^56 (R99). -/
def nominalIncr : Nat := 0x0140000000000000

/-- One second in 2^-16 ns and in 2^-72 ns. -/
def sec16 : Nat := 1000000000 * 65536
def sec72 : Int := (sec16 * 2 ^ 56 : Nat)

/-- A raw tick as an instant in 2^-16 tick. -/
def ticks16 (r : Nat) : Nat := r * 65536

/-- Value of a set at an instant in 2^-72 ns (R99, without the last truncation), with the last-tick limit of R110. -/
def PSet.eval (p : PSet) (r16 : Nat) : Int :=
  let dr : Int := (r16 : Int) - (ticks16 p.epoch : Nat)
  let v := p.ofs + dr * p.incr
  match p.slew with
  | none => v
  | some f =>
    if ticks16 (f.endEpoch - 1) ≤ r16 then
      let base := if f.neg then (p.incr : Int) + f.delta else (p.incr : Int) - f.delta
      let lim := p.ofs + dr * base + (if f.neg then -(f.rem : Int) else f.rem)
      if f.neg then max v lim else min v lim
    else v

/-- Increment of a set without its slew term: INCR0 of R110. -/
def PSet.incr0 (p : PSet) : Nat :=
  match p.slew with
  | none => p.incr
  | some f => if f.neg then p.incr + f.delta else p.incr - f.delta

/-- Every set published: end sets, pending set, journal (R107). -/
def Scale.sets (sc : Scale) : List PSet := sc.ends ++ sc.pend.toList ++ sc.journal

/-- The latest set of a list whose epoch lies at or before an instant (R101, R107). -/
def latestSet (l : List PSet) (r16 : Nat) : Option PSet :=
  l.foldl (fun acc p =>
    if ticks16 p.epoch ≤ r16 then
      match acc with
      | none => some p
      | some q => if q.epoch ≤ p.epoch then some p else acc
    else acc) none

def Scale.setAt (sc : Scale) (r16 : Nat) : Option PSet := latestSet sc.sets r16

/-- T(r) of a scale in 2^-72 ns; none before the oldest journal entry (R107). -/
def Scale.time72 (sc : Scale) (r16 : Nat) : Option Int := (sc.setAt r16).map (·.eval r16)

/-- An answer die's own copy of a scale (R29): what has been published to die n. -/
def Scale.heldBy (sc : Scale) (n : Nat) : Scale :=
  { sc with journal := sc.journal.filter fun p => bit p.held n
            pend := sc.pend.filter fun p => bit p.held n
            ends := sc.ends.filter fun p => bit p.held n
            quality := sc.quality.filter fun q => bit q.held n }

/-- Truncation toward minus infinity to 2^-16 ns (R99 step 4). -/
def floor16 (t72 : Int) : Int := t72 / (2 ^ 56 : Nat)

def Ts.scale (ts : Ts) (k : Nat) : Scale := if k = 0 then ts.a else ts.b
def Ts.setScale (ts : Ts) (k : Nat) (sc : Scale) : Ts := if k = 0 then { ts with a := sc } else { ts with b := sc }

/-- The time-scale unit as answer die n holds it (R29, R30). -/
def Ts.heldBy (ts : Ts) (n : Nat) : Ts :=
  { ts with a := ts.a.heldBy n, b := ts.b.heldBy n, switches := ts.switches.filter fun w => bit w.held n }

/-- Bridge offset of a switch at an instant, in 2^-72 ns (R121). -/
def Switch.bridge (w : Switch) (r16 : Nat) : Int :=
  let m : Int := (w.d.natAbs : Int) - ((r16 : Int) - (ticks16 w.s : Nat)) * w.delta
  let m := max 0 m
  if w.d < 0 then -m else m

/-- The switch in force at an instant; none: Scale A with no bridge (R121). -/
def Ts.switchAt (ts : Ts) (r16 : Nat) : Option Switch := ts.switches.find? fun w => ticks16 w.s ≤ r16

/-- The scale served at an instant. -/
def Ts.servedAt (ts : Ts) (r16 : Nat) : Nat := ((ts.switchAt r16).map (·.target)).getD 0

/-- Served time in 2^-72 ns (R121). -/
def Ts.served72 (ts : Ts) (r16 : Nat) : Option Int :=
  match ts.switchAt r16 with
  | none => ts.a.time72 r16
  | some w => ((ts.scale w.target).time72 r16).map (· + w.bridge r16)

/-- Time on scale code 0 A, 1 B, 2 served (R7), in 2^-72 ns. -/
def Ts.time72 (ts : Ts) (code r16 : Nat) : Option Int :=
  if code = 2 then ts.served72 r16 else (ts.scale code).time72 r16

/-- Time in 2^-16 ns, as a stamp carries it. -/
def Ts.time16 (ts : Ts) (code r16 : Nat) : Option Int := (ts.time72 code r16).map floor16

/-- Seconds (48 bits), nanoseconds and fraction of a time in 2^-16 ns (R3). -/
def splitTime (t16 : Int) : Nat × Nat × Nat :=
  let s := t16 / (sec16 : Int)
  let r := (t16 - s * sec16).toNat
  (ofSigned 48 s, r / 65536, r % 65536)

/-- The value of a time given as seconds, nanoseconds and fraction. -/
def joinTime (s ns frac : Nat) : Int := ((s * sec16 + ns * 65536 + frac : Nat) : Int)

/-- Stores a time value in four registers (R4). -/
def Dev.setTime (d : Dev) (a : Nat) (t16 : Int) : Dev :=
  let (s, ns, f) := splitTime t16
  d.setWide a 4 (f + 2 ^ 32 * ns + 2 ^ 64 * s)

/-- Reads a time value from four registers (R4). -/
def Dev.getTime (d : Dev) (a : Nat) : Int :=
  joinTime ((d.reg (a + 8)).toNat + 2 ^ 32 * (d.reg (a + 12)).toNat) (d.reg (a + 4)).toNat ((d.reg a).toNat % 65536)

/-- The R7 record of a time. -/
def timeRecord (t16 : Int) (scale flags : Nat) : List Byte :=
  let (s, ns, f) := splitTime t16
  leBytes 6 s ++ leBytes 4 ns ++ leBytes 2 f ++ [byte scale, byte flags] ++ zeros 2

/-- The raw form of a stamp (R8). -/
def rawRecord (r16 flags : Nat) : List Byte :=
  leBytes 8 (r16 / 65536) ++ leBytes 2 (r16 % 65536) ++ zeros 2 ++ [0xFF, byte flags] ++ zeros 2

/-! ## UTC (R117) -/

/-- UTC offset at a TAI time in 2^-16 ns: the latest entry with L ≤ t, or UTC_BASE. -/
def utcOffset (leaps : List Leap) (base : Int) (t16 : Int) : Int :=
  leaps.foldl (fun acc l => if (l.sec * sec16 : Nat) ≤ t16 then l.offset else acc) base

/-- UTC(t) = t − offset(t). -/
def utcOf (leaps : List Leap) (base : Int) (t16 : Int) : Int := t16 - utcOffset leaps base t16 * sec16

/-- UTC_BASE as a signed number of seconds. -/
def Dev.utcBase (d : Dev) : Int := toSigned 16 (d.get F.UTC_BASE_OFFSET)

/-- TAI of a UTC time: the TAI t with UTC(t) = u whose offset is that of the second estimated with UTC_BASE (R351, DEDUCED). -/
def Dev.taiOf (d : Dev) (u16 : Int) : Int :=
  let est := u16 + d.utcBase * sec16
  u16 + utcOffset d.ts.leaps d.utcBase est * sec16

/-- Smeared UTC and whether a correction was applied (R120): W in seconds; added: the scale's time when the entry was added. -/
def smearOf (leaps : List Leap) (base : Int) (w : Nat) (added : Leap → Int) (t16 : Int) : Int × Bool :=
  match leaps.find? (fun l => t16 < (l.sec * sec16 : Nat)) with
  | none => (utcOf leaps base t16, false)
  | some l =>
    let l16 : Int := (l.sec * sec16 : Nat)
    let old := utcOffset leaps base t16
    let start := max (l16 - (w * sec16 : Nat)) (added l)
    if t16 < start ∨ l16 ≤ start then (utcOf leaps base t16, false)
    else
      let corr := ((l.offset - old) * sec16 * (t16 - start)).tdiv (l16 - start)
      (t16 - old * sec16 - corr, corr != 0)

/-! ## Whole seconds of a scale -/

/-- First tick at or after r0 at which a scale reads at or past b72, its published sets as they stand (R115). -/
def Scale.firstTick (sc : Scale) (b72 : Int) : Nat → Nat → Nat
  | 0, r0 => r0
  | fuel + 1, r0 =>
    match sc.setAt (ticks16 r0) with
    | none => r0
    | some p =>
      let t := p.eval (ticks16 r0)
      if b72 ≤ t then r0 else
      let step : Int := p.incr * 65536
      if step ≤ 0 then r0 else
      let c := r0 + ((b72 - t + step - 1) / step).toNat
      let next := (sc.sets.filter (fun q => r0 < q.epoch ∧ q.epoch ≤ c)).foldl (fun m q => min m q.epoch) (c + 1)
      if next ≤ c then Scale.firstTick sc b72 fuel next
      else if b72 ≤ p.eval (ticks16 c) then c else Scale.firstTick sc b72 fuel (c + 1)

/-- First tick at or after r0 at which the scale is at or past a whole second (R115, R144). -/
def Scale.secondTick (sc : Scale) (r0 : Nat) : Nat :=
  match sc.time72 (ticks16 r0) with
  | none => r0
  | some t => sc.firstTick (-((-t) / sec72) * sec72) 64 r0

/-- A raw instant at which a scale reads a given time in 2^-72 ns, in 2^-16 tick, rounded down; by the set in force at r0. -/
def Scale.instant16 (sc : Scale) (r0 : Nat) (t72 : Int) : Int :=
  match sc.setAt (ticks16 r0) with
  | none => ticks16 r0
  | some p => if p.incr = 0 then ticks16 r0 else (ticks16 r0 : Nat) + (t72 - p.eval (ticks16 r0)) / (p.incr : Int)

end Sys2Proof.Machine
end

