-- ==== Sys2Proof/Machine/Scales.lean ====
section
/-! DEFINITION. Time-scales: forming and applying parameter sets, slews, steps, capture, conversion (R96 to R116). -/

namespace Sys2Proof.Machine

/-- Unapplied part of a running slew at an instant, signed, in 2^-72 ns (R111); 0 when none runs. -/
def PSet.remainAt (p : PSet) (e16 : Nat) : Int :=
  match p.slew with
  | none => 0
  | some f =>
    let m : Int := max 0 ((f.rem : Int) - ((e16 : Int) - (ticks16 p.epoch : Nat)) * f.delta)
    if f.neg then -m else m

/-- The slew of an amount at a rate from tick e: δ and N of R110. An amount of 0, alone or combined under R111, makes no slew: no slew fields, no end set (DESIGN CHOICE: by R110 it would end at its own start). -/
def slewOf (e incr0 : Nat) (amount : Int) (ppb : Nat) : Option SlewF :=
  let delta := incr0 * ppb / 1000000000
  if amount = 0 ∨ delta = 0 then none
  else
    let a := amount.natAbs
    some { endEpoch := e + (a + delta * 65536 - 1) / (delta * 65536), delta := delta, neg := amount < 0, rem := a }

def SlewF.signed (f : SlewF) (x : Nat) : Int := if f.neg then -(x : Int) else x

/-- SEQ after the given one: wraps to 1 (R103). -/
def seqAfter (n : Nat) : Nat := if n + 1 ≥ 2 ^ 32 then 1 else n + 1

/-- Two changes with one epoch, the earlier request first (R115): an absolute setting supersedes what came before it. -/
def Change.merge (a b : Change) : Change :=
  { cause := a.cause ||| b.cause
    abs := b.abs.orElse fun _ => a.abs
    step := if b.abs.isSome then b.step else a.step + b.step
    incr0 := b.incr0.orElse fun _ => a.incr0
    slew := match a.slew, b.slew with
      | some (x, _), some (y, p) => some (x + y, p)
      | some s, none => some s
      | none, s => s }

/-- The set at tick e that follows set p (R102, R110 to R112, R115): its OFFSET is the value of p at e, or the absolute setting, and the step; a slew of p runs on unless it ends at e (CAUSE SLEW_END), and a new one takes its remainder; c: what the set itself changes. -/
def PSet.then (p : PSet) (e seq : Nat) (c : Option Change) : PSet :=
  let ch := c.getD { cause := 0 }
  let running := p.slew.filter fun f => e < f.endEpoch
  let ends := p.slew.any fun f => decide (f.endEpoch = e)
  let rem : Int := (running.map fun _ => p.remainAt (ticks16 e)).getD 0
  let incr0 := ch.incr0.getD p.incr0
  let slew := match ch.slew with
    | some (a, ppb) => slewOf e incr0 (rem + a) ppb
    | none => running.map fun f => { f with rem := rem.natAbs }
  { seq := seq, epoch := e, ofs := ch.abs.getD (p.eval (ticks16 e)) + ch.step
    incr := match slew with
      | none => incr0
      | some f => ((incr0 : Int) + f.signed f.delta).toNat
    cause := ch.cause ||| (if ends then 8 else 0)
    slew := slew, chg := c }

/-- The sets that follow p, formed again: the end set of its slew and the changes with their epochs, in order; an end set at the epoch of a change is merged with it (R115). seqs: the numbers that sets formed before had. -/
def PSet.follow (p : PSet) (fuel : Nat) (changes : List (Nat × Change)) (seqs : List Nat) (next : Nat) : List PSet × Nat :=
  match fuel with
  | 0 => ([], next)
  | fuel + 1 =>
    let at' : Option (Nat × Option Change × List (Nat × Change)) :=
      match p.slew, changes with
      | none, [] => none
      | none, (e, c) :: cs => some (e, some c, cs)
      | some f, [] => some (f.endEpoch, none, [])
      | some f, (e, c) :: cs => if f.endEpoch < e then some (f.endEpoch, none, changes) else some (e, some c, cs)
    match at' with
    | none => ([], next)
    | some (e, c, cs) =>
      let (seq, seqs, next) := match seqs with
        | s :: r => (s, r, next)
        | [] => (next, [], seqAfter next)
      let q := p.then e seq c
      let (l, next) := q.follow fuel cs seqs next
      (q :: l, next)

/-- The latest set before an epoch. -/
def Scale.before (sc : Scale) (e : Nat) : Option PSet := latestSet (sc.sets.filter (·.epoch < e)) (ticks16 e)

/-- Forms a set with a change at an epoch (R102 to R105, R110 to R112, R115). The sets held beside the pending set that lie after it are formed again; at the epoch of one of them the change is merged into it, else the set becomes the pending set. -/
def Scale.form (sc : Scale) (e : Nat) (c : Change) : Scale :=
  match sc.before e with
  | none => sc
  | some p =>
    let same := sc.ends.find? (·.epoch = e)
    let later := sc.ends.filter (e < ·.epoch)
    let change := match same.bind (·.chg) with
      | some c0 => c0.merge c
      | none => c
    let (seq, next) := match same with
      | some s => (s.seq, sc.nextSeq)
      | none => (sc.nextSeq, seqAfter sc.nextSeq)
    let set := p.then e seq (some change)
    let (rest, next) := set.follow (later.length + 2) (later.filterMap fun q => q.chg.map fun c => (q.epoch, c)) (later.map (·.seq)) next
    let kept := sc.ends.filter (·.epoch < e)
    if same.isSome then { sc with ends := kept ++ set :: rest, nextSeq := next }
    else { sc with pend := some set, ends := kept ++ rest, nextSeq := next }

/-- R104 without the slew term. -/
def Dev.incr0 (d : Dev) (k : Nat) : Nat :=
  let base := d.get64 (A.INCR k)
  let f := toSigned 64 (d.get64 (A.FREQ_ADJ k))
  ((base : Int) + ((base : Int) * f).tdiv ((10 ^ 12 * 2 ^ 16 : Nat) : Int)).toNat

def Dev.scale (d : Dev) (k : Nat) : Scale := d.ts.scale k
def Dev.setScale (d : Dev) (k : Nat) (sc : Scale) : Dev := { d with ts := d.ts.setScale k sc }

/-- Forms a set on scale k and shows it as pending. -/
def Dev.formSet (d : Dev) (k e : Nat) (c : Change) : Dev :=
  let sc := (d.scale k).form e c
  (d.setScale k sc).setFlag (F.SC_STATUS_PENDING k) sc.pend.isSome

/-- The epoch bounds of R68: less than 16,384 ticks ahead is TOO_SOON, more than 2^40 is TOO_FAR. -/
def tooSoon (now e : Nat) : Bool := e < now + leadTicks
def tooFar (now e : Nat) : Bool := e > now + 2 ^ 40

/-- Total of a slew amount in 2^-72 ns lies within ±1 s. -/
def inSecond (a72 : Int) : Bool := decide ((a72.natAbs : Int) ≤ sec72)

/-- The running slew's remainder at an epoch (R111). -/
def Scale.remainAt (sc : Scale) (e : Nat) : Int :=
  match sc.setAt (ticks16 e) with
  | some p => if p.slew.any (e < ·.endEpoch) then p.remainAt (ticks16 e) else 0
  | none => 0

/-- 2^-16 ns to 2^-72 ns. -/
def to72 (t16 : Int) : Int := t16 * (2 ^ 56 : Nat)

/-- Result code of an APPLY (R105, R109, R111, checked in the order of R462). -/
def Dev.applyCode (d : Dev) (k e : Nat) : Nat :=
  let sc := d.scale k
  if sc.pend.isSome then 1
  else if tooSoon d.raw e then 2
  else if tooFar d.raw e then 3
  else if !d.flag (F.SC_CTRL_DISCIPLINE k) then 4
  else match sc.staged with
  | some st => if inSecond (sc.remainAt e + to72 st.amount) then 0 else 5
  | none => 0

/-- SC_CTRL.APPLY (R105, R109, R111). -/
def Dev.apply (d : Dev) (k : Nat) : Dev :=
  let e := if d.flag (F.SC_CTRL_USE_EPOCH k) then d.get64 (A.APPLY_EPOCH k) else d.raw + leadTicks
  let code := d.applyCode k e
  let d := d.set (F.SC_STATUS_LAST_CODE k) code
  let d := if d.flag (F.SC_CTRL_DISCIPLINE k) then d else d.stick A.TS_STATUS 3
  if code ≠ 0 then d else
  let st := (d.scale k).staged
  let d := d.formSet k e { cause := 1 + (if st.isSome then 4 else 0), incr0 := some (d.incr0 k)
                           slew := st.map fun s => (to72 s.amount, s.ppb) }
  d.setScale k { d.scale k with staged := none }

/-- SC_CTRL.SLEW_GO stages SLEW_AMOUNT at SLEW_RATE (R111); the host owns the scale, or the write is discarded (R109). -/
def Dev.slewGo (d : Dev) (k : Nat) : Dev :=
  if !d.flag (F.SC_CTRL_DISCIPLINE k) then d.stick A.TS_STATUS 3 else
  let a := toSigned 64 (d.get64 (A.SLEW_AMOUNT k))
  if a.natAbs > sec16 then d.set (F.SC_STATUS_LAST_CODE k) 5
  else
    let d := d.setScale k { d.scale k with staged := some { amount := a, ppb := d.get (F.SLEW_RATE_PPB k) } }
    d.set (F.SC_STATUS_LAST_CODE k) 0

/-- PRIV bit of the Position in force (R58). -/
def Dev.priv (d : Dev) (b : Nat) : Bool := bit d.pos.priv b

/-- A step may be made on scale k (R113). -/
def Dev.stepAllowed (d : Dev) (k : Nat) (abs : Bool) : Bool :=
  d.priv k || (abs && !d.flag (F.SC_STATUS_INIT k))

/-- Epoch of a step (R115). -/
def Dev.stepEpoch (d : Dev) (k : Nat) : Nat :=
  let e := d.raw + leadTicks
  if d.flag (F.SC_CTRL_AT_SECOND k) then (d.scale k).secondTick e else e

/-- INCR0 of the set in force at a tick. -/
def Scale.incr0At (sc : Scale) (e : Nat) : Nat :=
  ((sc.setAt (ticks16 e)).map (·.incr0)).getD nominalIncr

/-- A committed and permitted step (R113, R115): BUSY while a set is pending. -/
def Dev.step (d : Dev) (k : Nat) (abs : Option Int) (rel : Int) : Dev :=
  if (d.scale k).pend.isSome then d.set (F.SC_STATUS_LAST_CODE k) 1 else
  let e := d.stepEpoch k
  let first := abs.isSome && !d.flag (F.SC_STATUS_INIT k)
  let d := d.formSet k e { cause := if first then 0x20 else 0x10, abs := abs, step := rel }
  d.set (F.SC_STATUS_LAST_CODE k) 0

/-- A commit of STEP_REL (R113 to R115): without the privilege it is ignored and sets GUARD_FAIL (R20). -/
def Dev.stepRel (d : Dev) (k : Nat) : Dev :=
  if d.stepAllowed k false then d.step k none (to72 (toSigned 64 (d.get64 (A.STEP_REL k))))
  else d.stick A.TS_STATUS 1

/-- A commit of STEP_ABS (R113 to R115). -/
def Dev.stepAbs (d : Dev) (k : Nat) : Dev :=
  if d.stepAllowed k true then d.step k (some (to72 (d.getTime (A.STEP_ABS k)))) 0
  else d.stick A.TS_STATUS 1

/-! ## Taking effect -/

/-- The set that comes into force next, if its epoch is reached. -/
def Scale.due (sc : Scale) (raw : Nat) : Option PSet :=
  ((sc.ends ++ sc.pend.toList).filter (·.epoch ≤ raw)).foldl (fun acc p =>
    match acc with
    | none => some p
    | some q => if p.epoch < q.epoch then some p else acc) none

def Scale.drop (sc : Scale) (p : PSet) : Scale :=
  { sc with ends := sc.ends.filter (·.epoch ≠ p.epoch),
            pend := sc.pend.filter (·.epoch ≠ p.epoch) }

/-- Answer dies that are powered, as a mask. -/
def Dev.poweredMask (d : Dev) : Nat :=
  (List.range 4).foldl (fun m n => if d.diePowered n then m + 2 ^ n else m) 0

/-- A die that does not hold a set at its epoch is in a detected fault (R31, code 0x05). -/
def Dev.setMissing (d : Dev) (k : Nat) (p : PSet) (n : Nat) : Dev :=
  if d.diePowered n && !bit p.held n then
    let d := { d with dies := modAt d.dies n fun x => { x with missing := (k, p.epoch) :: x.missing } }
    d.faultBegin 0x05 n k (A.REPLICA_STATUS n)
  else d

/-- An offset within the second, in 2^-16 ns (R126). -/
def wrapSec (x : Int) : Int :=
  let m := x % (sec16 : Int)
  if m * 2 < sec16 then m else m - sec16

/-- A step of the scale moves the offsets that a selector remembers of a slot (R147); pps: the slot bears the phase within the second only. -/
def SlotView.shift (v : SlotView) (by' : Int) (pps : Bool) : SlotView :=
  let f (x : Int) : Int := if pps then wrapSec (x - by') else x - by'
  { v with phi := v.phi.map f, phiLast := v.phiLast.map f, wtrPhi := f v.wtrPhi }

/-- The scale's selector learns of a step or initial setting (R116, R131, R147): the offsets it remembers move by the step, and one that the host made on a scale the selector owns is to be removed as a build-out. -/
def Dev.stepSeen (d : Dev) (k : Nat) (by' : Int) (own : Bool) : Dev :=
  let pps (s : Nat) : Bool := d.get (F.SLOT_CFG_TYPE s) == 1
  let f (x : Sel) : Sel := { x with views := x.views.mapIdx fun s v => v.shift by' (pps s)
                                    restep := x.restep || (!own && !(d.scale k).hostOwns) }
  if k = 0 then { d with refs.selA := f d.refs.selA } else { d with refs.selB := f d.refs.selB }

/-- The step that set p makes on the scale at its epoch, in 2^-16 ns. -/
def Scale.stepOf (sc : Scale) (p : PSet) : Int :=
  floor16 (p.ofs - (((sc.before p.epoch).map (·.eval (ticks16 p.epoch))).getD p.ofs))

/-- A parameter set of scale k reaches its epoch (R106, R108): the earliest one due. -/
def Dev.setApplied (d : Dev) (k : Nat) : Dev :=
  match (d.scale k).due d.raw with
  | none => d
  | some p =>
    let by' := (d.scale k).stepOf p
    let sc := (d.scale k).drop p
    let sc := { sc with journal := ({ p with chg := none } :: sc.journal).take 16, hostOwns := d.flag (F.SC_CTRL_DISCIPLINE k) }
    let d := d.setScale k sc
    let d := d.setFlag (F.SC_STATUS_PENDING k) sc.pend.isSome
    let d := d.setFlag (F.SC_STATUS_SLEWING k) p.slew.isSome
    let d := if bit p.cause 5 then d.setFlag (F.SC_STATUS_INIT k) true else d
    let d := (d.setFlag (F.SC_STATUS_DONE k) true).keeperCount 0x19
    let d := if bit p.cause 4 || bit p.cause 5 then d.stepSeen k by' (bit p.cause 1) else d
    let d := (List.range 4).foldl (fun d n => d.setMissing k p n) d
    let d := d.raise (12 + k) (A.SC_STATUS k) k
    if bit p.cause 3 then d.raise (14 + k) (A.SC_STATUS k) k else d

/-- Marks everything published of a scale as held by the dies of a mask. -/
def Scale.publish (sc : Scale) (m : Nat) : Scale :=
  { sc with journal := sc.journal.map fun p => { p with held := p.held ||| m }
            pend := sc.pend.map fun p => { p with held := p.held ||| m }
            ends := sc.ends.map fun p => { p with held := p.held ||| m }
            quality := sc.quality.map fun p => { p with held := p.held ||| m } }

/-- Ends the missing-set fault of a die that now holds every set (R31). -/
def Dev.setsHeld (d : Dev) (n : Nat) : Dev :=
  match d.dies[n]? with
  | none => d
  | some x =>
    let d' := x.missing.foldl (fun d (k, _) => d.faultEnd 0x05 n k) d
    { d' with dies := modAt d'.dies n fun x => { x with missing := [] } }

/-- Publication of sets, quality records and switches to the dies of a mask (R29, R30). -/
def Dev.publish (d : Dev) (mask : Nat) : Dev :=
  let m := mask &&& d.poweredMask
  let d := { d with ts := { d.ts with a := d.ts.a.publish m, b := d.ts.b.publish m
                                      switches := d.ts.switches.map fun w => { w with held := w.held ||| m } } }
  (List.range 4).foldl (fun d n => if bit m n then d.setsHeld n else d) d

/-! ## Reading the scales -/

/-- SNAP_CTRL.CAPTURE (R98): the values of the first tick after the write is accepted. -/
def Dev.capture (d : Dev) : Dev :=
  let r := d.raw + 1
  let r16 := ticks16 (d.stampTick r)
  let d := d.setWide A.SNAP_RAW 3 (2 ^ 32 * (r16 / 65536))
  let put (d : Dev) (a code : Nat) : Dev :=
    match d.ts.time16 code r16 with
    | some t => d.setTime a t
    | none => d.setWide a 4 0
  let d := put d (A.SNAP_A 0) 0
  let d := put d (A.SNAP_B 0) 1
  let d := put d (A.SNAP_SRV 0) 2
  d.setFlag F.SNAP_CTRL_VALID true

/-- CONV_CTRL.GO (R107): converts CONV_RAW, or NOT_HELD with a result of zero. -/
def Dev.convert (d : Dev) : Dev :=
  let r16 := ticks16 (d.get64 A.CONV_RAW_LO) + d.get F.CONV_RAW_RAW
  match d.ts.time16 (d.get F.CONV_CTRL_SCALE) r16 with
  | some t =>
    let t := if d.flag F.CONV_CTRL_UTC then utcOf d.ts.leaps d.utcBase t else t
    (d.setTime (A.CONV_RESULT 0) t).set F.CONV_CTRL_CODE 0
  | none => (d.setWide (A.CONV_RESULT 0) 4 0).set F.CONV_CTRL_CODE 1

/-- The LOAD mapping of a scale (R113): EPOCH 0, OFFSET 0, nominal INCR, SEQ 1, CAUSE 0. -/
def Scale.atLoad : Scale :=
  { journal := [{ seq := 1, epoch := 0, ofs := 0, incr := nominalIncr, cause := 0 }], nextSeq := 2 }

/-- SLEW_REMAIN at an instant (R111): signed unapplied slew in 2^-16 ns. -/
def Scale.slewRemain (sc : Scale) (r16 : Nat) : Int :=
  match sc.setAt r16 with
  | some p => (p.remainAt r16).tdiv (2 ^ 56 : Nat)
  | none => 0

/-! ## Commands -/

/-- PARAMETER_SET_PUBLISH: what the keeper has published reaches the dies of a mask (R30). -/
def execParameterSetPublish (dies : Nat) (s : State) : Answer := s.run (·.publish dies)

/-- CAPTURE (R98). -/
def execCapture (s : State) : Answer := s.run (·.whenUp Dev.capture)

/-- APPLY (R105). -/
def execApply (k : Fin 2) (s : State) : Answer := s.run (·.whenUp (·.apply k))

/-- SLEW_GO (R111). -/
def execSlewGo (k : Fin 2) (s : State) : Answer := s.run (·.whenUp (·.slewGo k))

/-- CONVERT (R107). -/
def execConvert (s : State) : Answer := s.run (·.whenUp Dev.convert)

end Sys2Proof.Machine
end

