-- ==== Sys2Proof/Machine/Castling.lean ====
section
/-! DEFINITION. Castling, the switch of served time (R121 to R124), and the leap table (R117 to R119). -/

namespace Sys2Proof.Machine

/-- The switch to scale x at tick s as the published sets give it (R121): D, δ and N. -/
def Dev.switchTo (d : Dev) (s x : Nat) : Option Switch :=
  let r16 := ticks16 s
  match d.ts.served72 r16, (d.scale x).time72 r16 with
  | some v, some t =>
    let incr := (((d.scale x).setAt r16).map (·.incr)).getD nominalIncr
    let delta := incr * d.get (F.SLEW_RATE_PPB x) / 1000000000
    let m := (v - t).natAbs
    some { s := s, target := x, d := v - t, delta := delta,
           n := if delta = 0 then 0 else (m + delta * 65536 - 1) / (delta * 65536) }
  | _, _ => none

/-- INIT of scale k at tick s: it is 1, or a set published for s or before carries the first setting (R113, R122). -/
def Dev.initAt (d : Dev) (k s : Nat) : Bool :=
  d.flag (F.SC_STATUS_INIT k) || (d.scale k).sets.any fun p => decide (p.epoch ≤ s) && bit p.cause 5

/-- Decision of a request (R122, checked in the order of R462): code, and the switch when there is one. -/
def Dev.castleDecision (d : Dev) (q : CastleReq) : Nat × Option Switch :=
  match d.switchTo q.s q.target with
  | none => (4, none)
  | some w =>
    let far := w.d.natAbs > d.get F.CASTLE_LIMIT_NS * 65536 * 2 ^ 56
    if far ∧ !q.force then (2, none)
    else if far ∧ !d.priv 5 then (3, none)
    else if !d.initAt q.target q.s then (4, none)
    else (if far then 1 else 0, some w)

/-- A bridge is nonzero at the present instant. -/
def Dev.bridging (d : Dev) : Bool :=
  ((d.ts.switchAt (ticks16 d.raw)).map fun w => w.bridge (ticks16 d.raw) != 0).getD false

/-- CASTLE_CTRL.GO (R122): refusals in the order of R462, or a pending request. -/
def Dev.castleGo (d : Dev) : Dev :=
  let s := if d.flag F.CASTLE_CTRL_USE_EPOCH then d.get64 A.CASTLE_EPOCH else d.raw + leadTicks
  let x := d.get F.CASTLE_CTRL_TARGET
  if d.ts.castle.isSome then d.set F.CASTLE_STATUS_CODE 7
  else if tooSoon d.raw s then d.set F.CASTLE_STATUS_CODE 5
  else if tooFar d.raw s then d.set F.CASTLE_STATUS_CODE 6
  else if d.ts.servedAt (ticks16 d.raw) = x ∧ !d.bridging then d.set F.CASTLE_STATUS_CODE 8
  else
    let d := { d with ts.castle := some { s := s, target := x, force := d.flag F.CASTLE_CTRL_FORCE } }
    (d.set F.CASTLE_STATUS_CODE 0).setFlag F.CASTLE_STATUS_PENDING true

/-- CASTLE_CTRL.CANCEL (R123). -/
def Dev.castleCancel (d : Dev) : Dev :=
  match d.ts.castle with
  | none => d.set F.CASTLE_STATUS_CODE 11
  | some q =>
    if d.raw + leadTicks ≥ q.s then d.set F.CASTLE_STATUS_CODE 10
    else ({ d with ts.castle := none }.set F.CASTLE_STATUS_CODE 9).setFlag F.CASTLE_STATUS_PENDING false

/-- At S − 16,384 the keeper decides and publishes the outcome (R122, R124). -/
def Dev.castleDecide (d : Dev) : Dev :=
  match d.ts.castle with
  | none => d
  | some q =>
    if q.decided.isSome ∨ d.raw + leadTicks < q.s then d
    else
      let (code, w) := d.castleDecision q
      { d with ts := { d.ts with castle := some { q with decided := some code, switch := w }
                                 switches := w.toList ++ d.ts.switches } }

/-- At S the outcome takes effect (R122). -/
def Dev.castleSwitch (d : Dev) : Dev :=
  let d := d.castleDecide
  match d.ts.castle with
  | none => d
  | some q =>
    if d.raw < q.s then d else
    let d := { d with ts.castle := none }
    let d := ((d.set F.CASTLE_STATUS_CODE (q.decided.getD 4)).setFlag F.CASTLE_STATUS_PENDING false).setFlag
      F.CASTLE_STATUS_DONE true
    match q.switch with
    | none => d
    | some w =>
      let d := { d with ts.bridgeOpen := true }
      (d.set F.CASTLE_STATUS_SERVED w.target).setFlag F.CASTLE_STATUS_ACTIVE (w.n != 0)

/-- At S + N the bridge is zero: Castling complete (R121, R123). -/
def Dev.castleComplete (d : Dev) : Dev :=
  match d.ts.switchAt (ticks16 d.raw) with
  | none => d
  | some w =>
    if d.ts.bridgeOpen ∧ w.s + w.n ≤ d.raw then
      let d := { d with ts.bridgeOpen := false }
      ((d.setFlag F.CASTLE_STATUS_ACTIVE false).setFlag F.CASTLE_STATUS_DONE true).raise 16 A.CASTLE_STATUS
    else d

/-! ## Leap table -/

/-- Scale k's time now, in 2^-16 ns. -/
def Dev.now16 (d : Dev) (k : Nat) : Int := ((d.scale k).time72 (ticks16 d.raw)).elim 0 floor16

def leapAt (l : Leap) : Int := (l.sec * sec16 : Nat)

/-- An entry lies in the past: both scales read at or past its L (R118). -/
def Dev.leapPast (d : Dev) (l : Leap) : Bool := decide (leapAt l ≤ d.now16 0 ∧ leapAt l ≤ d.now16 1)

/-- Less than 2 s ahead of Scale A or of Scale B (R118). -/
def Dev.leapTooSoon (d : Dev) (sec : Nat) : Bool :=
  let lim : Int := (sec * sec16 : Nat) - 2 * sec16
  decide (lim < d.now16 0 ∨ lim < d.now16 1)

/-- Offset in force just before second L. -/
def Dev.offsetBefore (d : Dev) (sec : Nat) : Int :=
  utcOffset (d.ts.leaps.filter (·.sec < sec)) d.utcBase (sec * sec16 : Nat)

/-- Shows the number of entries and the offset in force on Scale A (R117). -/
def Dev.showUtc (d : Dev) : Dev :=
  (d.set F.UTC_STATUS_ENTRIES d.ts.leaps.length).set F.UTC_STATUS_OFFSET_NOW
    (ofSigned 16 (utcOffset d.ts.leaps d.utcBase (d.now16 0)))

def insertLeap (l : Leap) : List Leap → List Leap
  | [] => [l]
  | x :: xs => if l.sec < x.sec then l :: x :: xs else x :: insertLeap l xs

/-- Refusal code of an addition at L (R118, R119), 0 when it is accepted; src: the requester is the authoritative source. -/
def Dev.leapCode (d : Dev) (sec : Nat) (src : Bool) : Nat :=
  if d.leapTooSoon sec then 1
  else if ((sec : Int) - d.offsetBefore sec) % 86400 ≠ 0 then 2
  else if d.ts.leaps.length ≥ 8 ∧ !d.ts.leaps.any d.leapPast then 3
  else if !src then 4
  else if d.ts.leaps.any (·.sec = sec) then 7
  else 0

/-- The next leap of the table: L and whether it is negative (R119). -/
def Dev.nextLeap (d : Dev) : Option (Nat × Bool) :=
  (d.ts.leaps.find? fun l => decide (d.now16 0 < leapAt l)).map fun l => (l.sec, decide (l.offset < d.offsetBefore l.sec))

/-- The next leap that the non-authoritative source reports; none: it has reported nothing. A reported L that Scale A has passed is no next leap. -/
def Dev.altLeap (d : Dev) : Option (Option (Nat × Bool)) :=
  match d.ts.altLeap with
  | some (gnss, x) => if gnss == d.flag F.LEAP_CTRL_SRC then some (x.filter fun l => decide (d.now16 0 < (l.1 * sec16 : Nat))) else none
  | none => none

/-- What the non-authoritative source reports is shown and compared with the table (R119), at each report and each change of the table; a report of no leap against a table that holds one is a disagreement (DEDUCED). -/
def Dev.leapCompare (d : Dev) : Dev :=
  let x := d.altLeap
  let d := d.set F.UTC_STATUS_ALT_DIR (match x.join with
    | some (_, neg) => if neg then 2 else 1
    | none => 0)
  if x.all (· = d.nextLeap) then d else (d.setFlag F.UTC_STATUS_DISAGREE true).raise 18 A.UTC_STATUS

/-- A source reports the next leap, or none. -/
def Dev.leapReport (d : Dev) (gnss : Bool) (x : Option (Nat × Bool)) : Dev :=
  ({ d with ts.altLeap := some (gnss, x) } : Dev).leapCompare

/-- The entry of an addition made now (R118, R120). -/
def Dev.newLeap (d : Dev) (sec : Nat) (neg gnss : Bool) : Leap :=
  { sec := sec, offset := d.offsetBefore sec + (if neg then -1 else 1), fromGnss := gnss, addedRaw := d.raw
    added := [0, 1, 2].map fun c => (d.ts.time16 c (ticks16 d.raw)).getD 0 }

/-- Adds a leap entry (R118); gnss: from the navigation message. -/
def Dev.leapAdd (d : Dev) (sec : Nat) (neg gnss : Bool) : Dev :=
  let src := d.flag F.LEAP_CTRL_SRC == !gnss
  let code := d.leapCode sec src
  let d := if src then d else d.leapReport gnss (some (sec, neg))
  let d := if gnss ∧ !src then d else d.set F.UTC_STATUS_LAST_CODE code
  if code ≠ 0 ∨ !src then d else
  let new := d.newLeap sec neg gnss
  let d := if d.ts.leaps.length < 8 then d else
    match d.ts.leaps.find? d.leapPast with
    | none => d
    | some l => { d with ts.leaps := d.ts.leaps.erase l }.set F.UTC_BASE_OFFSET (ofSigned 16 l.offset)
  { d with ts.leaps := insertLeap new d.ts.leaps }.showUtc.leapCompare

/-- LEAP_CTRL.WITHDRAW (R118, R119); from the source that is not authoritative, it reports no leap. -/
def Dev.leapWithdraw (d : Dev) (sec : Nat) (gnss : Bool) : Dev :=
  let src := d.flag F.LEAP_CTRL_SRC == !gnss
  let future := d.ts.leaps.find? fun l => l.sec = sec && decide (d.now16 0 < leapAt l)
  let d := if src then d else d.leapReport gnss none
  match future with
  | some l =>
    if d.leapTooSoon sec then d.set F.UTC_STATUS_LAST_CODE 1
    else if !src then d.set F.UTC_STATUS_LAST_CODE 4
    else ({ d with ts.leaps := d.ts.leaps.erase l }.set F.UTC_STATUS_LAST_CODE 5).showUtc.leapCompare
  | none => d.set F.UTC_STATUS_LAST_CODE (if src then 6 else 4)

/-- Scale A reaches an entry's L (R118). -/
def Dev.leapApplied (d : Dev) : Dev :=
  match d.ts.leaps.findIdx? fun l => !l.applied && decide (leapAt l ≤ d.now16 0) with
  | none => d
  | some i =>
    let d := { d with ts.leaps := modAt d.ts.leaps i fun l => { l with applied := true } }
    (d.showUtc.leapCompare).raise 17 A.UTC_STATUS

/-- A write of UTC_BASE (R117). -/
def Dev.utcBaseWrite (d : Dev) (v : Nat) : Dev :=
  ((d.set F.UTC_BASE_OFFSET v).setFlag F.UTC_STATUS_VALID true).showUtc

/-! ## Commands -/

/-- CASTLING_REQUEST (R122). -/
def execCastlingRequest (s : State) : Answer := s.run (·.whenUp Dev.castleGo)

/-- CASTLING_CANCEL (R123). -/
def execCastlingCancel (s : State) : Answer := s.run (·.whenUp Dev.castleCancel)

/-- CASTLING_DECISION (R122). -/
def execCastlingDecision (s : State) : Answer := s.run Dev.castleDecide

/-- CASTLING_COMPLETE (R121). -/
def execCastlingComplete (s : State) : Answer := s.run Dev.castleComplete

/-- LEAP_ADD (R118): from the registers (host), or L and direction from the navigation message. -/
def execLeapAdd (nav : Option (Nat × Bool)) (s : State) : Answer :=
  s.run (·.whenUp fun d =>
    match nav with
    | none => d.leapAdd (d.get64 A.LEAP_NEW_SEC % 2 ^ 48) (d.flag F.LEAP_CTRL_DIR) false
    | some (sec, neg) => d.leapAdd sec neg true)

/-- LEAP_WITHDRAW (R118): by the host at LEAP_NEW_SEC, or by the firmware for GNSS. -/
def execLeapWithdraw (nav : Option Nat) (s : State) : Answer :=
  s.run (·.whenUp fun d =>
    match nav with
    | none => d.leapWithdraw (d.get64 A.LEAP_NEW_SEC % 2 ^ 48) false
    | some sec => d.leapWithdraw sec true)

/-- LEAP_APPLIED (R118). -/
def execLeapApplied (s : State) : Answer := s.run Dev.leapApplied

/-- UTC_BASE_WRITE (R117). -/
def execUtcBaseWrite (v : Word) (s : State) : Answer :=
  s.run (·.whenUp fun d => d.limited A.UTC_BASE (putBits 15 0 (d.reg A.UTC_BASE) (bits 15 0 v)) (·.utcBaseWrite (bits 15 0 v)))

end Sys2Proof.Machine
end

