-- ==== Sys2Proof/Machine/Selectors.lean ====
section
/-! DEFINITION. Reference slots, selection, holdover and the error bound (R125 to R147). Selector 0 disciplines Scale A, selector 1 Scale B. -/

namespace Sys2Proof.Machine

/-! ## Sources -/

def Dev.src (d : Dev) (s : Nat) : Src := (d.refs.srcs[s]?).getD {}
def Dev.setSrc (d : Dev) (s : Nat) (x : Src) : Dev := { d with refs.srcs := setAt d.refs.srcs s x }

/-- A slot type that bears time (R125). -/
def timeBearing (ty : Nat) : Bool := ty == 1 || ty == 3 || ty == 4 || ty == 5 || ty == 7 || ty == 8

/-- A slot type that bears frequency only. -/
def freqOnly (ty : Nat) : Bool := ty == 2 || ty == 6

/-- Slots of a type bound to a source. -/
def Dev.slotsOf (d : Dev) (ty bind : Nat) : List Nat :=
  (List.range 12).filter fun s => d.get (F.SLOT_CFG_TYPE s) == ty && d.get (F.SLOT_CFG_BIND s) == bind

/-- Fractional frequency of a pair of samples in ppt: difference of reference times over difference of raw instants at 1.25 ns per tick, minus 1 (R351). -/
def pairFreq (a b : Nat × Int) : Int :=
  let dr : Int := (a.1 : Int) - b.1
  if dr ≤ 0 then 0 else ((4 * (a.2 - b.2) - 5 * dr) * 10 ^ 12).tdiv (5 * dr)

def pairFreqs : List (Nat × Int) → List Int
  | a :: b :: l => pairFreq a b :: pairFreqs (b :: l)
  | _ => []

/-- Mean of a list, toward minus infinity. -/
def meanOf (l : List Int) : Int := l.foldl (· + ·) 0 / l.length

/-- y_s in ppt (R127): the mean of what the source itself has reported in the last 10 s, else over the pairs of its samples of the last 10 s (R351). -/
def Src.freq (x : Src) : Option Int :=
  if x.ys ≠ [] then some (meanOf (x.ys.map (·.2)))
  else
    match pairFreqs x.hist with
    | [] => none
    | l => some (meanOf l)

/-- What lies within the last 10 s before an instant. -/
def lastTen {α : Type} (inst16 : Nat) (l : List (Nat × α)) : List (Nat × α) :=
  l.filter fun p => inst16 ≤ p.1 + ticks16 (10 * secTicks)

/-- A source takes one sample of reference time at a raw instant (R127). -/
def Src.sample (x : Src) (inst16 : Nat) (ref16 : Int) : Src :=
  { x with ref16 := ref16, inst16 := inst16, has := true, heard := max x.heard inst16
           hist := lastTen inst16 ((inst16, ref16) :: x.hist) }

/-- A source reports its fractional frequency at an instant (R127). -/
def Src.report (x : Src) (inst16 : Nat) (y : Int) : Src := { x with ys := lastTen inst16 ((inst16, y) :: x.ys) }

/-- A source has lost its signal: it delivers nothing until a new sample. -/
def Src.lost (x : Src) : Src := { x with has := false, hist := [], ys := [], bad := 0 }

/-- A slot's signal becomes valid or invalid (R128). -/
def Dev.setValid (d : Dev) (s : Nat) (v : Bool) : Dev := d.setFlag (F.SLOT_STATE_SIG_VALID s) v

/-- A slot's source has lost its signal (R128). -/
def Dev.signalLost (d : Dev) (s : Nat) : Dev := (d.setSrc s (d.src s).lost).setValid s false

/-- Delivers a sample to a slot: its signal is valid. -/
def Dev.deliverSample (d : Dev) (s inst16 : Nat) (ref16 : Int) : Dev :=
  (d.setSrc s ((d.src s).sample inst16 ref16)).setValid s true

/-- An edge of a PPS input: the whole seconds since the last one, by the nearest number, are added to its reference time (R126, R127). -/
def Dev.deliverPps (d : Dev) (s inst16 : Nat) : Dev :=
  let x := d.src s
  let secs := ((inst16 - x.inst16) + ticks16 secTicks / 2) / ticks16 secTicks
  d.deliverSample s inst16 (if x.has then x.ref16 + secs * sec16 else 0)

/-- SyncE slots take the frequency of their recovered clock, in ppt (R125, R127): links by 4 × die + lane. -/
def Dev.synceFreq (d : Dev) (ys : List (Nat × Int)) : Dev :=
  ys.foldl (fun d (v, y) => (d.slotsOf 6 v).foldl (fun d s =>
    (d.setSrc s { (d.src s).report (ticks16 d.raw) y with has := true }).setValid s true) d) d

def Dev.rport (d : Dev) (p : Nat) : RPort := (d.ring.ports[p]?).getD {}
def Dev.setRPort (d : Dev) (p : Nat) (x : RPort) : Dev := { d with ring.ports := setAt d.ring.ports p x }

/-- Mean of the last 16 values of θ of a ring port against scale k, in 2^-16 ns (R391). -/
def Dev.peerTheta (d : Dev) (k p : Nat) : Int :=
  let l := if k = 0 then (d.rport p).thA else (d.rport p).thB
  if l = [] then 0 else l.foldl (· + ·) 0 / (2 * (l.length : Int))

/-- The pairs taken on a ring port count again from none (R392). -/
def Dev.peerLost (d : Dev) (p : Nat) : Dev :=
  (d.setRPort p { d.rport p with thA := [], thB := [], pairs := 0, lastPair := none }).setFlag (F.GR_PSTATUS_PEER_VALID p) false

/-- φ_s against scale k in 2^-16 ns (R127); of a chain-peer slot, the mean θ (R391); a PPS slot takes whole seconds from the scale (R126). -/
def Dev.slotPhi (d : Dev) (k s : Nat) : Option Int :=
  let x := d.src s
  if !x.has ∨ !timeBearing (d.get (F.SLOT_CFG_TYPE s)) then none else
  match (d.scale k).time72 x.inst16 with
  | none => none
  | some t =>
    let e := x.ref16 + toSigned 64 (d.get64 (A.SLOT_COMP s)) - floor16 t
    if d.get (F.SLOT_CFG_TYPE s) = 7 then
      some (d.peerTheta k (d.get (F.SLOT_CFG_BIND s)) + toSigned 64 (d.get64 (A.SLOT_COMP s)))
    else if d.get (F.SLOT_CFG_TYPE s) = 1 then some (wrapSec e)
    else some e

/-! ## Selector accessors -/

def Dev.sel (d : Dev) (k : Nat) : Sel := if k = 0 then d.refs.selA else d.refs.selB
def Dev.setSel (d : Dev) (k : Nat) (x : Sel) : Dev :=
  if k = 0 then { d with refs.selA := x } else { d with refs.selB := x }
def Dev.view (d : Dev) (k s : Nat) : SlotView := ((d.sel k).views[s]?).getD {}
def Dev.setView (d : Dev) (k s : Nat) (v : SlotView) : Dev :=
  d.setSel k { d.sel k with views := setAt (d.sel k).views s v }

def slotStateF (k s : Nat) : Fld := if k = 0 then F.SLOT_STATE_STATE_A s else F.SLOT_STATE_STATE_B s
def slotReasonF (k s : Nat) : Fld := if k = 0 then F.SLOT_STATE_REASON_A s else F.SLOT_STATE_REASON_B s
def slotJumpedF (k s : Nat) : Fld := if k = 0 then F.SLOT_STATE_JUMPED_A s else F.SLOT_STATE_JUMPED_B s
def slotDisagF (k s : Nat) : Fld := if k = 0 then F.SLOT_STATE_DISAG_A s else F.SLOT_STATE_DISAG_B s
def slotWtrF (k s : Nat) : Fld := if k = 0 then F.SLOT_WTR_REMAIN_A s else F.SLOT_WTR_REMAIN_B s
def slotPhaseA (k s : Nat) : Nat := if k = 0 then A.SLOT_PHASE_A s else A.SLOT_PHASE_B s

/-- Rank of a slot in a selector's table. -/
def Dev.rank (d : Dev) (k s : Nat) : Nat := d.get (if k = 0 then F.SLOT_RANK_RANK_A s else F.SLOT_RANK_RANK_B s)
def Dev.slotSt (d : Dev) (k s : Nat) : Nat := d.get (slotStateF k s)
def Dev.selSt (d : Dev) (k : Nat) : Nat := d.get (F.SEL_STATUS_STATE k)

/-- Changes a slot's state: CHANGED and "Slot state change" (R129). -/
def Dev.toSlotSt (d : Dev) (k s st : Nat) : Dev :=
  if d.slotSt k s = st then d
  else ((d.set (slotStateF k s) st).setFlag (F.SLOT_STATE_CHANGED s) true).raise 24 (A.SLOT_STATE s) s

/-- The spans of LOCKED once the selector goes from one state to another; spans that ended more than 610 s ago are no longer needed (R139). -/
def Sel.spans (x : Sel) (now from' to' : Nat) : List (Nat × Option Nat) :=
  let l := if from' = 2 then x.locks.map fun p => (p.1, some (p.2.getD now)) else x.locks
  let l := if to' = 2 then (now, none) :: l else l
  l.filter fun p => p.2.all fun e => now ≤ e + 610 * secTicks

/-- Changes a selector's state: DONE and "Selector state change" (R138). -/
def Dev.toSelSt (d : Dev) (k st : Nat) : Dev :=
  if d.selSt k = st then d
  else
    let x := d.sel k
    let d := d.setSel k { x with locks := x.spans d.raw (d.selSt k) st, committed := x.committed && st != 0 }
    ((d.set (F.SEL_STATUS_STATE k) st).setFlag (F.SEL_STATUS_DONE k) true).raise (20 + k) (A.SEL_STATUS k) k

/-! ## Error bound (R141 to R143) -/

/-- Ceiling division. -/
def cdiv (a b : Nat) : Nat := if b = 0 then 0 else (a + b - 1) / b

/-- The least number whose square is not below n. -/
def sqrtUp (n : Nat) : Nat :=
  let r := (List.range (n.log2 / 2 + 1)).foldr (fun i lo => if (lo + 2 ^ i) * (lo + 2 ^ i) ≤ n then lo + 2 ^ i else lo) 0
  if r * r = n then r else r + 1

/-- σ_φ in ps, rounded up: the rms of the filtered phase error over the last 10 s (R141). -/
def Sel.phaseRms (x : Sel) : Nat :=
  sqrtUp (cdiv ((x.phiHist.foldl (fun a p => a + p.2.natAbs * p.2.natAbs) 0) * 10 ^ 6) (x.phiHist.length * 2 ^ 32))

/-- Coast ticks accrued up to a raw count. -/
def Sel.coastAt (x : Sel) (r : Nat) : Nat := x.coastTicks + (x.coast.map (r - ·)).getD 0

/-- F, T_B and A_U in force (R142): in frequency-aided holdover the chosen slot's accuracy, and 0. -/
def Dev.holdRates (d : Dev) (k : Nat) : Nat × Nat × Nat :=
  if d.flag (F.SEL_STATUS_FREQ_AIDED k) then (d.get (F.SLOT_ACC_NS (d.get (F.SEL_STATUS_SELECTED k))), 0, 0)
  else ((d.sel k).fPpt, d.get F.OSC_TEMP_BAND_T_B, d.get F.OSC_AGE_UNC_A_U)

/-- E(τ) in ps at a raw count, rounded up (R142). -/
def Dev.holdBound (d : Dev) (k r : Nat) : Nat :=
  let x := d.sel k
  let (f, tb, au) := d.holdRates k
  let t := r - x.entry
  let q := if d.coarse then 50000 else 0
  x.e0 + cdiv ((f + tb) * t) secTicks + cdiv (1000000 * x.coastAt r) secTicks
    + cdiv (au * t * t) (secTicks * secTicks * 172800) + q

/-- The bound of selector k at a raw count in ps; none: unbounded (R141, R142). Before the first commit since FREE_RUN no slot is followed, and there is no bound. -/
def Dev.boundPs (d : Dev) (k r : Nat) : Option Nat :=
  let x := d.sel k
  if !x.committed then none else
  match d.selSt k with
  | 0 => none
  | 1 | 2 =>
    let s := d.get (F.SEL_STATUS_SELECTED k)
    let acc := max (d.get (F.SLOT_ACC_NS s)) (d.src s).unc
    let u := if d.get (F.SLOT_CFG_TYPE s) = 5 then 20 else 0
    let sl := ((d.scale k).slewRemain (ticks16 r)).natAbs
    some (acc * 1000 + u + 3 * x.phaseRms + cdiv (x.phiF.natAbs * 1000) 65536
      + cdiv ((sl + x.slewLeft.natAbs) * 1000) 65536 + x.extra)
  | _ => some (d.holdBound k r)

/-- dE/dt in ps/s one second after a raw count, rounded up (R145). -/
def Dev.boundRate (d : Dev) (k r : Nat) : Nat :=
  match d.selSt k with
  | 3 | 4 =>
    let (f, tb, au) := d.holdRates k
    f + tb + (if (d.sel k).coast.isSome then 1000000 else 0)
      + cdiv (2 * au * (r + secTicks - (d.sel k).entry)) (secTicks * 172800)
  | _ => 0

/-- Publishes a quality record for epoch r + 16,384 (R145); while the host owns the scale, with its bound (R146). -/
def Dev.publishQuality (d : Dev) (k : Nat) : Dev :=
  let q := d.raw + leadTicks
  let host := (d.scale k).hostOwns
  let b := if host then
      (if d.get (F.HOST_BOUND_NS k) = 0xFFFFFFFF then none else some (d.get (F.HOST_BOUND_NS k)))
    else (d.boundPs k q).map (cdiv · 1000)
  let rec1 : Quality := { state := d.selSt k, freqAided := d.flag (F.SEL_STATUS_FREQ_AIDED k), q := q,
                          eq := b, g := if host then 0 else d.boundRate k q }
  let d := d.setScale k { d.scale k with quality := (rec1 :: (d.scale k).quality).take 16,
                                         lockedQ := if rec1.state = 2 then (q :: (d.scale k).lockedQ).take 16 else (d.scale k).lockedQ }
  (d.set (F.E_NOW_NS k) (b.getD 0xFFFFFFFF)).set (F.E_RATE_PS_S k) rec1.g

/-- The quality record in force at a raw instant: the latest whose epoch lies at or before it. -/
def Scale.qualityAt (sc : Scale) (r16 : Nat) : Quality :=
  (sc.quality.find? fun q => ticks16 q.q ≤ r16).getD {}

/-- E(t) of a record at an instant in ns, rounded up; none unbounded (R145). -/
def Quality.bound (q : Quality) (r16 : Nat) : Option Nat :=
  q.eq.map fun e => cdiv (e * 1000 * ticks16 secTicks + q.g * (r16 - ticks16 q.q)) (1000 * ticks16 secTicks)

/-- E_NOW: the bound of the latest quality record at the present instant (R145). -/
def Dev.showENow (d : Dev) (k : Nat) : Dev :=
  let r16 := ticks16 d.raw
  d.set (F.E_NOW_NS k) (min ((((d.scale k).qualityAt r16).bound r16).getD 0xFFFFFFFF) 0xFFFFFFFF)

/-- Least whole τ at which E(τ) exceeds a limit in ps (R143); none when it never does within 2^32 s. A selector that entered with no bound is beyond it at once (DEDUCED). -/
def Dev.tauLimit (d : Dev) (k lim : Nat) : Option Nat :=
  if !(d.sel k).committed then some 0 else
  let beyond (t : Nat) : Bool := d.holdBound k ((d.sel k).entry + t * secTicks) > lim
  if !beyond (2 ^ 33) then none
  else some ((List.range 34).foldr (fun i lo => if beyond (lo + 2 ^ i) then lo else lo + 2 ^ i) 0 + (if beyond 0 then 0 else 1))

/-- HOLD_REMAIN (R143). -/
def Dev.showHoldRemain (d : Dev) (k : Nat) : Dev :=
  if d.selSt k ≠ 3 then d.set (F.HOLD_REMAIN_S k) 0
  else
    let tau := (d.raw - (d.sel k).entry) / secTicks
    match d.tauLimit k (d.get (F.HOLD_LIMIT_NS k) * 1000) with
    | none => d.set (F.HOLD_REMAIN_S k) 0xFFFFFFFF
    | some t => d.set (F.HOLD_REMAIN_S k) (min (t - tau) 0xFFFFFFFF)

/-! ## Slot states (R129 to R133) -/

/-- The scale's own fractional frequency in ppt. -/
def Dev.scaleFreq (d : Dev) (k : Nat) : Int :=
  (((d.scale k).incr0At d.raw : Int) - nominalIncr) * 10 ^ 12 / nominalIncr

/-- |a − b| of offsets exceeds n nanoseconds. -/
def beyond (a b : Int) (n : Nat) : Bool := (a - b).natAbs > n * 65536

/-- Difference of two offsets of a slot; of a PPS slot, within the second (R126). -/
def Dev.offsetGap (d : Dev) (s : Nat) (a b : Int) : Int :=
  if d.get (F.SLOT_CFG_TYPE s) = 1 then wrapSec (a - b) else a - b

/-- The jump check of R131 fails: against the previous offset advanced by the frequency difference over 1 ms, or against φ_last with the drift the bound allows; the first appearance passes. -/
def Dev.jumpFails (d : Dev) (k s : Nat) (phi : Int) : Bool :=
  let v := d.view k s
  let lim := d.get (F.SLOT_JUMP_NS s)
  match v.phi, v.phiLast with
  | some p, _ =>
    let drift := ((((d.src s).freq).getD 0 - d.scaleFreq k) * 65536).tdiv 1000000
    (d.offsetGap s phi (p + drift)).natAbs > lim * 65536
  | none, some p =>
    match d.boundPs k d.raw, v.eLoss with
    | some e, some e0 => decide (((d.offsetGap s phi p).natAbs * 1000 : Int) > (lim * 1000 + ((e : Int) - e0)) * 65536)
    | _, _ => false
  | none, none => false

/-- Starts or restarts the wait-to-restore (R132): 10 s for a first qualification since LOAD. -/
def Dev.startWtr (d : Dev) (k s : Nat) (phi : Int) : Dev :=
  let v := d.view k s
  let secs := if v.everQualified then d.get (F.SLOT_WTR_S s) else 10
  d.setView k s { v with wtrEnd := d.raw + secs * secTicks, wtrPhi := phi, early := [] }

/-- Lower middle of a list. -/
def medianLow (l : List Int) : Int := (sortBy (fun a b => decide (a ≤ b)) l).getD ((l.length - 1) / 2) 0

/-- Median y of the other QUALIFIED or SELECTED slots of the same rank and kind (R129, reason DISAGREE). -/
def Dev.peerMedian (d : Dev) (k s : Nat) : Option Int :=
  let kind := timeBearing (d.get (F.SLOT_CFG_TYPE s))
  let ys := (List.range 12).filterMap fun o =>
    if o ≠ s ∧ (d.slotSt k o = 3 ∨ d.slotSt k o = 4) ∧ d.rank k o = d.rank k s ∧
       timeBearing (d.get (F.SLOT_CFG_TYPE o)) = kind then (d.src o).freq else none
  if ys.isEmpty then none else some (medianLow ys)

/-- A condition has held since the noted count for n seconds. -/
def heldFor (since : Option Nat) (now n : Nat) : Bool := since.any fun t => t + n * secTicks ≤ now

def keepSince (since : Option Nat) (cond : Bool) (now : Nat) : Option Nat :=
  if cond then some (since.getD now) else none

/-- Sets and clears the disqualification reasons of R129. -/
def Dev.updateReasons (d : Dev) (k s : Nat) : Dev :=
  let v := d.view k s
  let y := (d.src s).freq
  let out := y.any fun y => y.natAbs > d.get (F.SLOT_BAND_PPB s) * 1000
  let bandSince := keepSince v.bandSince (y.isSome && !out) d.raw
  let band := out || (bit v.reasons 1 && !heldFor bandSince d.raw 10)
  let near := match y, d.peerMedian k s with
    | some y, some m => decide ((y - m).natAbs ≤ d.get (F.FREQ_AGREE_PPB k) * 1000)
    | _, _ => false
  let agreeSince := keepSince v.agreeSince near d.raw
  let dis := bit v.reasons 2 && !heldFor agreeSince d.raw 10
  let r := putBit (putBit (putBit v.reasons 1 band) 2 dis) 3 (d.src s).suspect
  d.setView k s { v with reasons := r, bandSince := bandSince, agreeSince := agreeSince }

/-- Lowest reason code set (R129); 0 outside DISQUALIFIED. -/
def Dev.showReason (d : Dev) (k s : Nat) : Dev :=
  let r := (d.view k s).reasons
  let c := if d.slotSt k s ≠ 5 then 0
    else if bit r 1 then 1 else if bit r 2 then 2 else if bit r 3 then 3 else if bit r 4 then 4 else 0
  d.set (slotReasonF k s) c

/-- The other qualified time-bearing slots whose offset agrees with that of a JUMPED slot at this evaluation, each with the raw count since which it has on every one (R132). -/
def Dev.agreeing (d : Dev) (k s : Nat) (phi : Int) : List (Nat × Nat) :=
  let old := (d.view k s).early
  ((List.range 12).filter fun o =>
    o ≠ s && (d.slotSt k o == 3 || d.slotSt k o == 4) && timeBearing (d.get (F.SLOT_CFG_TYPE o)) &&
      (d.slotPhi k o).any fun p => decide ((d.offsetGap s phi p).natAbs ≤ d.get (F.SLOT_JUMP_NS s) * 65536)).map fun o =>
    (o, ((old.find? (·.1 == o)).map (·.2)).getD d.raw)

/-- A QUALIFYING slot becomes QUALIFIED (R130 row 9). -/
def Dev.qualify (d : Dev) (k s : Nat) : Dev :=
  let d := d.setView k s { d.view k s with everQualified := true }
  (d.toSlotSt k s 3).setFlag (slotJumpedF k s) false

/-- QUALIFYING with JUMPED: "Phase jump" (R130 rows 6 and 7). -/
def Dev.jumped (d : Dev) (k s : Nat) (phi : Int) : Dev :=
  (((d.startWtr k s phi).toSlotSt k s 2).setFlag (slotJumpedF k s) true).raise 26 (A.SLOT_STATE s) s

/-- The signal is valid at this evaluation (R128, R329, R392). -/
def Dev.slotValid (d : Dev) (s : Nat) : Bool := d.flag (F.SLOT_STATE_SIG_VALID s) && !(d.src s).skip

/-- A slot whose signal is gone keeps its last offset and the bound of that instant (R131). -/
def Dev.noteLoss (d : Dev) (k s : Nat) : Dev :=
  let v := d.view k s
  if v.phi.isSome then d.setView k s { v with phiLast := v.phi, eLoss := d.boundPs k d.raw, phi := none } else d

/-- R130 row 3: to ABSENT; WTR and JUMPED cleared. -/
def Dev.toAbsent (d : Dev) (k s : Nat) : Dev :=
  let d := d.noteLoss k s
  ((d.setView k s { d.view k s with wtrEnd := 0, early := [] }).toSlotSt k s 1).setFlag (slotJumpedF k s) false

/-- One evaluation of a slot by a selector: the first row of R130 whose condition holds (rows 1 to 9). -/
def Dev.slotRow (d : Dev) (k s : Nat) : Dev :=
  let st := d.slotSt k s
  let valid := d.slotValid s
  let v := d.view k s
  let tb := timeBearing (d.get (F.SLOT_CFG_TYPE s))
  let phi := (d.slotPhi k s).getD 0
  let fails := tb && d.jumpFails k s phi
  let active := st == 2 || st == 3 || st == 4
  if d.rank k s = 0 then d.toSlotSt k s 0
  else if st = 0 then d.toSlotSt k s 1
  else if (active ∨ st = 5) ∧ !valid then d.toAbsent k s
  else if active ∧ v.reasons ≠ 0 then d.toSlotSt k s 5
  else if st = 1 ∧ valid then
    if fails then d.jumped k s phi else (d.startWtr k s phi).toSlotSt k s 2
  else if active ∧ fails then d.jumped k s phi
  else if st = 5 ∧ v.reasons = 0 then (d.startWtr k s phi).toSlotSt k s 2
  else if st = 2 then
    let jumpedNow := d.flag (slotJumpedF k s)
    let early := if jumpedNow then d.agreeing k s phi else []
    let d := d.setView k s { v with early := early }
    if jumpedNow ∧ (d.offsetGap s phi v.wtrPhi).natAbs > d.get (F.SLOT_JUMP_NS s) * 65536 then d.startWtr k s phi
    else if v.wtrEnd ≤ d.raw ∨ early.any (fun p => heldFor (some p.2) d.raw 1) then d.qualify k s
    else d
  else d

/-- Loss, row, then the offset and the WTR shown. -/
def Dev.evalSlot (d : Dev) (k s : Nat) : Dev :=
  let d := if d.slotValid s then d else d.noteLoss k s
  let d := (d.updateReasons k s).slotRow k s
  let d := if d.slotValid s then d.setView k s { d.view k s with phi := d.slotPhi k s } else d
  let v := d.view k s
  let d := d.set (slotWtrF k s) (if d.slotSt k s = 2 then cdiv (v.wtrEnd - d.raw) secTicks else 0)
  let d := match d.slotPhi k s with
    | some p => d.set64 (slotPhaseA k s) (ofSigned 64 p)
    | none => d
  (d.set (F.SLOT_FREQ_Y s) (ofSigned 32 (((d.src s).freq).getD 0))).showReason k s

/-! ## Selection (R134, R135) -/

/-- Candidates of a kind. -/
def Dev.candidates (d : Dev) (k : Nat) (tb : Bool) : List Nat :=
  if d.flag (F.SEL_CTRL_HOLD_REQ k) then [] else
  (List.range 12).filter fun s =>
    (d.slotSt k s == 3 || d.slotSt k s == 4) && d.rank k s != 0 &&
      (if tb then timeBearing (d.get (F.SLOT_CFG_TYPE s)) else freqOnly (d.get (F.SLOT_CFG_TYPE s)))

/-- Those of the best rank present. -/
def Dev.bestRank (d : Dev) (k : Nat) (l : List Nat) : List Nat :=
  let r := l.foldl (fun m s => min m (d.rank k s)) 16
  l.filter fun s => d.rank k s == r

/-- Choice among candidates (R134 step 2). -/
def Dev.choose (d : Dev) (k : Nat) (l : List Nat) : Option Nat :=
  let b := d.bestRank k l
  match b.find? fun s => d.slotSt k s == 4 with
  | some s => some s
  | none =>
    match b.find? fun s => (d.sel k).sw.any (·.target = s) with
    | some s => some s
    | none => b.head?

/-- The candidates that the disagreement rule looks at (R135). -/
def Dev.disagreeSet (d : Dev) (k : Nat) : List Nat :=
  let t := d.candidates k true
  d.bestRank k (if t.isEmpty then d.candidates k false else t)

/-- The candidates now in disagreement (R135). -/
def Dev.disagreeing (d : Dev) (k : Nat) : List Nat :=
  let l := (d.disagreeSet k).filter fun s => (d.src s).freq.isSome
  let y (s : Nat) : Int := ((d.src s).freq).getD 0
  let lim := d.get (F.FREQ_AGREE_PPB k) * 1000
  match l with
  | [] | [_] => []
  | [a, b] => if (y a - y b).natAbs > lim then [a, b] else []
  | _ => let m := medianLow (l.map y); l.filter fun s => (y s - m).natAbs > lim

/-- A disagreement of one slot has lasted 10 s: with three or more candidates reason DISAGREE, with two DISAG (R135). -/
def Dev.disagreePersists (d : Dev) (k s : Nat) : Dev :=
  let v := d.view k s
  if !heldFor v.disSince d.raw 10 ∨ !(d.disagreeing k).contains s then d
  else if ((d.disagreeSet k).filter fun s => (d.src s).freq.isSome).length ≥ 3 then
    if bit v.reasons 2 then d
    else ((d.setView k s { v with reasons := putBit v.reasons 2 true, agreeSince := none }).toSlotSt k s 5).showReason k s
  else if d.flag (slotDisagF k s) then d
  else
    let first := !(d.disagreeSet k).any fun o => d.flag (slotDisagF k o)
    let d := d.setFlag (slotDisagF k s) true
    if first then d.raise 25 (A.SLOT_STATE s) s else d

/-- The disagreement rule in one evaluation (R135). -/
def Dev.disagreeRule (d : Dev) (k : Nat) : Dev :=
  let dis := d.disagreeing k
  let d := (List.range 12).foldl (fun d s =>
    let v := d.view k s
    let d := d.setView k s { v with disSince := keepSince v.disSince (dis.contains s) d.raw }
    if dis.contains s then d else d.setFlag (slotDisagF k s) false) d
  dis.foldl (fun d s => d.disagreePersists k s) d

/-! ## Switches, servo, states (R136 to R144) -/

/-- Least epoch of a set the selector may form (R105). -/
def Dev.selEpoch (d : Dev) (k : Nat) : Nat :=
  let last := ((d.scale k).journal.head?.map (·.epoch)).getD 0
  max (last + max 1 (d.get (F.SET_INTERVAL_MS k)) * msTicks) (d.raw + leadTicks)

/-- The present evaluation is the last that lies 16,384 ticks before an epoch (R136). -/
def Dev.lastEval (d : Dev) (e : Nat) : Bool := d.raw + msTicks + leadTicks > e

def Dev.showSwitch (d : Dev) (k : Nat) : Dev :=
  match (d.sel k).sw with
  | none => (d.set (F.SEL_STATUS_SWITCH k) 0).set (F.SEL_STATUS_TARGET k) 15
  | some w => (d.set (F.SEL_STATUS_SWITCH k) (if w.measured.isSome ∨ w.commit.isSome then 2 else 1)).set
      (F.SEL_STATUS_TARGET k) w.target

/-- Starts a switch, or replaces its target while nothing is committed (R136). -/
def Dev.startSwitch (d : Dev) (k t : Nat) : Dev :=
  match (d.sel k).sw with
  | some w =>
    if w.commit.isSome ∨ w.target = t then d
    else (d.setSel k { d.sel k with sw := some { target := t, fromLocked := w.fromLocked } }).showSwitch k
  | none => (d.setSel k { d.sel k with sw := some { target := t, fromLocked := d.selSt k == 2 } }).showSwitch k

/-- MEASURE takes one evaluation's offset; after 16 it ends with the average (R136). A frequency-only target bears no offset. -/
def Dev.measure (d : Dev) (k : Nat) : Dev :=
  match (d.sel k).sw with
  | none => d
  | some w =>
    if w.measured.isSome ∨ w.commit.isSome ∨ w.init then d else
    let p := if freqOnly (d.get (F.SLOT_CFG_TYPE w.target)) then some 0 else d.slotPhi k w.target
    match p with
    | none => d
    | some p =>
      let w := { w with count := w.count + 1, sum := w.sum + p }
      let w := if w.count ≥ 16 then { w with measured := some (w.sum / 16, d.raw) } else w
      (d.setSel k { d.sel k with sw := some w }).showSwitch k

/-- Build-out extrapolated to an epoch (R136). DESIGN CHOICE: the mean of the 16 offsets holds 8 ms before the last of them, and drifts with y_s less the scale's own frequency, since φ_s is against the scale. -/
def Dev.buildOutAt (d : Dev) (k e : Nat) (w : SelSwitch) : Int :=
  if freqOnly (d.get (F.SLOT_CFG_TYPE w.target)) then 0 else
  match w.measured with
  | none => 0
  | some (avg, r) =>
    let y := ((d.src w.target).freq).getD 0 - d.scaleFreq k
    let ns := ((e : Int) - r + 8 * msTicks) * 5
    avg + (y * ns * 65536).tdiv (4 * 10 ^ 12)

/-- The selector was LOCKED at a raw count. -/
def Sel.lockedIn (x : Sel) (r : Nat) : Bool := x.locks.any fun p => decide (p.1 ≤ r) && p.2.all (r < ·)

/-- The learning window [entry − 610 s, entry − 10 s) of an entry now (R139): the loop's outputs while LOCKED, and whether the selector was LOCKED for all of it. -/
def Dev.learned (d : Dev) (k : Nat) : List Int × Bool :=
  let x := d.sel k
  let lo := d.raw - 610 * secTicks
  let hi := d.raw - 10 * secTicks
  ((x.freqHist.filter fun p => lo ≤ p.1 && p.1 < hi && x.lockedIn p.1).map (·.2),
    decide (610 * secTicks ≤ d.raw) && x.locks.any fun p => decide (p.1 ≤ lo) && p.2.all (hi ≤ ·))

/-- Standard deviation of frequencies in 2^-16 ppt, in ppt rounded up (R142). -/
def spreadPpt (l : List Int) : Nat :=
  let s := l.foldl (· + ·) 0
  let s2 := l.foldl (fun a x => a + x * x) 0
  cdiv (sqrtUp ((l.length : Int) * s2 - s * s).toNat) (l.length * 65536)

/-- Enters holdover (R138, R139, R142): E0 is E_lock; the frozen frequency is the mean of the loop's outputs over the LOCKED part of the learning window, and F their standard deviation where all of it was LOCKED, else the initial uncertainty. The mean of an empty part is a free value. -/
def Dev.enterHoldover (d : Dev) (k : Nat) : Dev :=
  let x := d.sel k
  let e0 := (d.boundPs k d.raw).getD 0
  let (l, whole) := d.learned k
  let f := if whole && !l.isEmpty then spreadPpt l else d.get F.OSC_INIT_UNC_UNC
  let (n, d) := d.draw
  let d := d.set64 (A.HOLD_FREQ k) (ofSigned 64 (if l.isEmpty then Config.learnedFreq n else meanOf l))
  let d := d.setSel k { x with entry := d.raw, e0 := e0, fPpt := f, coastTicks := 0, lockSince := none }
  (d.toSelSt k 3).showHoldRemain k

/-- Frozen frequency plus the ageing correction (R139), in 2^-16 ppt. -/
def Dev.heldFreq (d : Dev) (k : Nat) : Int :=
  let tau : Int := (d.raw - (d.sel k).entry : Nat)
  toSigned 64 (d.get64 (A.HOLD_FREQ k)) + (toSigned 32 (d.get F.OSC_AGE_RATE_RATE) * tau).tdiv (86400 * secTicks : Nat)

/-- R110: FREQ_ADJ is clamped to ±200 ppm and CLAMPED is set. -/
def Dev.setFreqAdj (d : Dev) (k : Nat) (f : Int) : Dev :=
  let lim : Int := 13107200000000
  let c := max (-lim) (min lim f)
  let d := d.set64 (A.FREQ_ADJ k) (ofSigned 64 c)
  if c = f then d else d.setFlag (F.SC_STATUS_CLAMPED k) true

/-- The loop begins from the frequency in force (DESIGN CHOICE: R140 gives no start value). -/
def Dev.loopStart (d : Dev) (k : Nat) : Dev :=
  let f := toSigned 64 (d.get64 (A.FREQ_ADJ k))
  d.setSel k { d.sel k with integ := f, freqOut := f }

/-- The slot that the loop follows, and whether it bears time (R140): the chosen one after its commit; in frequency-aided holdover the chosen frequency-only slot; while the host owns the scale, the slot that R134 would choose (R109). -/
def Dev.loopSlot (d : Dev) (k : Nat) : Option (Nat × Bool) :=
  let s := d.get (F.SEL_STATUS_SELECTED k)
  if (d.scale k).hostOwns then
    match d.choose k (d.candidates k true) with
    | some s => some (s, true)
    | none => (d.choose k (d.candidates k false)).map fun s => (s, false)
  else if d.flag (F.SEL_STATUS_FREQ_AIDED k) then some (s, false)
  else if (d.selSt k = 1 ∨ d.selSt k = 2) ∧ (d.sel k).committed then some (s, true)
  else none

/-- What the loop is fed (R140): the residual offset beside the slew still to run, where it lies within LOCK_WINDOW; of a frequency-only slot, y_s against the scale. -/
def Dev.loopInput (d : Dev) (k : Nat) : Option (Int × Bool) :=
  match d.loopSlot k with
  | some (s, true) =>
    if !d.slotValid s then none else
    (d.slotPhi k s).bind fun p =>
      let resid := p - (d.scale k).slewRemain (ticks16 d.raw) - (d.sel k).slewLeft
      if resid.natAbs ≤ d.get (F.LOCK_WINDOW_NS k) * 65536 then some (resid, true) else none
  | some (s, false) => if d.slotValid s then ((d.src s).freq).map fun y => (y - d.scaleFreq k, false) else none
  | none => none

/-- The proportional-integral loop, once per evaluation (R140). The phase filter, and the gains that a bandwidth with damping 1 gives, are free: the rule states no arithmetic. -/
def Dev.loop (d : Dev) (k : Nat) : Dev :=
  let bw := max 1 (d.get (F.SERVO_BW_MHZ k))
  let recent {α : Type} (secs : Nat) (l : List (Nat × α)) : List (Nat × α) := l.filter fun p => d.raw ≤ p.1 + secs * secTicks
  match d.loopInput k with
  | none => d
  | some (e, true) =>
    let (n, d) := d.draw
    let x := d.sel k
    let p := Config.filteredPhase n e
    let i := x.integ + Config.servoI bw p
    let o := i + Config.servoP bw p
    d.setSel k { x with phiF := p, phiHist := recent 10 ((d.raw, p) :: x.phiHist), integ := i, freqOut := o
                        freqHist := recent 610 ((d.raw, o) :: x.freqHist) }
  | some (e, false) =>
    let x := d.sel k
    let o := x.integ + Config.servoF bw e
    d.setSel k { x with integ := o, freqOut := o, freqHist := recent 610 ((d.raw, o) :: x.freqHist) }

/-- The frequency the selector gives the next set: the loop's output, or the held frequency (R139, R140). -/
def Dev.nextFreq (d : Dev) (k : Nat) : Dev :=
  let held := (d.selSt k == 3 || d.selSt k == 4) && !d.flag (F.SEL_STATUS_FREQ_AIDED k)
  d.setFreqAdj k (if held then d.heldFreq k else (d.sel k).freqOut)

/-- Clamps an amount to ±1 s; the rest is slewed afterwards (R136). -/
def splitSlew (a : Int) : Int × Int :=
  let c := max (-(sec16 : Int)) (min (sec16 : Int) a)
  (c, a - c)

/-- The switch would step the scale (R144). -/
def Dev.stepDue (d : Dev) (k e : Nat) (w : SelSwitch) : Bool :=
  d.selSt k == 4 && d.flag (F.SEL_CTRL_STEP_ON_RECOVER k) &&
    decide ((d.buildOutAt k e w).natAbs > d.get (F.PHASE_ACCEPT_NS k) * 65536)

/-- Forms and publishes the commit set (R136, R144). -/
def Dev.commitSet (d : Dev) (k : Nat) (w : SelSwitch) : Dev :=
  let e := d.selEpoch k
  if (d.scale k).pend.isSome ∨ !d.lastEval e then d else
  let stepping := d.stepDue k e w
  let e := if stepping then (d.scale k).secondTick e else e
  let b := d.buildOutAt k e w
  let d := d.nextFreq k
  let d := if stepping then
      d.formSet k e { incr0 := some (d.incr0 k), step := to72 b, cause := 0x12 }
    else if freqOnly (d.get (F.SLOT_CFG_TYPE w.target)) then d.formSet k e { incr0 := some (d.incr0 k), cause := 2 }
    else
      let (a, rest) := splitSlew b
      let d := d.setSel k { d.sel k with slewLeft := rest }
      let amount := to72 a - (d.scale k).remainAt e
      d.formSet k e { incr0 := some (d.incr0 k), cause := if a = 0 then 2 else 6
                      slew := some (amount, d.get (F.SLEW_RATE_PPB k)) }
  (d.setSel k { d.sel k with sw := some { w with commit := some e, buildOut := b } }).showSwitch k

/-- The initial absolute setting from the chosen slot (R113, R137), at the next second boundary that the selector's sets may have (R105). -/
def Dev.initialSet (d : Dev) (k : Nat) (w : SelSwitch) : Dev :=
  if (d.scale k).pend.isSome then d else
  let x := d.src w.target
  let y := (x.freq).getD 0
  let comp := toSigned 64 (d.get64 (A.SLOT_COMP w.target))
  let r := d.selEpoch k
  let at72 (e : Nat) : Int :=
    let dr : Int := (ticks16 e : Nat) - x.inst16
    to72 (x.ref16 + comp) + dr * nominalIncr + (dr * nominalIncr * y).tdiv (10 ^ 12)
  let t := at72 r
  let b := -((-t) / sec72) * sec72
  let rate : Int := (nominalIncr : Int) * 65536
  let e := r + ((b - t + rate - 1) / rate).toNat
  let d := d.formSet k e { abs := some (at72 e), cause := 0x22 }
  (d.setSel k { d.sel k with sw := some { w with init := true, commit := some e } }).showSwitch k

/-- The commit epoch: the target becomes SELECTED, the slot SELECTED until then QUALIFIED (R130 row 10); the switch is over. -/
def Dev.commitSlots (d : Dev) (k : Nat) (w : SelSwitch) : Dev :=
  let d := (List.range 12).foldl (fun d s =>
    if s ≠ w.target ∧ d.slotSt k s = 4 then d.toSlotSt k s 3 else d) d
  let d := if d.slotSt k w.target = 3 then d.toSlotSt k w.target 4 else d
  ((d.setSel k { d.sel k with sw := none }).set (F.SEL_STATUS_SELECTED k) w.target).showSwitch k

/-- The selector makes no choice: the TB-PLL coasts (R143), or is off (R92). -/
def Dev.noChoice (d : Dev) (k : Nat) : Bool := (d.sel k).coast.isSome || d.coarse

/-- The coast term C_TB × τ_c so far, in ps (R143). -/
def Dev.coastPs (d : Dev) (k : Nat) : Nat := cdiv (1000000 * (d.sel k).coastAt d.raw) secTicks

/-- The commit epoch of a switch is reached (R130 row 10, R136, R138). A switch to a frequency-only slot makes the holdover frequency-aided; one that commits while the TB-PLL coasts changes no selector state (R143). -/
def Dev.commitSwitch (d : Dev) (k : Nat) (w : SelSwitch) : Dev :=
  let st := d.selSt k
  let d := d.commitSlots k w
  let fo := freqOnly (d.get (F.SLOT_CFG_TYPE w.target))
  let d := d.setFlag (F.SEL_STATUS_FREQ_AIDED k) (fo && (st == 3 || st == 4))
  if fo then (d.loopStart k).publishQuality k
  else if d.noChoice k then (d.setSel k { d.sel k with back := some w.target, committed := true }).publishQuality k
  else
    let lock := w.fromLocked && decide (w.buildOut.natAbs ≤ d.get (F.LOCK_WINDOW_NS k) * 65536)
    let extra := if lock then 0 else if st = 3 ∨ st = 4 then d.coastPs k else (d.sel k).extra
    let d := d.setSel k { d.sel k with lockSince := none, extra := extra, committed := true }
    let d := d.loopStart k
    (((d.toSelSt k (if lock then 2 else 1)).showHoldRemain k).publishQuality k)

/-- ACQUIRING becomes LOCKED once |φ| has stayed in the window with no slew left for 10 s (R138). -/
def Dev.lockQualified (d : Dev) (k : Nat) : Dev :=
  if d.selSt k = 1 ∧ heldFor (d.sel k).lockSince d.raw 10 then
    let d := d.setSel k { d.sel k with everLocked := true, extra := 0 }
    (d.toSelSt k 2).publishQuality k
  else d

/-- Times the lock window (R138). -/
def Dev.lockTimer (d : Dev) (k : Nat) : Dev :=
  let s := d.get (F.SEL_STATUS_SELECTED k)
  let ok := d.selSt k == 1 && d.slotSt k s == 4 && (d.sel k).slewLeft == 0 &&
    (d.scale k).slewRemain (ticks16 d.raw) == 0 &&
    (d.slotPhi k s).any fun p => decide (p.natAbs ≤ d.get (F.LOCK_WINDOW_NS k) * 65536)
  d.setSel k { d.sel k with lockSince := keepSince (d.sel k).lockSince ok d.raw }

/-- HOLDOVER ends in LOST: "Holdover expired" (R138, R143). -/
def Dev.toLost (d : Dev) (k : Nat) : Dev :=
  let d := d.setSel k { d.sel k with back := none }
  ((d.toSelSt k 4).raise (22 + k) (A.SEL_STATUS k) k).showHoldRemain k |>.publishQuality k

/-- HOLD_REMAIN has reached 0 (R143). -/
def Dev.holdExpired (d : Dev) (k : Nat) : Dev :=
  if d.selSt k ≠ 3 then d else
  let d := d.showHoldRemain k
  if d.get (F.HOLD_REMAIN_S k) = 0 then d.toLost k else d

/-- A set of the selector's own: loop or held frequency, and a slew still left (R136, R139, R140). In FREE_RUN it forms one only to take the scale over from the host, at the frequency in force (R109, DEDUCED). -/
def Dev.servoSet (d : Dev) (k : Nat) : Dev :=
  let e := d.selEpoch k
  if (d.scale k).pend.isSome ∨ !d.lastEval e then d
  else if d.selSt k = 0 then
    if (d.scale k).hostOwns then d.formSet k e { incr0 := some (d.incr0 k), cause := 2 } else d
  else
    let d := d.nextFreq k
    let x := d.sel k
    if x.slewLeft ≠ 0 ∧ (d.scale k).remainAt e = 0 then
      let (a, rest) := splitSlew x.slewLeft
      let d := d.setSel k { x with slewLeft := rest }
      d.formSet k e { incr0 := some (d.incr0 k), cause := 6, slew := some (to72 a, d.get (F.SLEW_RATE_PPB k)) }
    else d.formSet k e { incr0 := some (d.incr0 k), cause := 2 }

/-- Drops a switch to another target that is not yet committed. -/
def Dev.dropSwitch (d : Dev) (k : Nat) (keep : Option Nat) : Dev :=
  if (d.sel k).sw.any fun w => w.commit.isNone && keep != some w.target then
    (d.setSel k { d.sel k with sw := none }).showSwitch k
  else d

/-- No time-bearing candidate (R138, R142): HOLDOVER, or FREE_RUN; a frequency-only slot is chosen by a switch of its own (R134 step 3, R136). -/
def Dev.noCandidate (d : Dev) (k : Nat) : Dev :=
  let fo := d.choose k (d.candidates k false)
  let d := d.dropSwitch k fo
  let st := d.selSt k
  let d := if st = 2 then d.enterHoldover k
    else if st = 1 then (if (d.sel k).everLocked then d.enterHoldover k else d.toSelSt k 0)
    else d
  match fo with
  | some s => if d.slotSt k s = 4 then d.dropSwitch k none else d.startSwitch k s
  | none => (d.set (F.SEL_STATUS_SELECTED k) 15).setFlag (F.SEL_STATUS_FREQ_AIDED k) false

/-- A time-bearing candidate is chosen (R134, R136 to R138). -/
def Dev.follow (d : Dev) (k c : Nat) : Dev :=
  let st := d.selSt k
  let cur := (List.range 12).find? fun s => d.slotSt k s == 4 && timeBearing (d.get (F.SLOT_CFG_TYPE s))
  let d := if st = 0 then (d.loopStart k).toSelSt k 1 else d
  if cur = some c ∧ (st = 1 ∨ st = 2) then
    let big := (d.slotPhi k c).any fun p => decide (p.natAbs > d.get (F.LOCK_WINDOW_NS k) * 65536)
    let quiet := (d.scale k).slewRemain (ticks16 d.raw) == 0 && (d.sel k).slewLeft == 0 && (d.scale k).pend.isNone
    let d := d.dropSwitch k (some c)
    if (d.sel k).restep ∨ (big ∧ quiet) then
      (d.setSel k { d.sel k with restep := false }).startSwitch k c
    else d
  else
    let lost := st = 2 ∧ cur.isNone
    let d := d.startSwitch k c
    if lost then d.enterHoldover k else d

/-- Runs the switch in progress: initial setting, MEASURE, commit set, commit epoch. While SC_CTRL.DISCIPLINE is 1 the selector publishes nothing (R109). -/
def Dev.runSwitch (d : Dev) (k : Nat) : Dev :=
  let silent := d.flag (F.SC_CTRL_DISCIPLINE k)
  match (d.sel k).sw with
  | none => if silent then d else d.servoSet k
  | some w =>
    match w.commit with
    | some e => if e ≤ d.raw then d.commitSwitch k w else d
    | none =>
      if !d.flag (F.SC_STATUS_INIT k) ∧ timeBearing (d.get (F.SLOT_CFG_TYPE w.target)) ∧ d.get (F.SLOT_CFG_TYPE w.target) ≠ 1 then
        if silent then d else d.initialSet k w
      else if w.measured.isSome then (if silent then d else d.commitSet k w)
      else d.measure k

/-- The return after a relock, or after STANDBY with the TB-PLL off (R93, R143): a chosen slot that is still a candidate is followed again, through ACQUIRING with no WTR. -/
def Dev.coastReturn (d : Dev) (k : Nat) : Dev :=
  match (d.sel k).back with
  | none => d
  | some s =>
    let d := d.setSel k { d.sel k with back := none }
    if d.selSt k = 3 ∧ (d.candidates k true).contains s then
      let d := d.setSel k { d.sel k with extra := d.coastPs k, lockSince := none }
      let d := (d.loopStart k).set (F.SEL_STATUS_SELECTED k) s
      (d.toSelSt k 1).showHoldRemain k
    else d

/-- The choice and what follows from it (R134, R143): none while the TB-PLL coasts or is off, but for a commit set already published; FREE_RUN while the host owns the scale (R138), with the loop computed and nothing published (R109). -/
def Dev.pursue (d : Dev) (k : Nat) : Dev :=
  let due := (d.sel k).sw.filter fun w => w.commit.any (· ≤ d.raw)
  if (d.scale k).hostOwns then
    let d := match due with
      | some w => d.commitSlots k w
      | none => d
    let d := ((d.setSel k { d.sel k with sw := none, lockSince := none, back := none }).toSelSt k 0).showSwitch k
    let d := d.loop k
    if d.flag (F.SC_CTRL_DISCIPLINE k) then d else d.servoSet k
  else if d.noChoice k then
    match due with
    | some w => d.commitSwitch k w
    | none => d
  else
    let d := d.coastReturn k
    let d := match d.choose k (d.candidates k true) with
      | some c => d.follow k c
      | none => d.noCandidate k
    (((d.loop k).runSwitch k).lockTimer k).lockQualified k

/-- One evaluation of a selector (R134): slots, disagreement, choice, servo, quality. -/
def Dev.evalSelector (d : Dev) (k : Nat) : Dev :=
  let st0 := d.selSt k
  let d := (List.range 12).foldl (fun d s => d.evalSlot k s) d
  let d := (d.disagreeRule k).pursue k
  let d := d.holdExpired k
  let stale := ((d.scale k).quality.head?).all fun q => q.q + 1000 * msTicks ≤ d.raw + leadTicks
  if d.selSt k ≠ st0 ∨ stale then d.publishQuality k else d

/-! ## Commands -/

/-- MEASURE_END (R136): the sixteenth evaluation has been taken; the build-out is carried by the next set. -/
def execMeasureEnd (k : Fin 2) (s : State) : Answer :=
  s.run fun d =>
    match (d.sel k).sw with
    | some w => if w.count + 1 ≥ 16 ∧ w.measured.isNone then d.measure k else d
    | none => d

/-- WTR_EXPIRY (R132). -/
def execWtrExpiry (k : Fin 2) (slot : Fin 12) (s : State) : Answer :=
  s.run fun d =>
    if d.slotSt k slot = 2 ∧ (d.view k slot).wtrEnd ≤ d.raw ∧ d.flag (F.SLOT_STATE_SIG_VALID slot) ∧
       (d.view k slot).reasons = 0 then
      (d.qualify k slot).set (slotWtrF k slot) 0
    else d

/-- DISAGREEMENT_PERSISTS (R135). -/
def execDisagreementPersists (k : Fin 2) (slot : Fin 12) (s : State) : Answer :=
  s.run (·.disagreePersists k slot)

/-- LOCK_QUALIFIED (R138). -/
def execLockQualified (k : Fin 2) (s : State) : Answer := s.run fun d => (d.lockTimer k).lockQualified k

/-- Limit without an accepted edge, Sync, comparison or host sample for a slot type, in ticks (R128). GNSS and SyncE have none. -/
def Dev.timeoutTicks (d : Dev) (s : Nat) : Option Nat :=
  match d.get (F.SLOT_CFG_TYPE s) with
  | 4 | 6 => none
  | 5 =>
    let lg := toSigned 8 (d.get (F.STR_REQ_LOG_SYNC (d.get (F.SLOT_CFG_BIND s))))
    some (if lg ≥ 0 then 3 * secTicks * 2 ^ lg.toNat else 3 * secTicks / 2 ^ (-lg).toNat)
  | 7 => some (10 * msTicks)
  | _ => some (2 * secTicks)

/-- SIGNAL_TIMEOUT (R128): a slot has heard nothing for its limit, or its source has lost its signal (an IRIG-B input, the recovered clock, the neighbour comparison). A GNSS slot loses its signal otherwise (R187, R191). -/
def execSignalTimeout (slot : Fin 12) (lost : Bool) (s : State) : Answer :=
  s.run fun d =>
    let ty := d.get (F.SLOT_CFG_TYPE slot)
    let late := (d.timeoutTicks slot).any fun t => decide ((d.src slot).heard + ticks16 t ≤ ticks16 d.raw)
    if ty ≠ 4 ∧ (lost ∨ late) then
      (if ty = 7 then d.peerLost (d.get (F.SLOT_CFG_BIND slot)) else d).signalLost slot
    else d

/-- HOLDOVER_EXPIRED (R143). -/
def execHoldoverExpired (k : Fin 2) (s : State) : Answer := s.run (·.holdExpired k)

/-- A selector that follows a slot leaves it for HOLDOVER and remembers it (R92, R143); a switch not yet committed starts again afterwards, from HOLDOVER. -/
def Dev.leaveSlot (d : Dev) (k : Nat) : Dev :=
  let d := if d.selSt k = 1 ∨ d.selSt k = 2 then
      (d.setSel k { d.sel k with back := some (d.get (F.SEL_STATUS_SELECTED k)) }).enterHoldover k
    else d
  match (d.sel k).sw with
  | some w => if w.commit.isSome then d else (d.setSel k { d.sel k with sw := some { target := w.target } }).showSwitch k
  | none => d

/-- The coast in progress, if any, ends: its time is kept (R143). -/
def Sel.coastOver (x : Sel) (now : Nat) : Sel := { x with coastTicks := x.coastAt now, coast := none }

/-- A TB-PLL unlock sends a selector to HOLDOVER with the coast term (R143). -/
def Dev.coastStart (d : Dev) (k : Nat) : Dev :=
  let d := d.leaveSlot k
  let d := d.setSel k { d.sel k with coast := some ((d.sel k).coast.getD d.raw) }
  (d.showHoldRemain k).publishQuality k

/-- A TB-PLL relock (R143): the choice is made at the next evaluation. -/
def Dev.coastEnd (d : Dev) (k : Nat) : Dev :=
  if (d.sel k).coast.isNone then d else (d.setSel k ((d.sel k).coastOver d.raw)).publishQuality k

/-- STANDBY with the TB-PLL off (R92): HOLDOVER without the 100 ms limit, until the return of R93. -/
def Dev.tbStop (d : Dev) (k : Nat) : Dev :=
  let d := d.leaveSlot k
  ((d.setSel k ((d.sel k).coastOver d.raw)).showHoldRemain k).publishQuality k

/-- TB_PLL_COAST_TIMEOUT (R138, R143): not relocked within 100 ms of the unlock; not in STANDBY with the TB-PLL off (R92). -/
def execTbPllCoastTimeout (s : State) : Answer :=
  s.run fun d => [0, 1].foldl (fun d k =>
    if (d.sel k).coast.any (· + 100 * msTicks ≤ d.raw) ∧ d.selSt k = 3 ∧ !d.coarse then d.toLost k else d) d

/-- Marks a slot disqualified by the host, or releases it, on both selectors (R133). -/
def Dev.disqualify (d : Dev) (s : Nat) (b : Bool) : Dev :=
  [0, 1].foldl (fun d k => d.setView k s { d.view k s with reasons := putBit (d.view k s).reasons 4 b }) d

/-- DISQ (R133). -/
def execDisq (slot : Fin 12) (s : State) : Answer := s.run (·.whenUp (·.disqualify slot true))

/-- RELEASE (R133). -/
def execRelease (slot : Fin 12) (s : State) : Answer := s.run (·.whenUp (·.disqualify slot false))

/-- A write of STEP_ON_RECOVER (R144): 1 needs PRIV bit 4 and the scale's step bit; otherwise PRIV_ERR. -/
def Dev.stepOnRecover (d : Dev) (k : Nat) (v : Bool) : Dev :=
  if v ∧ !(d.priv 4 && d.priv k) then d.stick A.RF_STATUS 3
  else d.setFlag (F.SEL_CTRL_STEP_ON_RECOVER k) v

/-- STEP_ON_RECOVER_WRITE (R144). -/
def execStepOnRecoverWrite (k : Fin 2) (v : Bool) (s : State) : Answer :=
  s.run (·.whenUp fun d => d.limitedBit (A.SEL_CTRL k) v (·.stepOnRecover k v))

end Sys2Proof.Machine
end

