-- ==== Sys2Proof/Machine/Tdc.lean ====
section
/-! DEFINITION. Time-interval and frequency measurement: glitch filter, stamps, calibration, gates, results (R148 to R171). -/

namespace Sys2Proof.Machine

def Dev.tim (d : Dev) (n : Nat) : TimIn := (d.tin[n]?).getD {}
def Dev.setTim (d : Dev) (n : Nat) (x : TimIn) : Dev := { d with tin := setAt d.tin n x }

/-- Integer square root, by bits from 2^95 down. -/
def isqrt (n : Nat) : Nat :=
  (List.range 96).foldr (fun i r => if (r + 2 ^ i) * (r + 2 ^ i) ≤ n then r + 2 ^ i else r) 0

/-! ## Stamps (R150 to R156) -/

/-- pos(c) of R151 from a histogram of 2^20 hits, rounded to the nearest unit; without a table the nominal bin of 128 units (R154). -/
def tapPos (h : Option (List Nat)) (c : Nat) : Nat :=
  match h with
  | none => 128 * c + 64
  | some h => (2 * (h.take c).foldl (· + ·) 0 + h.getD c 0 + 16) / 32

/-- The stamp of an edge whose code is latched at the tick after the present one (R151), or the coarse count (R156). -/
def Dev.edgeStamp (d : Dev) (n code : Nat) : Nat :=
  if d.coarse then ticks16 (d.stampTick d.raw)
  else
    let t := ((d.tim n).tables.getD (d.get (F.IN_STATUS_LINE n)) none)
    (((d.raw + 1) * 65536 : Nat) - (tapPos t code : Int) - toSigned 32 (d.get (F.IN_COMP_COMP n))).toNat

/-- Times of a stamp on a timeline in 2^-18 ns (R157): REF 0 raw at 1.25 ns per tick, 1 A, 2 B, 3 served. -/
def Dev.refTime18 (d : Dev) (ref r16 : Nat) : Int :=
  if ref = 0 then (r16 * 5 : Nat) else ((d.ts.time16 (ref - 1) r16).getD 0) * 4

/-- The selector of a timeline was not LOCKED at an instant (R158); for served time, that of the scale served then. -/
def Dev.degraded (d : Dev) (code r16 : Nat) : Bool :=
  !(d.sel (if code = 2 then d.ts.servedAt r16 else code)).lockedIn (r16 / 65536)

/-- R7 flags DEGRADED and COARSE of a stamp on scale code 0, 1, 2, as they were at the stamp's instant. -/
def Dev.stampFlags (d : Dev) (code r16 : Nat) : Nat :=
  4 * boolNat (d.degraded code r16) + 8 * boolNat (d.coarseAt (r16 / 65536))

/-- The R7 record of a stamp on the timeline of MEAS_CFG.REF, with UTC if asked (R162). -/
def Dev.refRecord (d : Dev) (ref r16 : Nat) (utc : Bool) (extra : Nat) : List Byte :=
  if ref = 0 then rawRecord r16 (8 * boolNat (d.coarseAt (r16 / 65536)) + extra)
  else
    let t := (d.ts.time16 (ref - 1) r16).getD 0
    let t' := if utc then utcOf d.ts.leaps d.utcBase t else t
    timeRecord t' (ref - 1) (d.stampFlags (ref - 1) r16 + boolNat utc + extra)

/-! ## Results (R165 to R169) -/

def Dev.measRef (d : Dev) (n : Nat) : Nat := d.get (F.MEAS_CFG_REF n)

/-- One TDC bin, in 2^-16 tick (R154). -/
def binUnits : Nat := 128

/-- A stamp lies within one TDC bin of a gate edge, or within 80 ticks while COARSE applies to either (R44, R161). -/
def Dev.nearEdge (d : Dev) (edge stamp : Nat) : Bool :=
  let lim := if d.coarseAt (edge / 65536) || d.coarseAt (stamp / 65536) then 80 * 65536 else binUnits
  decide (((stamp : Int) - edge).natAbs ≤ lim)

/-- Writes a 64-byte result record to the unit's FIFO (R169). -/
def Dev.pushResult (d : Dev) (n : Nat) (stamp : List Byte) (mode rflags : Nat) (v0 v1 v2 v3 cnt : Nat) : Dev :=
  let x := d.tim n
  let r := stamp ++ [byte mode, byte rflags, byte n, 0] ++ leBytes 4 x.seq ++ leBytes 8 v0 ++ leBytes 8 v1 ++
    leBytes 8 v2 ++ leBytes 4 v3 ++ leBytes 5 cnt ++ zeros 7
  let d := d.setTim n { x with seq := (x.seq + 1) % 2 ^ 32 }
  if x.results.length ≥ 16 then
    ((d.count32 (A.RES_DROP n)).setFlag (F.MEAS_STATUS_RES_OVF n) true).raise 29 (A.MEAS_STATUS n) n
  else
    let d := d.setTim n { d.tim n with results := x.results ++ [r] }
    let d := (d.set (F.MEAS_STATUS_RES_LEVEL n) (x.results.length + 1)).setFlag (F.MEAS_STATUS_DONE n) true
    d.raise 28 (A.MEAS_STATUS n) n

/-- Adds one converted stamp to a gate's sums (R166). -/
def Gate.add (g : Gate) (r16 : Nat) (t : Int) : Gate :=
  let t := t - g.t0
  let i : Int := g.n
  let g := match g.last with
    | none => g
    | some (_, p0) =>
      let p := t - p0
      { g with m := g.m + 1, sp := g.sp + p, sp2 := g.sp2 + p * p
               minp := if g.m = 0 then p else min g.minp p
               maxp := if g.m = 0 then p else max g.maxp p }
  { g with n := g.n + 1, first := if g.n = 0 then t else g.first, si := g.si + i, si2 := g.si2 + i * i, st := g.st + t
           sit := g.sit + i * t, st2 := g.st2 + t * t, last := some (r16, t) }

/-- Takes into the sums the stamps before an instant that still stand beside them. -/
def Gate.settle (g : Gate) (before : Nat) : Gate :=
  (g.tail.filter (·.1 < before)).foldl (fun g p => g.add p.1 p.2) { g with tail := g.tail.filter (before ≤ ·.1) }

/-- All stamps in the sums. -/
def Gate.whole (g : Gate) : Gate := g.tail.foldl (fun g p => g.add p.1 p.2) { g with tail := [] }

/-- No stamp yet. -/
def Gate.isNew (g : Gate) : Bool := g.n == 0 && g.tail.isEmpty

/-- A stamp joins a gate; the first one of a PERIOD measurement joins behind the last of the measurement before it (R168). -/
def Gate.put (g : Gate) (seed : Option (Nat × Int)) (p : Nat × Int) : Gate :=
  { g with tail := g.tail ++ ((if g.isNew then seed.toList else []) ++ [p]) }

/-- PERIOD values of a gate: mean (2^-24 ns), min, max and standard deviation (2^-16 ns). -/
def Gate.period (g : Gate) : Nat × Nat × Nat × Nat :=
  let m : Int := g.m
  if g.m = 0 then (0, 0, 0, 0)
  else
    let var := (g.sp2 * m - g.sp * g.sp).toNat / (g.m * g.m)
    (ofSigned 64 ((g.sp * 64).tdiv m), ofSigned 64 (g.minp.tdiv 4), ofSigned 64 (g.maxp.tdiv 4),
     min (isqrt var / 4) 0xFFFFFFFF)

/-- Square of the regression residual over N − 2, as numerator and denominator in 2^-36 ns² (R166). -/
def Gate.rms2 (g : Gate) : Int × Int :=
  let n : Int := g.n
  let dd := n * g.si2 - g.si * g.si
  let b := n * g.sit - g.si * g.st
  (g.st2 * n * dd - (g.st * dd - b * g.si) * g.st - b * g.sit * n, n * dd * (n - 2))

/-- Forms a gate's record (R166 to R169); short: it ended early. -/
def Dev.gateRecord (d : Dev) (n : Nat) (g : Gate) (short : Bool) : Dev :=
  let g := g.whole
  let freq := d.get (F.MEAS_CFG_MODE n) = 2
  let warn := boolNat g.calWarn
  let dead := boolNat (d.get (F.DEAD_CNT_CNT n) != g.dead0)
  let base := 32 * warn + 64 * dead + 8 * boolNat short
  let at16 := match g.closed with
    | some c => c
    | none => (g.last.map (·.1)).getD g.opened
  let stamp := d.refRecord (d.measRef n) at16 false (16 * boolNat (g.ambiguous && d.get (F.MEAS_CFG_GATE_SEL n) != 15))
  let (rn, rd) := g.rms2
  let lim := d.get (F.MEAS_RESID_PS n) * 2 ^ 18
  let bad := g.n < 16 || decide (rn * 1000000 > rd * (lim * lim : Nat))
  if freq ∧ !bad then
    let dd := (g.n : Int) * g.si2 - g.si * g.si
    let b := (g.n : Int) * g.sit - g.si * g.st
    let k : Int := if d.get (F.IN_CFG_EDGE n) = 2 then 2 else 1
    let fn : Int := (2 ^ d.get (F.IN_CFG_DIVIDE n) * 2 ^ 18 * 1000000000 : Nat) * dd
    let fd := k * b
    let nom : Int := d.get (F.MEAS_NOM_HZ n)
    let f := (fn * (2 ^ 32 : Nat)).tdiv fd
    let y := if nom = 0 then 0 else ((fn - nom * fd) * 10 ^ 18).tdiv (nom * fd)
    let rms := isqrt ((rn * (256000 * 256000 : Nat)).tdiv (rd * (2 ^ 36 : Nat))).toNat
    d.pushResult n stamp 2 base (ofSigned 64 f) (ofSigned 64 y) 0 (min rms 0xFFFFFFFF) g.n
  else
    let fb := base + 4 * boolNat freq
    if g.n < 2 then d.pushResult n stamp 3 (fb + 16) 0 0 0 0 0
    else
      let (v0, v1, v2, v3) := g.period
      d.pushResult n stamp 3 fb v0 v1 v2 v3 g.m

/-! ## Gates (R159 to R161) -/

/-- A gate that opens at a stamp, or a PERIOD measurement without a gate. -/
def Dev.newGate (d : Dev) (n opened : Nat) (closed : Option Nat) : Gate :=
  { opened := opened, closed := closed, t0 := d.refTime18 (d.measRef n) opened
    ambiguous := (d.tim n).recent.any fun p => d.nearEdge opened p.1 || closed.any (d.nearEdge · p.1)
    calWarn := d.flag (F.IN_STATUS_CAL_WARN n), dead0 := d.get (F.DEAD_CNT_CNT n) }

def Dev.showGate (d : Dev) (n : Nat) : Dev :=
  d.setFlag (F.MEAS_STATUS_GATE_OPEN n) ((d.tim n).gates.any fun g => ticks16 d.raw ≥ g.opened && g.closed.all (ticks16 d.raw < ·))

def Dev.disarm (d : Dev) (n : Nat) : Dev :=
  let x := d.tim n
  let d := d.setTim n { x with nextOpen := none, start := none, carry := none }
  (d.setFlag (F.MEAS_STATUS_ARMED n) false).setFlag (F.MEAS_STATUS_START_ARMED n) false

/-- Opens the internal gate that is due (R159). -/
def Dev.internalOpen (d : Dev) (n : Nat) : Dev :=
  let x := d.tim n
  match x.nextOpen with
  | none => d
  | some o =>
    if o > d.raw then d else
    let len := d.get (F.MEAS_GATE_MS n) * msTicks
    let g := d.newGate n (ticks16 o) (some (ticks16 (o + len)))
    let more := d.flag (F.MEAS_CTRL_CONT n) && !x.stopping
    (d.setTim n { x with gates := x.gates ++ [g], nextOpen := if more then some (o + len) else none }).showGate n

/-- Stamps enter the gates that cover them, by their stamps at full resolution (R42, R159); last: what the last stamp of an ended PERIOD measurement was. -/
def joinGates (period : Bool) : Option (Nat × Int) → List Gate → Nat × Int → List Gate
  | _, [], _ => []
  | seed, g :: gs, p =>
    let g' := if g.opened ≤ p.1 && g.closed.all (p.1 < ·) then g.put (if period then seed else none) p else g
    g' :: joinGates period ((g.whole.last.map fun q => (q.1, q.2 + g.t0)).orElse fun _ => seed) gs p

/-- Unit n takes one converted stamp into its gates; PERIOD counts none before ARM (R168). -/
def Dev.intoGates (d : Dev) (n : Nat) (gates : List Gate) (p : Nat × Int) : List Gate :=
  let period := d.get (F.MEAS_CFG_MODE n) = 3
  if period ∧ p.1 < ticks16 (d.tim n).armedAt then gates
  else joinGates period (if d.flag (F.MEAS_CTRL_CONT n) then (d.tim n).carry else none) gates p

/-- An edge of the polarity that IN_CFG.EDGE selects (R148). -/
def Dev.edgeSelected (d : Dev) (n : Nat) (level : Bool) : Bool :=
  d.get (F.IN_CFG_EDGE n) == 2 || (d.get (F.IN_CFG_EDGE n) == 0) == level

/-- The open gate closes at a stamp: what has been stamped at or after it leaves the gate (R42). -/
def Gate.closeAt (g : Gate) (stamp : Nat) (ambiguous : Bool) : Gate :=
  { g with closed := some stamp, tail := g.tail.filter (·.1 < stamp), ambiguous := g.ambiguous || ambiguous }

/-- An accepted edge of a gate input acts on one unit that it gates, in the modes that have gates (R159, R162). Stamps accepted before the edge that lie in the gate it opens join it. -/
def Dev.gateEdge (d : Dev) (n stamp : Nat) (level : Bool) (gin : Nat) : Dev :=
  let x := d.tim n
  let kind := d.get (F.MEAS_CFG_GATE_KIND n)
  if d.get (F.MEAS_CFG_MODE n) < 2 ∨ (kind = 1 ∧ !d.edgeSelected gin level) then d else
  let active := level == (d.get (F.IN_CFG_EDGE gin) != 1)
  let isOpen := x.gates.any (·.closed.isNone)
  let close := isOpen && (kind == 1 || !active)
  let near := x.recent.any fun p => d.nearEdge stamp p.1
  let gates := if close then x.gates.map fun g => if g.closed.isNone then g.closeAt stamp near else g else x.gates
  let may := d.flag (F.MEAS_STATUS_ARMED n) && !x.stopping && (d.flag (F.MEAS_CTRL_CONT n) || x.gates.isEmpty)
  let opens := may && (if kind = 1 then true else active && !isOpen)
  let gates := if opens then
      (x.recent.filter (stamp ≤ ·.1)).reverse.foldl (d.intoGates n) (gates ++ [d.newGate n stamp none])
    else gates
  (d.setTim n { x with gates := gates }).showGate n

/-- The longest time an edge may stay in a glitch filter, FILT + BOUNCE (R149), in 2^-16 tick. -/
def filterSpan : Nat := ticks16 (65545 * usTicks)

/-- An accepted stamp of the unit's input: gates whose edges lie near it are marked (R161), and it is kept while a gate's edge before it may still be in the filter. -/
def Dev.noteStamp (d : Dev) (n stamp : Nat) : Dev :=
  let x := d.tim n
  let p := (stamp, d.refTime18 (d.measRef n) stamp)
  d.setTim n { x with recent := (p :: x.recent).filter fun q => ticks16 d.raw ≤ q.1 + filterSpan
                      gates := x.gates.map fun g =>
                        if d.nearEdge g.opened stamp || g.closed.any (d.nearEdge · stamp) then { g with ambiguous := true } else g }

/-! ## Accepted stamps (R162 to R168) -/

/-- TIMESTAMP mode (R162, R163). -/
def Dev.fifoStamp (d : Dev) (n stamp : Nat) : Dev :=
  let x := d.tim n
  if x.stamps.length ≥ 1024 then
    ((d.count32 (A.FIFO_DROP n)).setFlag (F.MEAS_STATUS_FIFO_OVF n) true).raise 29 (A.MEAS_STATUS n) n
  else
    let r := d.refRecord (d.measRef n) stamp (d.flag (F.MEAS_CFG_UTC n)) 0
    (d.setTim n { x with stamps := x.stamps ++ [r] }).set (F.IN_STATUS_FIFO_LEVEL n) (x.stamps.length + 1)

/-- An accepted start of unit n (R164). -/
def Dev.intervalStart (d : Dev) (n stamp : Nat) : Dev :=
  let x := d.tim n
  let ref := d.measRef n
  let d := if x.start.isSome then d.count32 (A.NOSTOP_CNT n) else d
  let st : Start := { stamp := stamp, since := d.raw, t18 := d.refTime18 ref stamp, rec' := d.refRecord ref stamp false 0
                      calWarn := d.flag (F.IN_STATUS_CAL_WARN n), dead0 := d.get (F.DEAD_CNT_CNT n) }
  (d.setTim n { x with start := some st }).setFlag (F.MEAS_STATUS_START_ARMED n) true

/-- A stop pairs with the armed start (R164, R165, R169). -/
def Dev.intervalPair (d : Dev) (n stamp : Nat) : Dev :=
  match (d.tim n).start with
  | none => d.count32 (A.ORPHAN_CNT n)
  | some s =>
    let dt := d.refTime18 (d.measRef n) stamp - s.t18
    let rf := boolNat (decide (dt < 0)) + 2 * boolNat (decide (dt.natAbs < 5 * binUnits)) +
      32 * boolNat s.calWarn + 64 * boolNat (d.get (F.DEAD_CNT_CNT n) != s.dead0)
    let d := (d.setTim n { d.tim n with start := none }).setFlag (F.MEAS_STATUS_START_ARMED n) false
    let d := d.pushResult n s.rec' 1 rf (ofSigned 64 (dt.tdiv 4)) 0 0 0 1
    if d.flag (F.MEAS_CTRL_CONT n) then d else d.disarm n

/-- An accepted stop is taken once its tick is over, after a start accepted in the same tick (R164 step 3). -/
def Dev.stopDue (d : Dev) (n : Nat) : Dev :=
  match (d.tim n).stop with
  | some (r, stamp) => if r < d.raw then (d.setTim n { d.tim n with stop := none }).intervalPair n stamp else d
  | none => d

/-- An accepted stop of unit n (R164). -/
def Dev.intervalStop (d : Dev) (n stamp : Nat) : Dev :=
  let d := d.stopDue n
  d.setTim n { d.tim n with stop := some (d.raw, stamp) }

/-- A stamp enters the gate that covers it (R42, R159, R166); stamps that no edge of a gate can move any more enter the sums. -/
def Dev.gateStamp (d : Dev) (n stamp : Nat) : Dev :=
  let x := d.tim n
  let gates := d.intoGates n x.gates (stamp, d.refTime18 (d.measRef n) stamp)
  d.setTim n { x with gates := gates.map (·.settle (ticks16 d.raw - filterSpan)) }

/-- PERIOD: the measurement ends after MEAS_N periods; with CONT the next begins at its last stamp (R168). -/
def Dev.periodEnd (d : Dev) (n : Nat) : Dev :=
  match (d.tim n).gates with
  | [] => d
  | g :: rest =>
    let g := g.whole
    if g.m < d.get (F.MEAS_N_N n) then d else
    let d := d.gateRecord n { g with closed := if d.get (F.MEAS_CFG_GATE_SEL n) = 15 then none else g.closed } false
    if d.flag (F.MEAS_CTRL_CONT n) ∧ !(d.tim n).stopping then
      let seed := (g.last.map fun p => (p.1, p.2 + g.t0)).toList
      d.setTim n { d.tim n with gates := { d.newGate n g.opened g.closed with tail := seed } :: rest }
    else (d.setTim n { d.tim n with gates := rest }).disarm n

/-- The unit of input n takes a stamp of its own input. -/
def Dev.unitStamp (d : Dev) (n stamp : Nat) (level : Bool) : Dev :=
  match d.get (F.MEAS_CFG_MODE n) with
  | 0 => d.fifoStamp n stamp
  | 1 =>
    if !d.flag (F.MEAS_STATUS_ARMED n) then d
    else if d.get (F.MEAS_CFG_START_SEL n) = n then
      (if level then d.intervalStart n stamp else d.intervalStop n stamp)
    else d.intervalStop n stamp
  | m =>
    if !d.flag (F.MEAS_STATUS_ARMED n) ∧ (d.tim n).gates.isEmpty then d else
    let d := d.internalOpen n
    let d := if m = 3 ∧ d.get (F.MEAS_CFG_GATE_SEL n) = 15 ∧ (d.tim n).gates.isEmpty then
        d.setTim n { d.tim n with gates := [d.newGate n stamp none] }
      else d
    let d := d.gateStamp n stamp
    if m = 3 then d.periodEnd n else d

/-- An accepted edge is heard by the reference slots bound to the input (R128). -/
def Dev.slotHeard (d : Dev) (n stamp : Nat) : Dev :=
  [1, 2, 3].foldl (fun d ty => (d.slotsOf ty n).foldl (fun d s => d.setSrc s { d.src s with heard := stamp }) d) d

/-- The outcome of the IRIG-B frame that ends with an edge (R127, R128): the TAI time the frame gives for the edge in 2^-16 ns, or a frame that fails its checks; two of these in a row lose the signal. -/
def Dev.slotFrame (d : Dev) (n stamp : Nat) (frame : Option Int) : Dev :=
  (d.slotsOf 3 n).foldl (fun d s =>
    match frame with
    | some t => (d.setSrc s { d.src s with bad := 0 }).deliverSample s stamp t
    | none =>
      let d := d.setSrc s { d.src s with bad := (d.src s).bad + 1 }
      if (d.src s).bad ≥ 2 then d.signalLost s else d) d

/-- Reference slots bound to an input take its stamps (R125, R127); irig: what an IRIG-B frame that ends with this edge gives. -/
def Dev.slotStamp (d : Dev) (n stamp : Nat) (irig : Option (Option Int)) : Dev :=
  let d := (d.slotsOf 1 n).foldl (fun d s => d.deliverPps s stamp) d
  let d := (d.slotsOf 2 n).foldl (fun d s =>
    let khz := d.get (F.SLOT_CFG_NOM_KHZ s)
    if khz = 0 then d else
    let k := if d.get (F.IN_CFG_EDGE n) = 2 then 2 else 1
    let step : Int := (2 ^ d.get (F.IN_CFG_DIVIDE n) * 1000000 * 65536 / (k * khz) : Nat)
    d.deliverSample s stamp ((d.src s).ref16 + step)) d
  match irig with
  | none => d
  | some frame => d.slotFrame n stamp frame

/-- The next accepted edge of an input is stamped under DIVIDE (R155). -/
def Dev.stampsNext (d : Dev) (n : Nat) : Bool := 2 ^ d.get (F.IN_CFG_DIVIDE n) ≤ (d.tim n).divCount + 1

/-- An accepted edge with its stamp: division (R155), the unit, starts, gates, slots, counters. -/
def Dev.acceptStamp (d : Dev) (n stamp : Nat) (level : Bool) (irig : Option (Option Int)) : Dev :=
  let x := d.tim n
  let d := (d.setFlag (F.IN_STATUS_LEVEL n) level).slotHeard n stamp
  if !d.stampsNext n then d.setTim n { x with divCount := x.divCount + 1 }
  else
    let d := d.setTim n { x with divCount := 0 }
    let d := ((d.keeperCount 0x0E).keeperCount (0x10 + n)).slotStamp n stamp irig
    let d := d.noteStamp n stamp
    let d := (List.range 8).foldl (fun d m =>
      if m ≠ n ∧ d.get (F.MEAS_CFG_MODE m) = 1 ∧ d.flag (F.MEAS_STATUS_ARMED m) ∧ d.get (F.MEAS_CFG_START_SEL m) = n ∧
         d.edgeSelected n level then
        d.intervalStart m stamp
      else d) d
    if d.get (F.IN_CFG_ROLE n) = 1 then
      (List.range 8).foldl (fun d m => if d.get (F.MEAS_CFG_GATE_SEL m) = n then d.gateEdge m stamp level n else d) d
    else d.unitStamp n stamp level

/-! ## Glitch filter (R149) -/

/-- FILT in ticks and BOUNCE in ticks. -/
def Dev.filt (d : Dev) (n : Nat) : Nat := d.get (F.IN_FILT_FILT n) * 8
def Dev.bounce (d : Dev) (n : Nat) : Nat := d.get (F.IN_FILT_BOUNCE n) * usTicks

/-- An edge of a selected polarity (R148); a level gate sees both. -/
def Dev.polarity (d : Dev) (n : Nat) (level : Bool) : Bool :=
  let levelGate := d.get (F.IN_CFG_ROLE n) = 1 &&
    (List.range 8).any fun m => d.get (F.MEAS_CFG_GATE_SEL m) == n && d.get (F.MEAS_CFG_GATE_KIND m) == 0
  levelGate || d.edgeSelected n level

/-- The input takes stamps: RUNNING. -/
def Dev.inRunning (d : Dev) (n : Nat) : Bool := d.get (F.IN_CTRL_STATE n) == stRunning

/-- A level change at the ball, at the present tick, with the delay-line code of its edge. -/
def Dev.inputEdge (d : Dev) (n : Nat) (level : Bool) (code : Nat) (irig : Option (Option Int)) : Dev :=
  let x := d.tim n
  let d := d.setTim n { x with level := level }
  match x.cand with
  | some c => d.setTim n { d.tim n with cand := some { c with run := if level = c.level then some d.raw else none } }
  | none =>
    if !d.inRunning n ∨ !d.polarity n level then d.setFlag (F.IN_STATUS_LEVEL n) level
    else
      let stamp := d.edgeStamp n code
      let dead := x.lastStamp.any fun s => decide ((stamp : Int) < s + 8 * 65536)
      if dead then d.count32 (A.DEAD_CNT n) else
      let d := if d.stampsNext n then d.setTim n { d.tim n with lastStamp := some stamp } else d
      if d.filt n = 0 then d.acceptStamp n stamp level irig
      else d.setTim n { d.tim n with cand := some { stamp := stamp, level := level, edge := d.raw, run := some d.raw } }

/-- The candidate has held its level for FILT, in a run that began in time (R149 step 2). -/
def Dev.candidateOk (d : Dev) (n : Nat) : Option Candidate :=
  (d.tim n).cand.filter fun c =>
    c.run.any fun r => decide (r ≤ c.edge + d.bounce n ∧ r + d.filt n ≤ d.raw)

/-- No run of hold is possible any more (R149 step 3). -/
def Dev.candidateBad (d : Dev) (n : Nat) : Bool :=
  (d.tim n).cand.any fun c =>
    match c.run with
    | none => decide (c.edge + d.bounce n < d.raw)
    | some r => decide (c.edge + d.bounce n < r)

/-! ## Arming -/

/-- Refusal code of ARM (R171). -/
def Dev.armCode (d : Dev) (n : Nat) : Nat :=
  let mode := d.get (F.MEAS_CFG_MODE n)
  if d.flag (F.MEAS_STATUS_ARMED n) then 1
  else if (mode = 2 ∧ d.get (F.MEAS_CFG_GATE_SEL n) = 15) ∨
      (mode = 1 ∧ d.get (F.MEAS_CFG_START_SEL n) = n ∧ d.get (F.IN_CFG_EDGE n) ≠ 2) then 2
  else if !d.inRunning n then 3
  else 0

/-- First tick at or after r0 at which a scale code is at or past a whole second; served time with its bridge (R115, R121). -/
def Dev.codeSecond (d : Dev) (code r0 : Nat) : Nat :=
  if code ≠ 2 then (d.scale code).secondTick r0 else
  match d.ts.served72 (ticks16 r0) with
  | none => r0
  | some t =>
    let b := -((-t) / sec72) * sec72
    let fast : Int := nominalIncr * 65536 * 1001 / 1000
    let go (r : Nat) : Nat :=
      match d.ts.served72 (ticks16 r) with
      | none => r
      | some t => if b ≤ t then r else r + max 1 ((b - t) / fast).toNat
    (List.range 64).foldl (fun r _ => go r) r0

/-- First open of an internal gate (R159). -/
def Dev.firstOpen (d : Dev) (n : Nat) : Nat :=
  let r := d.raw + 800
  if !d.flag (F.MEAS_CFG_ALIGN n) then r
  else if d.measRef n = 0 then cdiv r secTicks * secTicks
  else d.codeSecond (d.measRef n - 1) r

/-- MEAS_CTRL.ARM (R159, R171). -/
def Dev.arm (d : Dev) (n : Nat) : Dev :=
  let code := d.armCode n
  let d := d.set (F.MEAS_STATUS_LAST_CODE n) code
  if code ≠ 0 then d else
  let internal := d.get (F.MEAS_CFG_GATE_SEL n) = 8 ∧ d.get (F.MEAS_CFG_MODE n) ≥ 2
  let d := d.setTim n { d.tim n with gates := [], start := none, stop := none, carry := none, stopping := false, armedAt := d.raw
                                     nextOpen := if internal then some (d.firstOpen n) else none }
  d.setFlag (F.MEAS_STATUS_ARMED n) true

/-- MEAS_CTRL.STOP (R159): the open gate runs to its close; with none open the unit disarms. -/
def Dev.stopMeas (d : Dev) (n : Nat) : Dev :=
  let x := d.tim n
  let d := d.setTim n { x with stopping := true, nextOpen := none }
  if x.gates.isEmpty then d.disarm n else d

/-- MEAS_CTRL.FLUSH (R170). -/
def Dev.flushMeas (d : Dev) (n : Nat) : Dev :=
  let d := d.setTim n { d.tim n with stamps := [], results := [] }
  (d.set (F.IN_STATUS_FIFO_LEVEL n) 0).set (F.MEAS_STATUS_RES_LEVEL n) 0

/-- The result of the oldest gate whose close has passed, once no candidate stamped before the close is open (R160). -/
def Dev.gateResult (d : Dev) (n : Nat) : Dev :=
  match (d.tim n).gates with
  | [] => d
  | g :: rest =>
    match g.closed with
    | none => d
    | some c =>
      if ticks16 d.raw < c ∨ (d.tim n).cand.any (·.stamp < c) then d else
      let g := g.whole
      let short := d.get (F.MEAS_CFG_MODE n) = 3 ∧ g.m < d.get (F.MEAS_N_N n)
      let d := d.gateRecord n g short
      let carry := (g.last.map fun p => (p.1, p.2 + g.t0)).orElse fun _ => (d.tim n).carry
      let d := (d.setTim n { d.tim n with gates := rest, carry := carry }).showGate n
      if rest.isEmpty ∧ (!d.flag (F.MEAS_CTRL_CONT n) ∨ (d.tim n).stopping) then d.disarm n else d

/-! ## Calibration (R151 to R153) -/

/-- CAL_WARN is set: a measurement that runs notes it (R153, R169). -/
def Dev.calWarn (d : Dev) (n : Nat) : Dev :=
  let x := d.tim n
  (d.setTim n { x with gates := x.gates.map fun g => { g with calWarn := true }
                       start := x.start.map fun s => { s with calWarn := true } }).setFlag (F.IN_STATUS_CAL_WARN n) true

/-- A calibration of the line that is not live has collected its hits; none while the delay lines stand still with the TB-PLL off (R156). -/
def Dev.calibrated (d : Dev) (n : Nat) (hits : List Nat) : Dev :=
  if d.coarse then d else
  let x := d.tim n
  let line := 1 - d.get (F.IN_STATUS_LINE n)
  let taps := (hits.filter (· ≠ 0)).length
  let d := d.set (if line = 0 then F.CAL_SPAN_SPAN0 n else F.CAL_SPAN_SPAN1 n) taps
  let fail := taps < 448 || hits.any fun h => h * 1250000 > 10000 * 2 ^ 20
  if fail then
    let d := d.setTim n { x with goodLines := 0 }
    ((d.calWarn n).setFlag (F.IN_STATUS_CAL_FAIL n) true).raise 30 (A.IN_STATUS n) n
  else
    let good := x.goodLines ||| 2 ^ line
    let d := d.setTim n { x with tables := setAt x.tables line (some hits), swapReady := true, goodLines := good }
    if good = 3 then d.setFlag (F.IN_STATUS_CAL_WARN n) false else d

/-- The lines swap roles while no edge is in flight (R152); not with the TB-PLL off, when the tables are held (R156). -/
def Dev.swapLines (d : Dev) (n : Nat) : Dev :=
  let x := d.tim n
  if x.swapReady ∧ !d.coarse then
    (d.setTim n { x with swapReady := false }).set (F.IN_STATUS_LINE n) (1 - d.get (F.IN_STATUS_LINE n))
  else d

/-! ## Enable and disable (R170) -/

/-- Start-up calibrates both lines in turn before the first stamp (R170). -/
def Dev.inToward (d : Dev) (n st : Nat) : Dev :=
  let d := d.set (F.IN_CTRL_STATE n) st
  if st = stStarting then d.setTim n { d.tim n with goodLines := 0 } else d

def Dev.inEnable (d : Dev) (n : Nat) (want : Bool) : Dev :=
  let st := d.get (F.IN_CTRL_STATE n)
  let r := enableReq st want
  let d := (d.setFlag (F.IN_CTRL_ENABLE n) want).setFlag (F.IN_CTRL_LATCHED n) r.latched
  if r.act = .nothing then d else d.inToward n (r.act.state st)

/-- The counters of an input are cleared at enable. -/
def Dev.clearInCounters (d : Dev) (n : Nat) : Dev :=
  [A.GLITCH_CNT n, A.DEAD_CNT n, A.ORPHAN_CNT n, A.NOSTOP_CNT n, A.FIFO_DROP n, A.RES_DROP n].foldl
    (fun d a => d.setReg a 0) d

/-- A running measurement ends with a record carrying SHORT (R170): of each gate that is open; of INTERVAL, with the armed start; of a unit that is armed with neither, with NO_DATA at the present instant (DESIGN CHOICE: R170 does not say what such a record holds). -/
def Dev.endShort (d : Dev) (n : Nat) : Dev :=
  let x := d.tim n
  let now := ticks16 d.raw
  let d := x.gates.foldl (fun d g => d.gateRecord n g true) d
  let d := if !d.flag (F.MEAS_STATUS_ARMED n) ∨ !x.gates.isEmpty then d
    else if d.get (F.MEAS_CFG_MODE n) = 1 then
      let r := (x.start.map (·.rec')).getD (d.refRecord (d.measRef n) now false 0)
      d.pushResult n r 1 (8 + 16 + 32 * boolNat (x.start.any (·.calWarn))) 0 0 0 0 0
    else if d.get (F.MEAS_CFG_MODE n) = 0 then d
    else d.gateRecord n (d.newGate n now (some now)) true
  (d.setTim n { d.tim n with gates := [], stop := none }).disarm n

/-- A shutdown or start-up of an input completes; then a latched request is acted on (R48, R170). -/
def Dev.inComplete (d : Dev) (n : Nat) : Dev :=
  match d.get (F.IN_CTRL_STATE n) with
  | 1 =>
    if (d.tim n).cand.isSome then d else
    let d := (d.stopDue n).endShort n
    let d := [1, 2, 3].foldl (fun d ty => (d.slotsOf ty n).foldl (fun d s => d.signalLost s) d) d
    let again := d.flag (F.IN_CTRL_LATCHED n)
    (d.setFlag (F.IN_CTRL_LATCHED n) false).inToward n (if again then stStarting else stStopped)
  | 3 =>
    if (d.tim n).goodLines ≠ 3 ∧ !d.coarse then d else
    let d := (d.clearInCounters n).setTim n { d.tim n with lastStamp := none, divCount := 0, seq := 0 }
    let again := d.flag (F.IN_CTRL_LATCHED n)
    (d.setFlag (F.IN_CTRL_LATCHED n) false).set (F.IN_CTRL_STATE n) (if again then stStopping else stRunning)
  | _ => d

/-! ## Commands -/

/-- INPUT_EDGE (R149): the level at the ball changes at the present tick; code: taps passed at the next tick; irig: of an edge that ends an IRIG-B frame, the time the frame gives it, or that the frame fails its checks. -/
def execInputEdge (n : Fin 8) (level : Bool) (code : Fin 512) (irig : Option (Option Int)) (s : State) : Answer :=
  s.run (·.inputEdge n level code irig)

/-- CANDIDATE_ACCEPT (R149). -/
def execCandidateAccept (n : Fin 8) (irig : Option (Option Int)) (s : State) : Answer :=
  s.run fun d =>
    match d.candidateOk n with
    | some c => (d.setTim n { d.tim n with cand := none }).acceptStamp n c.stamp c.level irig
    | none => d

/-- CANDIDATE_REJECT (R149). -/
def execCandidateReject (n : Fin 8) (s : State) : Answer :=
  s.run fun d =>
    if d.candidateBad n then (d.setTim n { d.tim n with cand := none }).count32 (A.GLITCH_CNT n) else d

/-- START_TIMEOUT (R164). -/
def execStartTimeout (n : Fin 8) (s : State) : Answer :=
  s.run fun d =>
    match (d.tim n).start with
    | some st =>
      if st.since + max 1 (d.get (F.MEAS_TIMEOUT_US n)) * usTicks ≤ d.raw then
        let d := (d.setTim n { d.tim n with start := none }).count32 (A.NOSTOP_CNT n)
        d.setFlag (F.MEAS_STATUS_START_ARMED n) false
      else d
    | none => d

/-- CALIBRATION_COMPLETE (R151): the hits of the 512 taps, 2^20 in all. -/
def execCalibrationComplete (n : Fin 8) (hits : List Nat) (s : State) : Answer := s.run (·.calibrated n hits)

/-- DELAY_LINE_SWAP (R152). -/
def execDelayLineSwap (n : Fin 8) (s : State) : Answer := s.run (·.swapLines n)

/-- GATE_OPEN (R159): the internal gate that is due. -/
def execGateOpen (n : Fin 8) (s : State) : Answer := s.run (·.internalOpen n)

/-- GATE_CLOSE (R159): an internal gate's close has been reached; the next opens in its place when gates follow one another. -/
def execGateClose (n : Fin 8) (s : State) : Answer := s.run fun d => (d.internalOpen n).showGate n

/-- GATE_RESULT (R160). -/
def execGateResult (n : Fin 8) (s : State) : Answer := s.run (·.gateResult n)

/-- ARM (R171). -/
def execArm (n : Fin 8) (s : State) : Answer := s.run (·.whenUp (·.arm n))

/-- STOP (R159). -/
def execStop (n : Fin 8) (s : State) : Answer := s.run (·.whenUp (·.stopMeas n))

/-- FLUSH (R170). -/
def execFlush (n : Fin 8) (s : State) : Answer := s.run (·.whenUp (·.flushMeas n))

/-- IN_CTRL_ENABLE (R170). -/
def execInCtrlEnable (n : Fin 8) (want : Bool) (s : State) : Answer :=
  s.run (·.whenUp fun d => d.limitedBit (A.IN_CTRL n) want (·.inEnable n want))

/-- INPUT_TRANSITION_COMPLETE (R170). -/
def execInputTransitionComplete (n : Fin 8) (s : State) : Answer := s.run (·.inComplete n)

end Sys2Proof.Machine
end

