-- ==== Sys2Proof/Machine/Gnss.lean ====
section
/-! DEFINITION. GNSS baseband: bands, AGC, notches, jamming, channels, time solution, false-signal checks, sleep, hot start (R172 to R196). -/

namespace Sys2Proof.Machine

/-! ## Powers of ten, for the decibel rules of R178 and R190 -/

/-- 10^(m/10,000) in units of 2^-256. -/
def pow10 (m : Nat) : Nat :=
  let c : Nat := 115818754420997552404717888023132207737221932220250267379395043694954896315170
  let r := (List.range 14).foldl (fun (p : Nat × Nat) i =>
    (if bit (m % 10000) i then p.1 * p.2 / 2 ^ 256 else p.1, p.2 * p.2 / 2 ^ 256)) (2 ^ 256, c)
  r.1 * 10 ^ (m / 10000)

/-- 10^(ΔP/10) for ΔP = dc × slope / 1000 + 20 log10(r/r0) dB, in units of 2^-256 (R178). Code terms beyond ±200 dB, which no rms of 16 bits brings back into the range of JN, count as that; against an rms of 0 the ratio is free. -/
def powerRatio (dc : Int) (slope r r0 : Nat) : Nat :=
  if r0 = 0 then Config.ratioOverZero dc slope r else
  let e := dc * slope
  if e ≥ 0 then pow10 (min e.toNat 200000) * (r * r) / (r0 * r0)
  else r * r * 2 ^ 512 / (pow10 (min (-e).toNat 200000) * (r0 * r0))

/-- J/N in 0.25 dB, truncated, 0 to 255 (R178). -/
def jamToNoise (p : Nat) : Nat :=
  (List.range 8).foldr (fun i k => if p ≥ 2 ^ 256 + pow10 ((k + 2 ^ i) * 250) then k + 2 ^ i else k) 0

/-! ## Accessors -/

def Dev.gnBand (d : Dev) (b : Nat) : GnBand := (d.gn.bands[b]?).getD {}
def Dev.setBand (d : Dev) (b : Nat) (x : GnBand) : Dev := { d with gn.bands := setAt d.gn.bands b x }
def bandUpF (b : Nat) : Fld := if b = 0 then F.GN_STATE_BAND0_UP else F.GN_STATE_BAND1_UP

/-- Band of a signal (R172): 0 for L1 C/A, E1, B1C; 1 for L5, E5a, B2a. -/
def sigBand (sig : Nat) : Nat := sig / 3

def Dev.gnRunning (d : Dev) : Bool := d.get F.GN_CTRL_STATE == stRunning

/-! ## Bands (R175 to R178) -/

/-- The unit is powered (R192). -/
def Dev.gnPowered (d : Dev) : Bool := d.get F.GN_CTRL_STATE != stStopped

/-- A signal may be tracked (R172): its band is up and enabled, its constellation enabled, the unit in service. -/
def Dev.signalOn (d : Dev) (sig : Nat) : Bool :=
  d.gnRunning && d.flag (bandUpF (sigBand sig)) && bit (d.get F.GN_CTRL_BANDS) (sigBand sig) &&
    bit (d.get F.GN_CTRL_CONST) (sig % 3)

/-- Channels whose signal is no longer enabled stop (R172). -/
def Dev.dropDisabled (d : Dev) : Dev :=
  { d with gn.channels := d.gn.channels.map fun c => if c.state ≠ 0 && !d.signalOn c.signal then { c with state := 0, used := false } else c }

/-- A band's clock has shown no edge for 10 µs (R175). -/
def Dev.bandDown (d : Dev) (b : Nat) : Dev :=
  let d := (d.setFlag (bandUpF b) false).setBand b { d.gnBand b with clkStamps := [] }
  { d with gn := { d.gn with
      epochEdge := d.gn.epochEdge.filter (·.1 ≠ b)
      channels := d.gn.channels.map fun c =>
        if sigBand c.signal = b ∧ c.state ≠ 0 then { c with state := 0, used := false } else c } }

/-- A band's clock has been back for 1 ms (R175): its channels reacquire with aiding from the other band. -/
def Dev.bandUp (d : Dev) (b : Nat) : Dev :=
  let d := d.setFlag (bandUpF b) true
  let aided (c : Channel) : Bool := d.gn.channels.any fun o => o.state == 2 && sigBand o.signal != b && o.sv == c.sv && o.signal % 3 == c.signal % 3
  { d with gn.channels := d.gn.channels.map fun c =>
      if sigBand c.signal = b ∧ c.state = 0 ∧ c.sv ≠ 0 ∧ d.signalOn c.signal ∧ aided c then { c with state := 1 } else c }

/-- JAMMED is 1 while JN ≥ JN_THR (R178). -/
def Dev.showJammed (d : Dev) (b : Nat) : Dev := d.setFlag (F.JAM_JAMMED b) (decide (d.get (F.JAM_JN_THR b) ≤ d.get (F.JAM_JN b)))

/-- JN and JAMMED from the present code and rms (R178). -/
def Dev.showJam (d : Dev) (b : Nat) : Dev :=
  let x := d.gnBand b
  let jn := if d.flag (F.JAM_CAL_VALID b) then
      jamToNoise (powerRatio ((d.get (F.AGC_STATUS_CODE b) : Int) - x.calCode) (d.get (F.AGC_CFG_SLOPE b))
        (d.get (F.AGC_STATUS_RMS b)) x.calRms)
    else 0
  (d.set (F.JAM_JN b) jn).showJammed b

/-- The AGC's next code (R176): a step toward the target, up where the rms lies above it, down where it lies below, none at it; the step's size is free. -/
def agcNext (code rms target step : Nat) : Nat :=
  if target < rms then min 4095 (code + step) else if rms < target then code - step else code

/-- Every 1 ms: the measured rms and the loop's new code (R176); held while the band is down (R175) or the unit off (R192). -/
def Dev.agcUpdate (d : Dev) (b rms : Nat) : Dev :=
  if !d.flag (bandUpF b) ∨ !d.gnPowered then d else
  let (n, d) := d.draw
  ((d.set (F.AGC_STATUS_RMS b) rms).set (F.AGC_STATUS_CODE b)
    (agcNext (d.get (F.AGC_STATUS_CODE b)) rms (d.get (F.AGC_CFG_TARGET b)) (Config.agcStep n))).showJam b

/-- A notch shown in NOTCH[k]. -/
def Dev.showNotch (d : Dev) (b k : Nat) (freq : Int) (height : Nat) (active : Bool) : Dev :=
  ((d.set (F.NOTCH_FREQ b k) (ofSigned 24 freq)).set (F.NOTCH_DEPTH b k) (min 127 (height / 2))).setFlag
    (F.NOTCH_ACTIVE b k) active

/-- A line of a spectrum: bin, frequency in the samples in 10 Hz, height above the median in 0.25 dB. -/
abbrev SpecLine := Nat × Int × Nat

/-- Frequency of a line from the band centre in 10 Hz (R173, R177): IF_KHZ is where the centre lies in the samples; with Q negated the samples' spectrum is mirrored. -/
def Dev.lineFreq (d : Dev) (b : Nat) (f : Int) : Int :=
  (if d.flag (F.IF_CFG_Q_INV b) then -f else f) - 100 * toSigned 16 (d.get (F.IF_CFG_IF_KHZ b))

/-- The line that a notch at a bin tracks: the strongest in its bin or a neighbouring one. -/
def tracked (lines : List SpecLine) (bin : Nat) : Option SpecLine :=
  (lines.filter fun l => l.1 ≤ bin + 1 && bin ≤ l.1 + 1).foldl (fun m l =>
    match m with
    | none => some l
    | some o => if l.2.2 > o.2.2 then some l else m) none

def Dev.setNotch (d : Dev) (b k : Nat) (x : Option (Nat × Nat)) : Dev :=
  d.setBand b { d.gnBand b with notch := setAt (d.gnBand b).notch k x }

/-- A notch in use at one spectrum (R177): it follows its line, and is released once the line has been quiet for 100 spectra, or when it is no longer enabled. -/
def Dev.notchTrack (d : Dev) (b : Nat) (lines : List SpecLine) (k : Nat) : Dev :=
  match (d.gnBand b).notch.getD k none with
  | none => d
  | some (bin, q) =>
    let l := (tracked lines bin).getD (bin, ((bin : Int) - 512) * 7992, 0)
    let q := if l.2.2 + 12 < d.get (F.NOTCH_CFG_THR b) then q + 1 else 0
    if q ≥ 100 ∨ !bit (d.get (F.NOTCH_CFG_ENABLE b)) k then (d.setNotch b k none).showNotch b k 0 0 false
    else (d.setNotch b k (some (l.1, q))).showNotch b k (d.lineFreq b l.2.1) l.2.2 true

/-- The strongest candidate takes a free enabled notch, or replaces the weakest notched line by more than 3 dB (R177). -/
def Dev.notchTake (d : Dev) (b : Nat) (lines : List SpecLine) : Dev :=
  let height (bin : Nat) : Nat := ((tracked lines bin).map (·.2.2)).getD 0
  let taken (bin : Nat) : Bool := (d.gnBand b).notch.any fun n => n.any fun x => x.1 ≤ bin + 1 && bin ≤ x.1 + 1
  let cands := lines.filter fun l => !taken l.1 && (d.gnBand b).lines.any fun r => r.1 == l.1 && decide (10 ≤ r.2)
  match cands.foldl (fun m c => match m with
      | none => some c
      | some o => if c.2.2 > o.2.2 then some c else m) none with
  | none => d
  | some c =>
    let put (k : Nat) : Dev := (d.setNotch b k (some (c.1, 0))).showNotch b k (d.lineFreq b c.2.1) c.2.2 true
    let en := (List.range 4).filter fun k => bit (d.get (F.NOTCH_CFG_ENABLE b)) k
    match en.find? fun k => ((d.gnBand b).notch.getD k none).isNone with
    | some k => put k
    | none =>
      let h (k : Nat) : Nat := (((d.gnBand b).notch.getD k none).map fun n => height n.1).getD 0
      match en.foldl (fun m k => match m with
          | none => some k
          | some o => if h k < h o then some k else m) none with
      | some k => if c.2.2 > h k + 12 then put k else d
      | none => d

/-- One spectrum (R177): the runs of lines above THR, the notches in use, a candidate. -/
def Dev.spectrum (d : Dev) (b : Nat) (lines : List SpecLine) : Dev :=
  if !d.flag (bandUpF b) ∨ !d.gnPowered then d else
  let up := lines.filter fun l => d.get (F.NOTCH_CFG_THR b) < l.2.2
  let x := d.gnBand b
  let d := d.setBand b { x with lines := up.map fun l => (l.1, ((x.lines.find? (·.1 = l.1)).map (·.2)).getD 0 + 1) }
  ((List.range 4).foldl (fun d k => d.notchTrack b lines k) d).notchTake b lines

/-! ## Channels (R179 to R182) -/

def Dev.setChan (d : Dev) (c : Nat) (x : Channel) : Dev := { d with gn.channels := setAt d.gn.channels c x }
def Dev.chan (d : Dev) (c : Nat) : Channel := (d.gn.channels[c]?).getD {}

/-- Searches with aiding need a satellite tracked or the hot-start record (R179). -/
def Dev.canAid (d : Dev) : Bool :=
  d.gn.channels.any (·.state == 2) || d.flag F.HOT_STATUS_VALID

/-- Two signals of one satellite: system and satellite number agree. -/
def sameSat (sig sv sig' sv' : Nat) : Bool := sig % 3 == sig' % 3 && sv == sv'

/-- A cell that a search may detect (R172, R179): 30 dB-Hz or more, of a signal enabled; a cold search covers L1 C/A only; not of a signal that a channel already acquires or tracks. -/
def Dev.detectable (d : Dev) (aided : Bool) (x : Nat × Nat × Nat × Int) : Bool :=
  d.signalOn x.1 && decide (x.1 < 6) && (aided || x.1 == 0) && decide (120 ≤ x.2.2.1) &&
    !d.gn.channels.any fun c => (c.state == 1 || c.state == 2) && c.signal == x.1 && c.sv == x.2.1

/-- The channel that takes a detected cell: the lost channel of the same signal, else a free one; the lowest number. -/
def Dev.takes (d : Dev) (sig sv : Nat) : Option Nat :=
  match d.gn.channels.findIdx? fun c => c.state == 3 && c.signal == sig && c.sv == sv with
  | some i => some i
  | none => d.gn.channels.findIdx? fun c => c.state == 0

/-- A search of the bank (R179, R180): detected cells as signal, satellite, C/N0 in 0.25 dB-Hz, elevation. Channels are allotted by elevation, dual-band satellites first. -/
def Dev.search (d : Dev) (aided : Bool) (found : List (Nat × Nat × Nat × Int)) : Dev :=
  if aided ∧ !d.canAid then d else
  let cells := found.filter (d.detectable aided)
  let dual (x : Nat × Nat × Nat × Int) : Bool :=
    cells.any (fun y => sameSat x.1 x.2.1 y.1 y.2.1 && sigBand y.1 != sigBand x.1) ||
      d.gn.channels.any fun c => c.state == 2 && sameSat x.1 x.2.1 c.signal c.sv && sigBand c.signal != sigBand x.1
  let before (x y : Nat × Nat × Nat × Int) : Bool := (dual x && !dual y) || (dual x == dual y && decide (y.2.2.2 ≤ x.2.2.2))
  (sortBy before cells).foldl (fun d x =>
    match d.takes x.1 x.2.1 with
    | some i => d.setChan i { state := 1, signal := x.1, sv := x.2.1, cn0 := x.2.2.1, elev := x.2.2.2 }
    | none => d) d

/-! ## Hot-start record (R195) -/

/-- A copy is valid: its magic and CRC check. -/
def hotValid (h : List Byte) : Bool := leAt h 0 4 == 0x4E534748 && leAt h 12 4 == crc32c (h.drop 16)

/-- The valid copy with the higher sequence number. -/
def Retention.newestHot (r : Retention) : Option (Nat × List Byte) :=
  match r.hot with
  | [a, b] =>
    let a := a.filter hotValid
    let b := b.filter hotValid
    match a, b with
    | some x, some y => if leAt x 8 4 ≥ leAt y 8 4 then some (0, x) else some (1, y)
    | some x, none => some (0, x)
    | none, some y => some (1, y)
    | none, none => none
  | _ => none

/-- HOT_STATUS as far as it is stored; AGE_MIN is formed at the read. -/
def Dev.showHot (d : Dev) : Dev :=
  match d.ret.newestHot with
  | some (_, h) => ((d.setFlag F.HOT_STATUS_VALID true).set F.HOT_STATUS_COPY d.ret.hotNew).set F.HOT_STATUS_EPH (leAt h 6 2)
  | none => (d.setFlag F.HOT_STATUS_VALID false).set F.HOT_STATUS_EPH 0

/-- The record as it would be saved now (R195). -/
def Dev.hotRecord (d : Dev) : List Byte :=
  let seq := ((d.ret.newestHot.map fun h => leAt h.2 8 4).getD 0) + 1
  let drift := (d.gn.sol.map (·.drift)).getD 0
  let body := leBytes 8 d.ret.aon ++ timeRecord (d.now16 0) 0 (d.stampFlags 0 (ticks16 d.raw)) ++
    leBytes 4 (ofSigned 32 drift) ++ leBytes 4 ((d.gn.sol.map (·.driftUnc)).getD 0) ++
    (d.gn.pos.map fun p => leBytes 8 (ofSigned 64 p)).flatten ++ leBytes 4 (d.get F.GN_POS_UNC_UNC) ++
    [byte (d.get F.GN_STATE_SOLN)] ++ zeros 3 ++ slice d.gn.nav 0 0x1EB0 ++ zeros 0x100
  leBytes 4 0x4E534748 ++ leBytes 2 1 ++ leBytes 2 d.gn.ephCount ++ leBytes 4 seq ++ leBytes 4 (crc32c body) ++ body

/-- Saves the record, the copies alternating (R195). -/
def Dev.saveHot (d : Dev) : Dev :=
  let k := 1 - d.ret.hotNew
  let r := d.hotRecord
  { d with ret := { d.ret with hot := setAt d.ret.hot k (some r), hotNew := k }, gn.lastSave := d.raw }.showHot

/-! ## Time solution (R183 to R189) -/

/-- What the housekeeping cores have solved at an epoch. -/
abbrev GnSolution := Sys2Proof.GnSolution

/-- Conversion to TAI (R183): 19 s for GPS and Galileo, 33 s for BeiDou. -/
def Dev.gnTai (d : Dev) (t : Int) : Int := t + (if d.get F.GN_CTRL_TIMESYS = 2 then 33 else 19) * sec16

/-- Delay of the signal before the device, in 2^-16 ns (R184): the band's RF_DELAY, of the dual-frequency combination with its weights f0² and −f1² over their difference (f0 : f1 = 154 : 115), and GN_CABLE. The solution's time at r_k is later by it (DEDUCED). -/
def Dev.gnDelay (d : Dev) (iono : Nat) : Int :=
  let rf (b : Nat) : Int := toSigned 64 (d.get64 (A.RF_DELAY b))
  let band := if iono = 2 then (23716 * rf 0 - 13225 * rf 1).tdiv 10491 else rf iono
  band + toSigned 64 (d.get64 A.GN_CABLE)

/-- The receiver holds, or is to hold, a position (R185): HOLD_MODE 1 with one given, HOLD_MODE 0 once the survey is over. -/
def Dev.gnHolding (d : Dev) : Bool :=
  (d.get F.GN_CTRL_HOLD_MODE == 1 && d.gn.posSet) || (d.get F.GN_CTRL_HOLD_MODE == 0 && d.get F.GN_STATE_SOLN == 3)

/-- Satellites needed in the present mode (R185). -/
def Dev.gnNeeds (d : Dev) (two : Bool) : Nat := if d.gnHolding then 1 else if two then 5 else 4

/-- T_gnss(r) from the latest solution, in 2^-16 ns (R186). -/
def Solution.at16 (x : Solution) (r16 : Nat) : Int :=
  let dr : Int := (r16 : Int) - x.r16
  x.time + (dr * 5 * (10 ^ 12 * 65536 + x.drift)).tdiv (4 * 10 ^ 12 * 65536)

/-- The GNSS slot's signal follows SUSPECT, short holdover and the TB-PLL (R128, R187, R189, R191). -/
def Dev.gnSlotValid (d : Dev) (v : Bool) : Dev :=
  (d.slotsOf 4 0).foldl (fun d s =>
    let ok := v && !d.flag F.GN_STATE_SUSPECT && !d.coarse && d.gn.sol.isSome
    let d := if ok then d.setSrc s { d.src s with has := true } else d
    d.setValid s ok) d

/-- At each evaluation the GNSS slot's offset is formed from the latest solution (R186), but for a TB-PLL that is off (R189); SOL_UNC grows by 2 ns per second of short holdover (R187). -/
def Dev.gnRefresh (d : Dev) : Dev :=
  match d.gn.sol with
  | none => d
  | some x =>
    if d.coarse then d else
    let unc := x.unc + (d.gn.shortSince.map fun t => 2 * ((d.raw - t) / secTicks)).getD 0
    let r16 := ticks16 d.raw
    let d := d.set F.SOL_UNC_UNC unc
    (d.slotsOf 4 0).foldl (fun d s =>
      d.setSrc s { d.src s with ref16 := x.at16 r16, inst16 := r16, unc := unc }) d

/-- The slot's frequency of an epoch (R127): the drift of its solution. -/
def Dev.gnReport (d : Dev) (x : Solution) : Dev :=
  (d.slotsOf 4 0).foldl (fun d s => d.setSrc s ((d.src s).report x.r16 (x.drift.tdiv 65536))) d

/-! ## False-signal checks (R190, R191) -/

/-- Sum and number of the C/N0 of the satellites tracked on a band. -/
def Dev.bandCn0 (d : Dev) (b : Nat) : List Nat :=
  (d.gn.channels.filter fun c => c.state == 2 && sigBand c.signal == b).map (·.cn0)

/-- CN0_UNIF on a band. -/
def Dev.chkUnif (d : Dev) (b : Nat) : Bool :=
  let l := d.bandCn0 b
  let n := l.length
  let sx := l.foldl (· + ·) 0
  let sxx := l.foldl (fun a x => a + x * x) 0
  let std := d.get F.GN_CHK_CN0_STD
  n ≥ 6 && sx > n * d.get F.GN_CHK_CN0_MEAN_MIN && n * sxx - sx * sx < std * std * n * n

/-- POWER_AGC on a band: ΔP and mean C/N0 have both risen by more than the threshold within the last 10 s. -/
def Dev.chkPower (d : Dev) (b : Nat) : Bool :=
  let thr := d.get F.GN_CHK_POWER_DB
  let l := d.bandCn0 b
  let sx := l.foldl (· + ·) 0
  (d.gnBand b).hist.any fun (t, code, rms, sx0, n0) =>
    d.raw ≤ t + 10 * secTicks &&
      powerRatio ((d.get (F.AGC_STATUS_CODE b) : Int) - code) (d.get (F.AGC_CFG_SLOPE b)) (d.get (F.AGC_STATUS_RMS b)) rms
        > pow10 (thr * 250) &&
      n0 != 0 && l.length != 0 && sx * n0 > sx0 * l.length + thr * n0 * l.length

/-- Satellites tracked on both bands. -/
def Dev.dualCount (d : Dev) : Nat :=
  (d.gn.channels.filter fun c => c.state == 2 && sigBand c.signal == 0 &&
    d.gn.channels.any fun o => o.state == 2 && sigBand o.signal == 1 && sameSat c.signal c.sv o.signal o.sv).length

/-- A step of scale k is being applied (R190): a set with one is pending, or has taken effect since an instant. -/
def Dev.stepping (d : Dev) (k since16 : Nat) : Bool :=
  let sc := d.scale k
  (sc.pend.toList ++ sc.ends).any (fun p => bit p.cause 4 || bit p.cause 5) ||
    sc.journal.any fun p => (bit p.cause 4 || bit p.cause 5) && decide (since16 ≤ ticks16 p.epoch)

/-- The five checks of an epoch, bit order of R190; phi: offset against the named scale. -/
def Dev.gnChecks (d : Dev) (q : GnSolution) (phi : Option Int) : List Bool :=
  let k := d.get F.GN_CHK_CFG_SCALE
  let time := match phi, d.gn.lastPhi with
    | some p, some (r, o) => !d.gn.skipTime && d.selSt k != 0 && !d.stepping k r && beyond p o (d.get F.GN_CHK_TIME_NS)
    | _, _ => false
  [d.chkUnif 0 || d.chkUnif 1, d.chkPower 0 || d.chkPower 1, time,
   decide (2 ≤ d.dualCount) && q.bandDiff.any (· > d.get F.GN_CHK_BAND_NS),
   d.get F.GN_STATE_SOLN == 3 && decide (q.residual > d.get F.GN_CHK_RESID_NS)]

/-- GNSS_SUSPECT is set or cleared (R190, R191). -/
def Dev.setSuspect (d : Dev) (v : Bool) (cause : Nat) : Dev :=
  if d.flag F.GN_STATE_SUSPECT = v then d else
  let d := (d.setFlag F.GN_STATE_SUSPECT v).setFlag F.GN_SUSPECT_CHANGED true
  let d := d.set F.GN_SUSPECT_CAUSE (d.get F.GN_SUSPECT_CAUSE ||| cause)
  (d.gnSlotValid (!v && d.gn.sol.isSome)).raise 31 A.GN_SUSPECT

/-- Checks that have failed at PERSIST consecutive epochs, as a mask. -/
def Dev.persisting (d : Dev) : Nat :=
  (List.range 5).foldl (fun m i => if d.gn.fails.getD i 0 ≥ d.get F.GN_CHK_CFG_PERSIST ∧ d.get F.GN_CHK_CFG_PERSIST ≠ 0 then m + 2 ^ i else m) 0

/-- GNSS_SUSPECT_SET: a check has persisted (R190). -/
def Dev.suspectSet (d : Dev) : Dev := if d.persisting ≠ 0 then d.setSuspect true d.persisting else d

/-- GNSS_SUSPECT_CLEAR: every enabled check has passed at the last CLEAR epochs (R191). -/
def Dev.suspectClear (d : Dev) : Dev :=
  if d.flag F.GN_STATE_SUSPECT ∧ d.gn.passes ≥ d.get F.GN_CHK_CFG_CLEAR then d.setSuspect false 0 else d

/-- Evaluates the checks after a solution (R190). -/
def Dev.runChecks (d : Dev) (q : GnSolution) : Dev :=
  let k := d.get F.GN_CHK_CFG_SCALE
  let phi := (d.gn.sol.bind fun x => (d.ts.time16 k x.r16).map fun t => x.time - t)
  let en := d.get F.GN_CHK_CFG_ENABLE
  let fl := (d.gnChecks q phi).mapIdx fun i f => f && bit en i
  let mask := (List.range 5).foldl (fun m i => if fl.getD i false then m + 2 ^ i else m) 0
  let d := d.set F.GN_SUSPECT_FAILING mask
  let hist (d : Dev) (b : Nat) : Dev :=
    let l := d.bandCn0 b
    d.setBand b { d.gnBand b with hist := ((d.raw, d.get (F.AGC_STATUS_CODE b), d.get (F.AGC_STATUS_RMS b),
      l.foldl (· + ·) 0, l.length) :: (d.gnBand b).hist).take 11 }
  let d := hist (hist d 0) 1
  let d := { d with gn := { d.gn with
      fails := (List.range 5).map fun i => if fl.getD i false then d.gn.fails.getD i 0 + 1 else 0
      passes := if mask = 0 then d.gn.passes + 1 else 0
      lastPhi := phi.map fun p => ((d.gn.sol.map Solution.r16).getD 0, p), skipTime := false } }
  d.suspectSet.suspectClear

/-- No solution at an epoch: short holdover (R187). -/
def Dev.noSolution (d : Dev) : Dev :=
  if d.gn.sol.isNone ∨ d.flag F.GN_STATE_SHORT_HOLD then d
  else { d with gn.shortSince := some d.raw }.setFlag F.GN_STATE_SHORT_HOLD true

/-- The UTC data in use (R188): of GPS where it is tracked, else Galileo, else BeiDou; decoded identically from two satellites. -/
def Dev.utcAgreed (d : Dev) : Option (Int × Option (Nat × Bool)) :=
  let tracked (sys : Nat) : Bool := d.gn.channels.any fun c => c.state == 2 && c.signal % 3 == sys
  match [0, 1, 2].find? tracked with
  | none => none
  | some sys =>
    let l := d.gn.utcSeen.filter (·.1 == sys)
    (l.find? fun x => l.any fun y => y.2.1 != x.2.1 && y.2.2 == x.2.2).map (·.2.2)

/-- The firmware acts on the navigation message's UTC data (R119, R188): with GNSS authoritative UTC_BASE while it is not valid, and leap entries added and withdrawn; with the host authoritative the next leap is compared. -/
def Dev.navUtc (d : Dev) : Dev :=
  match d.utcAgreed with
  | none => d
  | some (o, leap) =>
    if d.flag F.LEAP_CTRL_SRC then d.leapReport true leap else
    let d := if d.flag F.UTC_STATUS_VALID then d else d.utcBaseWrite (ofSigned 16 o)
    let stale := d.ts.leaps.filter fun l => l.fromGnss && decide (d.now16 0 < leapAt l) && !leap.any (·.1 == l.sec)
    let d := stale.foldl (fun d l => d.leapWithdraw l.sec true) d
    match leap with
    | some (sec, neg) => if d.ts.leaps.any (·.sec = sec) then d else d.leapAdd sec neg true
    | none => d

/-- Numbers of the mode of a solution (R185): held, navigating, or surveying with the position averaged. -/
def Dev.gnMode (d : Dev) (q : GnSolution) : Dev :=
  if d.gnHolding then d.set F.GN_STATE_SOLN 3
  else
    let d : Dev := { d with gn := { d.gn with pos := q.pos } }
    if d.get F.GN_CTRL_HOLD_MODE ≠ 0 then d.set F.GN_STATE_SOLN 1
    else
      let new := d.gn.surveySince.isNone
      let sum := if new then [0, 0, 0] else d.gn.surveySum
      { d with gn := { d.gn with
          surveySince := some (d.gn.surveySince.getD d.raw)
          surveySum := List.zipWith (· + ·) sum (q.pos ++ [0, 0, 0])
          surveyN := (if new then 0 else d.gn.surveyN) + 1 } }.set F.GN_STATE_SOLN 2

/-- A solution is published for the latest epoch, or the epoch yields none (R183 to R187, R190): none while the cores restart or the TB-PLL is off. -/
def Dev.publishSolution (d : Dev) (q : Option GnSolution) : Dev :=
  match q, d.gn.epoch with
  | some q, some r16 =>
    if !d.gnRunning ∨ d.coarse ∨ d.md.coresDown.isSome ∨ q.nsat < d.gnNeeds q.twoSystems then d.noSolution else
    let unc := cdiv (3 * q.sigmaPs) 1000
    let x : Solution := { r16 := r16, time := d.gnTai q.sysTime + d.gnDelay q.iono, drift := q.drift, driftUnc := q.driftUnc, unc := unc }
    let d := ({ d with gn := { d.gn with sol := some x, shortSince := none, epoch := none } } : Dev).setFlag F.GN_STATE_SHORT_HOLD false
    let d := (d.set F.GN_STATE_NSAT_USED q.nsat).keeperCount 0x18
    let d := d.setWide A.SOL_RAW 3 (r16 % 65536 + 2 ^ 32 * (r16 / 65536))
    let d := (d.setTime (A.SOL_TIME 0) x.time).set F.SOL_DRIFT_D (ofSigned 32 q.drift)
    let d := ((d.set F.SOL_UNC_UNC unc).gnMode q).set F.GN_POS_UNC_UNC q.posUnc
    -- time to first fix (R192)
    let d := if d.gn.fixed then d else
      ({ d with gn := { d.gn with fixed := true } } : Dev).set F.GN_STATE_TTFF (min 0xFFFF ((d.raw - d.gn.startAt) / (secTicks / 10)))
    ((((d.gnReport x).runChecks q).gnRefresh).gnSlotValid true)
  | _, _ => d.noSolution

/-! ## Enable, duty cycle (R192, R193) -/

def Dev.gnEnable (d : Dev) (want : Bool) : Dev :=
  let st := d.get F.GN_CTRL_STATE
  let r := enableReq st want
  let d := (d.setFlag F.GN_CTRL_ENABLE want).setFlag F.GN_CTRL_LATCHED r.latched
  let d := if want then { d with gn.asleep := false } else d
  d.set F.GN_CTRL_STATE (r.act.state st)

/-- Channels stop, the record is saved, the unit is powered down (R192). -/
def Dev.gnStopped (d : Dev) : Dev :=
  let d := d.saveHot
  let d := { d with gn := { d.gn with channels := List.replicate 96 {}, epoch := none, epochEdge := none } }
  let d := ((d.set F.GN_STATE_SOLN 0).set F.GN_STATE_NSAT_USED 0).noSolution
  { d with gn := { d.gn with surveySince := none, fixed := false } }

/-- AON counts of a number of seconds (R194: 2.5 MHz). -/
def aonSec (s : Nat) : Nat := s * 2500000

/-- AON counts since an earlier one, modulo 2^48 (R194). -/
def aonSince (now t : Nat) : Nat := (now + 2 ^ 48 - t % 2 ^ 48) % 2 ^ 48

/-- Age of a hot-start record in 2^-16 ns (R194): from Scale A where it is set and differs by more than 1 s from the modular age. -/
def Dev.recordAge (d : Dev) (h : List Byte) : Nat :=
  let m := aonSince d.ret.aon (leAt h 16 8) * (400 * 65536)
  let s := d.now16 0 - joinTime (leAt h 0x18 6) (leAt h 0x1E 4) (leAt h 0x22 2)
  if d.flag (F.SC_STATUS_INIT 0) ∧ (s - m).natAbs > sec16 then s.toNat else m

/-- Age of the newest hot-start record in seconds. -/
def Dev.hotAge (d : Dev) : Nat :=
  match d.ret.newestHot with
  | none => 0
  | some (_, h) => d.recordAge h / sec16

/-- The start kind (R196): 1 hot, 2 warm, 3 cold. The position is known to 100 km by the record or a SET; the time by the AON counter, with a record, or an initialised scale. Without a record, a SET and an initialised Scale A make the start warm (DEDUCED from the last sentence of R196). -/
def Dev.startKind (d : Dev) : Nat :=
  match d.ret.newestHot with
  | none => if d.gn.posSet && d.flag (F.SC_STATUS_INIT 0) then 2 else 3
  | some (_, h) =>
    let age := d.recordAge h / sec16
    let holding := leAt h 0x4C 1 == 3 || (d.get F.GN_CTRL_HOLD_MODE == 1 && d.gn.posSet)
    let pos := d.gn.posSet || (leAt h 0x4C 1 != 0 && decide (leAt h 0x48 4 ≤ 100000000))
    if pos && decide ((if holding then 1 else 4) ≤ Config.freshEphemeris h age) then 1
    else if pos && Config.freshAlmanac h age then 2
    else 3

/-- Start-up: the hot-start record is loaded if valid, and the start is of a kind (R192, R196). -/
def Dev.gnStarted (d : Dev) : Dev :=
  let k := d.startKind
  let d := match d.ret.newestHot with
    | some (_, h) =>
      { d with gn := { d.gn with nav := slice h 0x50 0x1EB0, ephCount := leAt h 6 2
                                 pos := if d.gn.posSet then d.gn.pos
                                   else [toSigned 64 (leAt h 0x30 8), toSigned 64 (leAt h 0x38 8), toSigned 64 (leAt h 0x40 8)] } }
    | none => d
  { d with gn := { d.gn with startAt := d.raw, fixed := false, fresh := true } }.set F.GN_STATE_START_KIND k

def Dev.gnComplete (d : Dev) : Dev :=
  let again := d.flag F.GN_CTRL_LATCHED
  match d.get F.GN_CTRL_STATE with
  | 1 => (d.gnStopped.setFlag F.GN_CTRL_LATCHED false).set F.GN_CTRL_STATE (if again then stStarting else stStopped)
  | 3 => (d.gnStarted.setFlag F.GN_CTRL_LATCHED false).set F.GN_CTRL_STATE (if again then stStopping else stRunning)
  | _ => d

/-- The duty cycle runs (R193): STANDBY with STBY_DUTY, or with the TB-PLL off, while ENABLE is 1. -/
def Dev.dutyRuns (d : Dev) : Bool :=
  d.mode == .standby && (d.flag F.GN_CTRL_STBY_DUTY || d.coarse) && d.flag F.GN_CTRL_ENABLE

/-- A unit that is asleep starts up (R193). -/
def Dev.gnAwake (d : Dev) : Dev :=
  if !d.gn.asleep then d else
  let d := { d with gn.asleep := false }
  if d.flag F.GN_CTRL_ENABLE ∧ d.get F.GN_CTRL_STATE = stStopped then d.set F.GN_CTRL_STATE stStarting else d

/-- A period of the duty cycle begins, with a wake; a unit that sleeps where no duty cycle is called for any more runs again (R193). -/
def Dev.dutyWake (d : Dev) : Dev :=
  if !d.dutyRuns then (if d.flag F.GN_CTRL_ENABLE then d.gnAwake else d)
  else if aonSince d.ret.aon d.gn.dutyAt ≥ aonSec (d.get F.GN_DUTY_PERIOD_S) then
    ({ d with gn.dutyAt := d.ret.aon } : Dev).gnAwake
  else d

/-- Sleeps once awake for ON_S of the period. -/
def Dev.dutySleep (d : Dev) : Dev :=
  let t := aonSince d.ret.aon d.gn.dutyAt
  if d.dutyRuns ∧ !d.gn.asleep ∧ aonSec (d.get F.GN_DUTY_ON_S) ≤ t ∧ t < aonSec (d.get F.GN_DUTY_PERIOD_S) then
    let d := { d with gn.asleep := true }
    if d.get F.GN_CTRL_STATE = stRunning then d.set F.GN_CTRL_STATE stStopping else d
  else d

/-- GN_POS_CMD.SET (R185): while holding, from the next epoch; else at once, unless the receiver navigates throughout or is off. -/
def Dev.setPosition (d : Dev) : Dev :=
  let p := [A.GN_POS_X, A.GN_POS_Y, A.GN_POS_Z].map fun a => toSigned 64 (d.get64 a)
  if d.get F.GN_STATE_SOLN = 3 then { d with gn := { d.gn with posNext := some p, skipTime := true } }
  else
    let d := { d with gn := { d.gn with pos := p, posSet := true, surveySince := none, skipTime := true } }
    if d.gnRunning ∧ d.get F.GN_CTRL_HOLD_MODE ≠ 2 then d.set F.GN_STATE_SOLN 3 else d

/-- JAM.CAL (R178). -/
def Dev.jamCal (d : Dev) (b : Nat) : Dev :=
  let d := d.setBand b { d.gnBand b with calCode := d.get (F.AGC_STATUS_CODE b), calRms := d.get (F.AGC_STATUS_RMS b) }
  (d.setFlag (F.JAM_CAL_VALID b) true).showJam b

/-- GN_CTRL.SURVEY_RESTART (R185): a new survey from navigating; the unit must be in service. -/
def Dev.restartSurvey (d : Dev) : Dev :=
  let d := { d with gn := { d.gn with surveySince := none, posNext := none } }
  if d.gnRunning then d.set F.GN_STATE_SOLN 1 else d

/-- GN_CTRL.SUSPECT_CLR (R191). -/
def Dev.clearSuspect (d : Dev) : Dev :=
  { d with gn := { d.gn with fails := [0, 0, 0, 0, 0], passes := 0 } }.setSuspect false 0

/-- HOT_CMD.ERASE (R195). -/
def Dev.eraseHot (d : Dev) : Dev := { d with ret.hot := [none, none] }.showHot

/-! ## Commands -/

/-- SELECTOR_EVALUATION (R134, R186): both selectors, side by side; synce: the frequencies of recovered clocks whose lock is held, in ppt, by link. -/
def execSelectorEvaluation (synce : List (Nat × Int)) (s : State) : Answer :=
  s.run fun d =>
    let d := (((d.synceFreq synce).gnRefresh).evalSelector 0).evalSelector 1
    { d with refs.srcs := d.refs.srcs.map fun x => { x with skip := false } }


/-- BAND_DOWN (R175). -/
def execBandDown (b : Fin 2) (s : State) : Answer := s.run (·.bandDown b)

/-- BAND_UP (R175). -/
def execBandUp (b : Fin 2) (s : State) : Answer := s.run (·.bandUp b)

/-- AGC_UPDATE (R176): the rms measured over 1 ms, in 2^-8 LSB. -/
def execAgcUpdate (b : Fin 2) (rms : Nat) (s : State) : Answer := s.run (·.agcUpdate b rms)

/-- SPECTRUM (R177). -/
def execSpectrum (b : Fin 2) (lines : List (Nat × Int × Nat)) (s : State) : Answer := s.run (·.spectrum b lines)

/-- JAM_CAL (R178): the present code and rms become the calibration. -/
def execJamCal (b : Fin 2) (s : State) : Answer := s.run (·.whenUp (·.jamCal b))

/-- ACQUISITION_SEARCH (R179): the cells a search has found, as signal, satellite, C/N0, elevation. -/
def execAcquisitionSearch (aided : Bool) (found : List (Nat × Nat × Nat × Int)) (s : State) : Answer := s.run (·.search aided found)

/-- DETECTION_VERIFICATION (R179): a verified signal is tracked if it is still enabled (R172). -/
def execDetectionVerification (ch : Fin 96) (ok : Bool) (s : State) : Answer :=
  s.run fun d => if (d.chan ch).state = 1 then
      d.setChan ch { d.chan ch with state := if ok && d.signalOn (d.chan ch).signal then 2 else 0, lowSince := none }
    else d

/-- CHANNEL_LOSS_OF_LOCK (R181): C/N0 below 24 dB-Hz for 1 s, or the PLL lock indicator has failed for 200 ms. The lost channel is the one that an aided search of its signal takes again. -/
def execChannelLossOfLock (ch : Fin 96) (pll : Bool) (s : State) : Answer :=
  s.run fun d => if (d.chan ch).state = 2 ∧ (pll ∨ heldFor (d.chan ch).lowSince d.raw 1) then
      d.setChan ch { d.chan ch with state := 3, used := false, lowSince := none } else d

/-- A channel's measurement of an epoch (R181, R182): C/N0, whether used, fitted delay (0.05 to 1.5 chips) and amplitude ratio (0 to 0.9) in 2^-8. -/
def Channel.measure (c : Channel) (now cn0 : Nat) (used : Bool) (delay ratio : Nat) : Channel :=
  let ra := min ratio 230
  let mp := decide (ra * 10 > 256)
  { c with cn0 := cn0, used := used, lowSince := keepSince c.lowSince (decide (cn0 < 96)) now, mp := mp
           mpDelay := if mp then max 13 (min delay 384) else 0, mpRatio := if mp then ra else 0 }

/-- An epoch lies on the sample clock, one second after the last (R183): 81,840,000 edges; the first one, or the first on another band's clock, anywhere. -/
def Dev.epochOk (d : Dev) (b edge : Nat) : Bool :=
  match d.gn.epochEdge with
  | some (b', e) => b' != b || edge == e + 81840000
  | none => true

/-- What the satellites' navigation messages have given (R188, R194): navigation data; stale: a message disagrees with the issue of the hot-start record's ephemeris, so the first one makes the start a cold one. -/
def Dev.navTake (d : Dev) (nav : Option (Nat × List Byte × Bool)) : Dev :=
  match nav with
  | none => d
  | some (n, bs, stale) =>
    let d := if d.gn.fresh && stale then d.set F.GN_STATE_START_KIND 3 else d
    { d with gn := { d.gn with ephCount := n, nav := bs, fresh := false } }

/-- A measurement epoch (R174, R183): s0 and s1 are the stamps of the sample-clock edges, of each 8,184, that bracket the epoch's edge; r_k is interpolated between them. -/
def Dev.measureEpoch (d : Dev) (b edge s0 s1 : Nat) (ms : List (Nat × Nat × Bool × Nat × Nat)) : Dev :=
  let k := edge / 8184
  let d := d.setBand b { d.gnBand b with clkStamps := [(8184 * (k + 1), s1), (8184 * k, s0)] }
  let d := { d with gn := { d.gn with epochEdge := some (b, edge), epoch := some (s0 + (s1 - s0) * (edge % 8184) / 8184) } }
  let d := match d.gn.posNext with
    | some p => { d with gn := { d.gn with pos := p, posSet := true, posNext := none } }
    | none => d
  ms.foldl (fun d (c, cn0, used, dl, ra) =>
    if (d.chan c).state = 2 then d.setChan c ((d.chan c).measure d.raw cn0 used dl ra) else d) d

/-- MEASUREMENT_EPOCH (R182, R183, R188): per tracked channel C/N0, whether used, fitted delay and ratio; new navigation data if any; what satellites say of UTC. -/
def execMeasurementEpoch (b : Fin 2) (edge s0 s1 : Nat) (ms : List (Nat × Nat × Bool × Nat × Nat))
    (nav : Option (Nat × List Byte × Bool)) (utc : List (Nat × Nat × Int × Option (Nat × Bool))) (s : State) : Answer :=
  s.run fun d =>
    if !d.gnPowered ∨ !d.flag (bandUpF b) ∨ !d.epochOk b edge then d else
    let d := (d.measureEpoch b edge s0 s1 ms).navTake nav
    let seen := utc ++ d.gn.utcSeen.filter fun x => !utc.any fun y => y.1 == x.1 && y.2.1 == x.2.1
    let d := { d with gn.utcSeen := seen }
    if d.md.coresDown.isSome then d else d.navUtc

/-- SOLUTION_PUBLISH (R183). -/
def execSolutionPublish (q : Option GnSolution) (s : State) : Answer := s.run (·.publishSolution q)

/-- GNSS_SUSPECT_SET (R190). -/
def execGnssSuspectSet (s : State) : Answer := s.run Dev.suspectSet

/-- GNSS_SUSPECT_CLEAR (R191). -/
def execGnssSuspectClear (s : State) : Answer := s.run Dev.suspectClear

/-- SHORT_HOLDOVER_END (R187): GN_HOLD.S has passed without a solution. -/
def execShortHoldoverEnd (s : State) : Answer :=
  s.run fun d =>
    if d.gn.shortSince.any (· + d.get F.GN_HOLD_S * secTicks ≤ d.raw) then
      let d := { d with gn := { d.gn with sol := none, shortSince := none } }
      (d.setFlag F.GN_STATE_SHORT_HOLD false).gnSlotValid false
    else d

/-- SURVEY_COMPLETE (R185): after GN_SURVEY.S the receiver holds the averaged position. -/
def execSurveyComplete (s : State) : Answer :=
  s.run fun d =>
    if d.get F.GN_STATE_SOLN = 2 ∧ d.gn.surveySince.any (· + d.get F.GN_SURVEY_S * secTicks ≤ d.raw) then
      { d with gn := { d.gn with pos := d.gn.surveySum.map fun x : Int => x.tdiv d.gn.surveyN, posSet := true, surveySince := none } }.set F.GN_STATE_SOLN 3
    else d

/-- SET (R185): a survey is abandoned and the written position held at once; while holding, from the next epoch. -/
def execSet (s : State) : Answer := s.run (·.whenUp Dev.setPosition)

/-- SURVEY_RESTART (R185). -/
def execSurveyRestart (s : State) : Answer := s.run (·.whenUp Dev.restartSurvey)

/-- SUSPECT_CLR (R191). -/
def execSuspectClr (s : State) : Answer := s.run (·.whenUp Dev.clearSuspect)

/-- GN_CTRL_ENABLE (R192). -/
def execGnCtrlEnable (want : Bool) (s : State) : Answer :=
  s.run (·.whenUp fun d => d.limitedBit A.GN_CTRL want (·.gnEnable want))

/-- GNSS_TRANSITION_COMPLETE (R192). -/
def execGnssTransitionComplete (s : State) : Answer := s.run Dev.gnComplete

/-- DUTY_WAKE (R193). -/
def execDutyWake (s : State) : Answer := s.run Dev.dutyWake

/-- DUTY_SLEEP (R193). -/
def execDutySleep (s : State) : Answer := s.run Dev.dutySleep

/-- HOT_START_PERIODIC_SAVE (R195): every 60 s while the unit has a solution. -/
def execHotStartPeriodicSave (s : State) : Answer :=
  s.run fun d => if d.gnRunning ∧ d.gn.sol.isSome ∧ d.gn.lastSave + 60 * secTicks ≤ d.raw then d.saveHot else d

/-- SAVE (R195). -/
def execSave (s : State) : Answer := s.run (·.whenUp Dev.saveHot)

/-- ERASE (R195). -/
def execErase (s : State) : Answer := s.run (·.whenUp Dev.eraseHot)

end Sys2Proof.Machine
end

