-- ==== Sys2Proof/Machine/Clocks.lean ====
section
/-! DEFINITION. Oscillator, PLLs, spread spectrum, fractional stages, output PLLs and the switch of served time that they follow (R197 to R214). PLLs: 0 TB, 1 SYS, 2 and 3 OPLL0 and OPLL1, 4 to 7 ENG n, 8 to 11 SerDes n. -/

namespace Sys2Proof.Machine

/-! ## Quality of a scale or of served time at an instant (R124, R145) -/

/-- Scale that stands behind a scale code 0, 1, 2 at an instant. -/
def Dev.codeScale (d : Dev) (code r16 : Nat) : Nat := if code = 2 then d.ts.servedAt r16 else code % 2

/-- Quality record in force of a scale code at an instant. -/
def Dev.qualityOf (d : Dev) (code r16 : Nat) : Quality := (d.scale (d.codeScale code r16)).qualityAt r16

/-- |bridge| of served time at an instant in 2^-72 ns; 0 for Scale A and Scale B. -/
def Dev.bridgeOf (d : Dev) (code r16 : Nat) : Nat :=
  if code = 2 then ((d.ts.switchAt r16).map fun w => (w.bridge r16).natAbs).getD 0 else 0

/-- Error bound of a scale code at an instant in ns, rounded up once (R124, R145); none: unbounded. -/
def Dev.boundOf (d : Dev) (code r16 : Nat) : Option Nat :=
  let q := d.qualityOf code r16
  let den := 1000 * ticks16 secTicks
  q.eq.map fun e =>
    cdiv ((e * 1000 * ticks16 secTicks + q.g * (r16 - ticks16 q.q)) * 2 ^ 72 + d.bridgeOf code r16 * den) (den * 2 ^ 72)

/-! ## PLL banks -/

/-- Base of a PLL bank. -/
def pllBank (p : Nat) : Nat :=
  if p < 4 then A.PLL_STATUS p else if p < 8 then A.DPLL_STATUS (p - 4) 0 else A.DPLL_STATUS (p - 8) 1

def pllF (p hi lo : Nat) : Fld := ⟨pllBank p, hi, lo⟩
def pllLocked (p : Nat) : Fld := pllF p 0 0
def pllCoast (p : Nat) : Fld := pllF p 1 1
def pllLossRef (p : Nat) : Fld := pllF p 2 2
def pllFallback (p : Nat) : Fld := pllF p 4 4
def pllGood (p : Nat) : Fld := pllF p 11 8
def pllUnlocks (p : Nat) : Fld := ⟨pllBank p + 0x10, 15, 0⟩
def pllLockPpm (p : Nat) : Fld := ⟨pllBank p + 4, 9, 0⟩
def pllUnlockPpm (p : Nat) : Fld := ⟨pllBank p + 4, 25, 16⟩

def Dev.pll (d : Dev) (p : Nat) : Pll := (d.cks.plls[p]?).getD {}
def Dev.setPll (d : Dev) (p : Nat) (x : Pll) : Dev := { d with cks.plls := setAt d.cks.plls p x }

/-- Answer die of a PLL, if it stands on one. -/
def pllDie (p : Nat) : Option Nat := if p < 4 then none else some ((p - 4) % 4)

/-- The PLL is powered (R94): once LOAD has its oscillator; in STANDBY with the TB-PLL off neither TB-PLL, until its restart (R93), nor OPLLs (R92, R219); not on a gated die. -/
def Dev.pllOn (d : Dev) (p : Nat) : Bool :=
  match pllDie p with
  | none => d.clk.oscMhz != 0 && (p == 1 || !d.coarse || (p == 0 && d.md.restart.isSome))
  | some n => d.dieSt n != stStopped

/-! ## Spread spectrum (R209) -/

/-- Ticks of a change of mode or depth: 1 ms. -/
abbrev spreadRamp : Nat := 800000

/-- Swing above the nominal frequency, in ppb, that PLL_SSC asks for: the carrier is raised so that the modulation, down or centre, never falls below nominal. -/
def Dev.swingGoal (d : Dev) (p : Nat) : Nat :=
  let w := d.reg (pllBank p + 8)
  let depth := bits 8 4 w * 1000000
  match bits 1 0 w with
  | 1 => depth
  | 2 => 2 * depth
  | _ => 0

/-- Swing at a raw count: a change is ramped in linearly over 1 ms. -/
def Dev.swingAt (d : Dev) (p r : Nat) : Nat :=
  let x := d.pll p
  let goal : Int := d.swingGoal p
  ((x.swingFrom : Int) + (goal - x.swingFrom) * min spreadRamp (r - x.swingAt) / spreadRamp).toNat

/-- Period of the 31.5 kHz triangle in units of which a tick has 63. -/
abbrev trianglePeriod : Nat := 1600000

/-- Place of a raw count in the triangle; where the modulation starts is a free value. -/
def trianglePhase (p r : Nat) : Nat := 63 * r + Config.spreadPhase p

/-- The triangle, in its period's units: 0 at the start, its peak in the middle. -/
def triangle (x : Nat) : Nat :=
  let y := 2 * (x % trianglePeriod)
  if y ≤ trianglePeriod then y else 2 * trianglePeriod - y

/-- Its integral from phase 0, in 1 / trianglePeriod of its units. -/
def triangleSum (x : Nat) : Nat :=
  let t := trianglePeriod
  let y := x % t
  x / t * (t * t / 2) + (if 2 * y ≤ t then y * y else t * t / 2 - (t - y) * (t - y))

/-- Offset of a spread PLL from its nominal frequency in one tick, in ppb. -/
def Dev.spreadNow (d : Dev) (p r : Nat) : Nat := d.swingAt p r * triangle (trianglePhase p r) / trianglePeriod

/-- Counts that the profile adds to n counts of a window of w ticks that ends at the present count; a ramp is taken as it stands there. -/
def Dev.spreadCounts (d : Dev) (p n w : Nat) : Nat :=
  let b := trianglePhase p d.raw
  let a := b - 63 * w
  n * d.swingAt p d.raw * (triangleSum b - triangleSum a) / (trianglePeriod * (63 * w) * 1000000000)

/-- PLL_SSC is about to be written: a ramp starts from the swing that stands. -/
def Dev.spreadRebase (d : Dev) (p : Nat) : Dev :=
  d.setPll p { d.pll p with swingFrom := d.swingAt p d.raw, swingAt := d.raw }

/-- PLL_SSC has been written: SSC_ACTIVE shows modulation, until a ramp to none is over. -/
def Dev.spreadShow (d : Dev) (p : Nat) : Dev := d.setFlag (pllF p 3 3) (d.swingGoal p != 0 || (d.pll p).swingFrom != 0)

/-- The end of a ramp to no modulation. -/
def Dev.spreadEnd (d : Dev) (p : Nat) : Dev :=
  if d.flag (pllF p 3 3) && d.swingGoal p == 0 && decide ((d.pll p).swingAt + spreadRamp ≤ d.raw) then d.setFlag (pllF p 3 3) false else d

/-! ## Lock detection and coasting -/

/-- Effective increment of a scale code at the present instant, bridge included (R211). -/
def Dev.incrOf (d : Dev) (code : Nat) : Nat :=
  let r16 := ticks16 d.raw
  let i := (((d.scale (d.codeScale code r16)).setAt r16).map (·.incr)).getD nominalIncr
  match if code = 2 then d.ts.switchAt r16 else none with
  | some w => if w.bridge r16 = 0 then i else if w.d < 0 then i + w.delta else i - w.delta
  | none => i

/-- Expected count N of one lock window (R199, R200): the table's count for the oscillator fitted, with the offset of the scale that an OPLL follows or the spread profile. -/
def Dev.pllExpect (d : Dev) (p : Nat) : Int :=
  let osc := if d.clk.oscMhz = 0 then 25 else d.clk.oscMhz
  let win := 1024 * 800 / osc
  match p with
  | 0 => (win : Nat)
  | 1 => (1000 * 1024 / osc + d.spreadCounts 1 (1000 * 1024 / osc) win : Nat)
  | 2 | 3 => (1000 * 1024 * d.incrOf (d.get (F.OPLL_CFG_SCALE (p - 2))) / (osc * nominalIncr) : Nat)
  | _ => if p < 8 then (30720 + d.spreadCounts p 30720 16384 : Nat) else 21120

/-- The reference of a PLL runs: the keeper's PLLs stand on the oscillator (R199, R204). -/
def Dev.pllRef (d : Dev) (p : Nat) : Bool := (pllDie p).isSome || d.flag F.OSC_STATUS_PRESENT

/-- One lock window closes with count C and mean control value ctl (R200): the deviation, the run of good windows and the run of bad ones; the control value of a good window is the one that coasting freezes (R202). -/
def Dev.pllWindow (d : Dev) (p count : Nat) (ctl : Int) : Dev :=
  if !d.pllOn p ∨ !d.pllRef p then d else
  let n := d.pllExpect p
  if n ≤ 0 then d else
  let dev := ((count : Int) - n) * 1000000
  let ppm := dev.tdiv n
  let d := d.set ⟨pllBank p + 0xC, 31, 0⟩ (ofSigned 32 ppm)
  let d := d.setFlag (pllLossRef p) false
  let x := d.pll p
  let within (lim : Nat) : Bool := decide (dev.natAbs ≤ lim * n.toNat)
  if within (d.get (pllLockPpm p)) then
    (d.set (pllGood p) (min 8 (d.get (pllGood p) + 1))).setPll p { x with badWin := 0, control := ctl, frozen := ctl }
  else
    (d.set (pllGood p) 0).setPll p { x with badWin := if within (d.get (pllUnlockPpm p)) then 0 else x.badWin + 1, control := ctl }

/-- "PLL lock change" (R202): source 33 for the keeper's PLLs, die source 3 for ENG and SerDes PLLs. -/
def Dev.pllEvent (d : Dev) (p : Nat) : Dev :=
  match pllDie p with
  | none => d.raise 33 (pllBank p) p
  | some n => d.raise (dieSrc n 3) (pllBank p) ((p - 4) / 4)

/-- A TB-PLL unlock: both selectors coast (R203, R143), fault 0x0B (R420). -/
def Dev.tbUnlock (d : Dev) : Dev :=
  ((d.coastStart 0).coastStart 1).faultBegin 0x0B 0xFF 0 (pllBank 0)

/-- Unlock (sticky bit 16) or reference loss (sticky bit 17): the PLL takes its frozen control value and coasts; it reacquires from that value (R201, R202). -/
def Dev.pllToCoast (d : Dev) (p sticky : Nat) : Dev :=
  let fresh := !d.flag (pllCoast p)
  let d := (d.setFlag (pllCoast p) true).setFlag (pllLocked p) false
  let d := (d.set (pllGood p) 0).setPll p { d.pll p with badWin := 0, control := (d.pll p).frozen }
  let d := (d.countSat (pllUnlocks p)).stick (pllBank p) sticky
  let d := if sticky = 17 then d.setFlag (pllLossRef p) true else d
  let d := if p = 0 ∧ fresh then d.tbUnlock else d
  d.pllEvent p

/-- Unlock is declared after 2 consecutive windows beyond UNLOCK_PPM (R200). -/
def Dev.unlockDue (d : Dev) (p : Nat) : Bool := d.pllOn p && d.flag (pllLocked p) && decide ((d.pll p).badWin ≥ 2)

/-- A locked ENG-PLL in fallback: the return epoch, 32,768 ticks ahead (R207). -/
def Dev.fbReturn (d : Dev) (n : Nat) : Dev :=
  if d.flag (pllFallback (4 + n)) then d.set64 (A.ENG_FB_EPOCH n) (d.raw + 32768) else d

/-- LOAD step 4 (R86): with the TB-PLL locked the raw counter starts at 0 and both scales start in FREE_RUN. -/
def Dev.startRaw (d : Dev) : Dev :=
  if d.md.load ≠ 2 ∨ d.clk.running then d
  else { d with clk.raw := 0, clk.running := true, clk.frac := 0, ts.a := Scale.atLoad, ts.b := Scale.atLoad }

/-- Lock is declared after 8 consecutive good windows (R200, R202). -/
def Dev.pllLock (d : Dev) (p : Nat) : Dev :=
  if d.get (pllGood p) < 8 ∨ d.flag (pllLocked p) then d else
  let coasting := d.flag (pllCoast p)
  let d := ((d.setFlag (pllLocked p) true).setFlag (pllCoast p) false).setFlag (pllLossRef p) false
  let d := if p = 0 ∧ coasting then ((d.faultEnd 0x0B 0xFF 0).coastEnd 0).coastEnd 1 else d
  let d := if 4 ≤ p ∧ p < 8 then d.fbReturn (p - 4) else d
  let d := if p = 0 then d.startRaw else d
  d.pllEvent p

/-! ## Oscillator (R197, R198, R204) -/

/-- The frequency offset of a stage at a raw count: toward its target by 0.1 ppm per ms, in steps of 100 ppt, one per µs; frozen while it coasts. -/
def Dev.fracAt (d : Dev) (n r : Nat) : Int :=
  let x := (d.cks.fracs[n]?).getD {}
  if d.flag (F.FRAC_STATUS_COAST n) then x.start else
  let m : Int := (100 * 65536 * ((r - x.since) / usTicks) : Nat)
  if x.target ≥ x.start then min x.target (x.start + m) else max x.target (x.start - m)

/-- The offset a stage is to have (R210): INCR_BASE and FREQ_ADJ term of the set in force of the followed scale, in 2^-16 ppt. -/
def Dev.fracGoal (d : Dev) (n : Nat) : Int :=
  match d.get (F.FRAC_CTRL_FOLLOW n) with
  | 0 => 0
  | f =>
    let k := d.codeScale (f - 1) (ticks16 d.raw)
    (((d.scale k).incr0At d.raw : Int) - nominalIncr) * (10 ^ 12 * 65536) / nominalIncr

/-- Stores a stage's present offset and starts or ends its ramp. -/
def Dev.fracTarget (d : Dev) (n : Nat) : Dev :=
  let now := d.fracAt n d.raw
  let goal := d.fracGoal n
  let d := { d with cks.fracs := setAt d.cks.fracs n { target := goal, start := now, since := d.raw } }
  (d.set (F.FRAC_FREQ_FREQ n) (ofSigned 32 now)).setFlag (F.FRAC_STATUS_RAMPING n) (now != goal)

/-- The ratio takes a step of its ramp in a tick that began at raw count r0; answers whether it did. -/
def Dev.fracStep (d : Dev) (n r0 : Nat) : Dev × Bool :=
  let t := ((d.cks.fracs[n]?).getD {}).since
  if d.flag (F.FRAC_STATUS_RAMPING n) && !d.flag (F.FRAC_STATUS_COAST n) && (d.raw - t) / usTicks != (r0 - t) / usTicks then
    (d.set (F.FRAC_FREQ_FREQ n) (ofSigned 32 (d.fracAt n d.raw)), true)
  else (d, false)

/-- The ratio has reached its target. -/
def Dev.rampDone (d : Dev) (n : Nat) : Dev :=
  let now := d.fracAt n d.raw
  let d := d.set (F.FRAC_FREQ_FREQ n) (ofSigned 32 now)
  if ((d.cks.fracs[n]?).map (·.target)) = some now then d.setFlag (F.FRAC_STATUS_RAMPING n) false else d

/-- The oscillator stops (R198, R204): the AON clock on the RC oscillator, TB-PLL, SYS-PLL, OPLLs and fractional stages coast, fault 0x0C. -/
def Dev.oscLoss (d : Dev) : Dev :=
  if !d.flag F.OSC_STATUS_PRESENT then d else
  let d := ((d.setFlag F.OSC_STATUS_PRESENT false).setFlag F.OSC_STATUS_AON_RC true).setFlag F.OSC_STATUS_LOSS true
  let d := d.faultBegin 0x0C 0xFF 0 A.OSC_STATUS
  let d := [0, 1, 2, 3].foldl (fun d p => if d.pllOn p then d.pllToCoast p 17 else d) d
  let d := (List.range 4).foldl (fun d n =>
    let now := d.fracAt n d.raw
    let x := (d.cks.fracs[n]?).getD {}
    ({ d with cks.fracs := setAt d.cks.fracs n { x with start := now, since := d.raw } }).setFlag (F.FRAC_STATUS_COAST n) true) d
  d.raiseLevel 32 A.OSC_STATUS

/-- A valid oscillator has been back for 1 ms (R198). -/
def Dev.oscReturn (d : Dev) : Dev :=
  if d.flag F.OSC_STATUS_PRESENT ∨ !d.flag F.OSC_STATUS_AON_RC then d else
  let d := ((d.setFlag F.OSC_STATUS_PRESENT true).setFlag F.OSC_STATUS_AON_RC false).faultEnd 0x0C 0xFF 0
  (List.range 4).foldl (fun d n =>
    let x := (d.cks.fracs[n]?).getD {}
    let d := d.setFlag (F.FRAC_STATUS_COAST n) false
    ({ d with cks.fracs := setAt d.cks.fracs n { x with since := d.raw } } : Dev).fracTarget n) d

/-! ## ENG-PLL fallback (R205 to R207) -/

/-- A fast-check window beyond ±500 ppm (R205): the die falls back, or, already in fallback, its return epoch is withdrawn (R207). -/
def Dev.fastCheck (d : Dev) (n : Nat) (ppm : Int) : Dev :=
  if !d.pllOn (4 + n) ∨ ppm.natAbs ≤ 500 then d else
  let p := 4 + n
  let first := !d.flag (pllFallback p)
  let d := ((d.setFlag (pllFallback p) true).stick (pllBank p) 18).set64 (A.ENG_FB_EPOCH n) 0
  let d := (d.setFlag (pllLocked p) false).set (pllGood p) 0
  let d := d.setPll p { d.pll p with badWin := 0 }
  let d := if first then
      let d := { d with dies := modAt d.dies n fun x => { x with fbAt := some (ticks16 d.raw) } }
      d.faultBegin 0x03 n 0 (pllBank p)
    else d
  d.raise (dieSrc n 2) (pllBank p)

/-- The return epoch is reached (R207): requests stamped before it stay with the FALLBACK table. -/
def Dev.fallbackReturn (d : Dev) (n : Nat) : Dev :=
  let e := d.get64 (A.ENG_FB_EPOCH n)
  if !d.flag (pllFallback (4 + n)) ∨ e = 0 ∨ d.raw < e then d else
  let d := (d.setFlag (pllFallback (4 + n)) false).set64 (A.ENG_FB_EPOCH n) 0
  ({ d with dies := modAt d.dies n fun x =>
      { x with fbAt := none, fbPast := (x.fbAt.toList.map fun b => (b, ticks16 e)) ++ x.fbPast.take 3 } } : Dev).faultEnd 0x03 n 0

/-! ## Output PLLs (R211 to R214) -/

def Dev.opll (d : Dev) (k : Nat) : Opll := (d.cks.oplls[k]?).getD {}
def Dev.setOpll (d : Dev) (k : Nat) (x : Opll) : Dev := { d with cks.oplls := setAt d.cks.oplls k x }

/-- Phase moved since the mover's reference point: 1 ps per OPLL cycle of 1 ns. -/
def Opll.moved (x : Opll) (r : Nat) : Nat := min x.remain0.natAbs ((r - x.since) * 5 / 4)

/-- Remainder at a raw count. -/
def Opll.remainAt (x : Opll) (r : Nat) : Int :=
  if x.remain0 < 0 then x.remain0 + x.moved r else x.remain0 - x.moved r

/-- PHASE_OFS applied at a raw count: the mover takes it to its target first. -/
def Opll.ofsAt (x : Opll) (r : Nat) : Int :=
  let gap := x.target - x.ofs0
  if gap > 0 ∧ x.remain0 > 0 then x.ofs0 + min gap (x.moved r)
  else if gap < 0 ∧ x.remain0 < 0 then x.ofs0 + max gap (-(x.moved r : Int))
  else x.target

/-- By how much edges lie after their nominal time on the source (R211, R213), in ps: PHASE_OFS and what is left of a catch-up. -/
def Opll.lag (x : Opll) (r : Nat) : Int := x.target - x.remainAt r

/-- Moves the reference point to a raw count. -/
def Opll.rebase (x : Opll) (r : Nat) : Opll := { x with ofs0 := x.ofsAt r, remain0 := x.remainAt r, since := r }

def Opll.queuedSum (x : Opll) : Int := x.queued.foldl (fun a q => a + q.2) 0

/-- Source scale code of an output PLL (3 is reserved and never stored). -/
def Dev.opllCode (d : Dev) (k : Nat) : Nat := d.get (F.OPLL_CFG_SCALE k)

/-- Shows OFS, REMAIN, ALIGNED and SCALE_UNSET as they stand now. -/
def Dev.showOpll (d : Dev) (k : Nat) : Dev :=
  let x := d.opll k
  let rem := x.remainAt d.raw + x.queuedSum
  let d := d.set (F.OPLL_OFS_OFS k) (ofSigned 32 (x.ofsAt d.raw))
  let d := d.set64 (A.OPLL_REMAIN k) (ofSigned 64 rem)
  let d := d.setFlag (F.OPLL_STATUS_ALIGNED k) (rem == 0)
  d.setFlag (F.OPLL_STATUS_SCALE_UNSET k)
    (!d.flag (F.SC_STATUS_INIT (d.codeScale (d.opllCode k) (ticks16 d.raw))))

/-- A write of OPLL_PSTEP that the arming let through (R212): the privilege, then the range of the target. -/
def Dev.opllStep (d : Dev) (k : Nat) (v : Int) : Dev :=
  if !d.priv (2 + k) then d.stick A.CK_STATUS 1 else
  let x := d.opll k
  if (x.target + x.queuedSum + v).natAbs > 1000000000 then d.set (F.OPLL_STATUS_LAST_CODE k) 1
  else
    let d := d.setOpll k { x with queued := x.queued ++ [(d.raw + leadTicks, v)] }
    (d.set (F.OPLL_STATUS_LAST_CODE k) 0).showOpll k

/-- The mover starts on the oldest accepted step, 16,384 ticks after its acceptance (R212). -/
def Dev.moveStart (d : Dev) (k : Nat) : Dev :=
  match (d.opll k).queued with
  | [] => d
  | (t, v) :: q =>
    if d.raw < t then d else
    let x := (d.opll k).rebase d.raw
    ((d.setOpll k { x with target := x.target + v, remain0 := x.remain0 + v, queued := q }).setFlag
      (F.OPLL_STATUS_MOVING k) true).showOpll k

/-- A move has ended (R212): DONE and "Output phase move complete". -/
def Dev.moveDone (d : Dev) (k : Nat) : Dev :=
  if !d.flag (F.OPLL_STATUS_MOVING k) ∨ (d.opll k).remainAt d.raw ≠ 0 then d else
  let d := d.setOpll k ((d.opll k).rebase d.raw)
  let d := ((d.setFlag (F.OPLL_STATUS_MOVING k) false).setFlag (F.OPLL_STATUS_DONE k) true).showOpll k
  d.raise 34 (A.OPLL_STATUS k) k

/-- The source scale of output PLL k steps by an amount in 2^-72 ns (R213): realign for the initial setting or STEP_MODE 1, else catch-up. A step of +x leaves −x ps of edge position to move; while outputs wait for a realign, x keeps the old timing of the pulse in progress. -/
def Dev.opllScaleStep (d : Dev) (k : Nat) (step : Int) (init : Bool) : Dev :=
  let ps := (step * 1000).tdiv (2 ^ 72 : Nat)
  let x := (d.opll k).rebase d.raw
  let wait := d.flag (F.OPLL_STATUS_REALIGN_WAIT k)
  if init ∨ d.flag (F.OPLL_CFG_STEP_MODE k) ∨ wait then
    let d := d.setOpll k { x with resumeFrom := d.raw + msTicks, held := (if wait then x.held else 0) + ps }
    (d.setFlag (F.OPLL_STATUS_REALIGN_WAIT k) true).showOpll k
  else
    ((d.setOpll k { x with remain0 := x.remain0 - ps }).setFlag (F.OPLL_STATUS_MOVING k) true).showOpll k

/-- The first whole second of the source, by its sets as they stand, from a tick on. -/
def Dev.opllSecond (d : Dev) (k r0 : Nat) : Nat := d.codeSecond (d.opllCode k) r0

/-- Held outputs resume aligned (R213) at the first whole second of the stepped scale at least 1 ms after the step: nothing of an earlier catch-up is left, a phase step goes on. -/
def Dev.realign (d : Dev) (k : Nat) : Dev :=
  if d.flag (F.OPLL_STATUS_REALIGN_WAIT k) ∧ d.opllSecond k (d.opll k).resumeFrom ≤ d.raw then
    let x := (d.opll k).rebase d.raw
    ((d.setOpll k { x with remain0 := x.target - x.ofs0, held := 0 }).setFlag (F.OPLL_STATUS_REALIGN_WAIT k) false).showOpll k
  else d

/-- What a set that came into force means for the fractional stages and the output PLLs; old: the scale before. -/
def Dev.clocksFollow (d : Dev) (k : Nat) (old : Scale) : Dev :=
  let d := (List.range 4).foldl (fun d n =>
    let f := d.get (F.FRAC_CTRL_FOLLOW n)
    if f ≠ 0 ∧ d.codeScale (f - 1) (ticks16 d.raw) = k then d.fracTarget n else d) d
  match (d.scale k).journal with
  | p :: q :: _ =>
    if old.journal.head? = some p ∨ !bit p.cause 4 && !bit p.cause 5 then d else
    let step := p.ofs - q.eval (ticks16 p.epoch)
    [0, 1].foldl (fun d i =>
      if d.codeScale (d.opllCode i) (ticks16 d.raw) = k then d.opllScaleStep i step (bit p.cause 5) else d) d
  | _ => d

/-- At S served time switches (R121, R122): the stages that follow served time take the offset of the scale now served (R210). -/
def Dev.servedSwitch (d : Dev) : Dev :=
  let d' := d.castleSwitch
  if d.ts.castle.isNone ∨ d'.ts.castle.isSome then d' else
  (List.range 4).foldl (fun d n => if d.get (F.FRAC_CTRL_FOLLOW n) = 3 then d.fracTarget n else d) d'

/-! ## Commands -/

/-- OSCILLATOR_LOSS (R198, R204). -/
def execOscillatorLoss (s : State) : Answer := s.run Dev.oscLoss

/-- OSCILLATOR_RETURN (R198). -/
def execOscillatorReturn (s : State) : Answer := s.run Dev.oscReturn

/-- PLL_WINDOW (R200): count is C, ctl the mean control value over the window. -/
def execPllWindow (p : Fin 12) (count : Nat) (ctl : Int) (s : State) : Answer := s.run (·.pllWindow p count ctl)

/-- PLL_LOCK_DECLARED (R200, R202, R203, R207). -/
def execPllLockDeclared (p : Fin 12) (s : State) : Answer := s.run (·.pllLock p)

/-- PHASE_MOVE_START (R212). -/
def execPhaseMoveStart (k : Fin 2) (s : State) : Answer := s.run (·.moveStart k)

/-- PHASE_MOVE_COMPLETE (R212). -/
def execPhaseMoveComplete (k : Fin 2) (s : State) : Answer := s.run (·.moveDone k)

/-- REALIGN_RESUME (R213). -/
def execRealignResume (k : Fin 2) (s : State) : Answer := s.run (·.realign k)

/-- CASTLING_SWITCH (R121). -/
def execCastlingSwitch (s : State) : Answer := s.run Dev.servedSwitch

end Sys2Proof.Machine
end

