-- ==== Sys2Proof/Machine/Pins.lean ====
section
/-! DEFINITION. Timing outputs at their balls: edges of PPS, PPX and 10 MHz, start-up and shutdown, staged settings, coarse outputs, IRIG-B frames (R211, R213, R215 to R223). -/

namespace Sys2Proof.Machine

def Dev.tout (d : Dev) (n : Nat) : TOut := (d.cks.outs[n]?).getD {}
def Dev.setTout (d : Dev) (n : Nat) (x : TOut) : Dev := { d with cks.outs := setAt d.cks.outs n x }

/-- Output PLL of an output. -/
def Dev.outPll (d : Dev) (n : Nat) : Nat := d.get (F.OUT_CFG_SRC n)

/-- Scale code behind an output. -/
def Dev.outCode (d : Dev) (n : Nat) : Nat := d.opllCode (d.outPll n)

def Dev.outSt (d : Dev) (n : Nat) : Nat := d.get (F.OUT_CTRL_STATE n)

/-- First tick from r0 on at which the source of an output is at or past a whole second, by its sets as they stand. -/
def Dev.outSecond (d : Dev) (n r0 : Nat) : Nat := d.codeSecond (d.outCode n) r0

/-- The number of that second. -/
def Dev.outSecondNo (d : Dev) (n r0 : Nat) : Int :=
  ((d.ts.time72 (d.outCode n) (ticks16 (d.outSecond n r0))).getD 0) / sec72

/-! ## Settings (R218) -/

/-- The stageable settings: OUT_CFG (for TYPE and POL), OUT_WIDTH, OUT_FREQ, OUT_IRIG, OUT_IRIG_CF. -/
def outRegs (n : Nat) : List Nat := [A.OUT_CFG n, A.OUT_WIDTH n, A.OUT_FREQ n, A.OUT_IRIG n, A.OUT_IRIG_CF n]

/-- The settings in force until staged ones take effect. -/
def Dev.outLive (d : Dev) (n : Nat) : List Word :=
  match (d.tout n).live with
  | some l => l
  | none => (outRegs n).map d.reg

/-- The settings by which the edges of a second are formed. -/
def Dev.outSettings (d : Dev) (n : Nat) (s : Int) : List Word :=
  if (d.tout n).live.isSome ∧ s < d.outSecondNo n (d.tout n).stagedFrom then d.outLive n else (outRegs n).map d.reg

/-- A setting of a running output is about to be written: the values in force are kept until the first whole second at least 1 ms later. -/
def Dev.outStage (d : Dev) (n : Nat) : Dev :=
  if d.outSt n ≠ stRunning then d else
  (d.setTout n { d.tout n with live := some (d.outLive n), stagedFrom := d.raw + msTicks }).setFlag (F.OUT_STATUS_STAGED n) true

/-- Staged settings take effect together. -/
def Dev.stagedApply (d : Dev) (n : Nat) : Dev :=
  if (d.tout n).live.isSome ∧ d.outSecond n (d.tout n).stagedFrom ≤ d.raw then
    (d.setTout n { d.tout n with live := none }).setFlag (F.OUT_STATUS_STAGED n) false
  else d

/-! ## Edges (R211, R215) -/

/-- Picoseconds in 2^-72 ns. -/
def psTo72 (ps : Int) : Int := ps * (2 ^ 72 : Nat) / 1000

/-- The time that an output reads at a raw count in 2^-72 ns, so that an edge leaves where it reads the edge's nominal time (R211); held: on the timing before the step that it waits out (R213). -/
def Dev.outTime (d : Dev) (n r : Nat) (held : Bool) : Int :=
  let x := d.opll (d.outPll n)
  let ps := x.lag r - toSigned 32 (d.get (F.OUT_DELAY_PS n)) + (if held then x.held else 0)
  ((d.ts.time72 (d.outCode n) (ticks16 r)).getD 0) - psTo72 ps

/-- Second of an output's time, and picoseconds within it. -/
def secondOf (u : Int) : Int := u / sec72
def psOf (u : Int) : Nat := (u % sec72).toNat * 1000 / 2 ^ 72

/-- Picoseconds of one second. -/
abbrev psSecond : Nat := 1000000000000

/-- What a signal does p ps after a whole second: whether it is active, and the place of the edge that made it so. -/
def outLevel (w : List Word) (frame : Option (List Nat)) (p : Nat) : Bool × Nat :=
  let reg (i : Nat) : Word := (w[i]?).getD 0
  match bits 1 0 (reg 0) with
  | 0 =>
    let width := bits 18 0 (reg 1) * 1000000
    if p < width then (true, 0) else (false, width)
  | 1 =>
    let f := bits 23 0 (reg 2)
    if f = 0 then (false, 0) else
    let k := ((p + 1) * f - 1) / psSecond
    let off := (2 * k + 1) * psSecond / (2 * f)
    if p < off then (true, k * psSecond / f) else (false, off)
  | 2 =>
    let a := p / 100000 * 100000
    if p < a + 50000 then (true, a) else (false, a + 50000)
  | _ =>
    let cell := p / 10000000000
    let a := cell * 10000000000
    match frame.bind (·[cell]?) with
    | none => (false, 0)
    | some v =>
      let width := (if v = 0 then 2 else if v = 1 then 5 else 8) * 1000000000
      if p < a + width then (true, a) else (false, a + width)

/-- Edges of a second may leave: the output is in service for it (R217). -/
def Dev.outServes (d : Dev) (n : Nat) (s : Int) : Bool :=
  match d.outSt n with
  | 0 => true
  | 3 => decide (d.outSecondNo n (d.tout n).transFrom ≤ s)
  | 1 => decide (s < d.outSecondNo n (d.tout n).transFrom)
  | _ => false

/-- An output waits for its realign (R213) at a second of the stepped scale. -/
def Dev.outHeld (d : Dev) (n : Nat) (s : Int) : Bool :=
  let k := d.outPll n
  d.flag (F.OPLL_STATUS_REALIGN_WAIT k) && decide (s < ((d.ts.time72 (d.opllCode k) (ticks16 (d.opllSecond k (d.opll k).resumeFrom))).getD 0) / sec72)

/-- Inactive level. -/
def outIdle (w : List Word) : Bool := bit ((w[0]?).getD 0).toNat 6

/-- The level that an output shows at the present count, none high impedance, and the time in 2^-72 ns by its own reading at which it came about. While it waits for a realign it only ends the pulse in progress; coarse, PPX and 10 MHz hold low (R219). -/
def Dev.outShows (d : Dev) (n : Nat) : Option Bool × Int × Int :=
  let cfg := [d.reg (A.OUT_CFG n)]
  let u := d.outTime n d.raw false
  if d.outSt n = stStopped then (if bit (d.reg (A.OUT_CFG n)).toNat 7 then none else some (outIdle cfg), u, u) else
  let held := d.outHeld n (secondOf u)
  let u := if held then d.outTime n d.raw true else u
  let s := secondOf u
  let w := d.outSettings n s
  let ty := bits 1 0 ((w[0]?).getD 0)
  let idle := outIdle w
  if d.flag (F.OUT_STATUS_COARSE n) ∧ (ty = 1 ∨ ty = 2) then (some false, u, u) else
  let (act, at') := outLevel w (((d.tout n).frame.filter (·.1 = s)).map (·.2)) (psOf u)
  let was := (d.tout n).pin == some (!idle)
  let act := act && d.outServes n s && (!held || was)
  (some (act != idle), u, s * sec72 + psTo72 at')

/-- The instant of an edge in 2^-16 tick: where the output's time read at'; coarse, truncated down to a multiple of 80 ticks (R219). -/
def Dev.edgeInstant (d : Dev) (n : Nat) (u at' : Int) : Int :=
  let incr : Int := d.incrOf (d.outCode n)
  let x := (ticks16 d.raw : Int) - (if incr ≤ 0 then 0 else max 0 (u - at') / incr)
  if d.flag (F.OUT_STATUS_COARSE n) then x / (80 * 65536) * (80 * 65536) else x

/-- The ball of an output follows what the output shows. -/
def Dev.showPin (d : Dev) (n : Nat) : Dev :=
  let (level, u, at') := d.outShows n
  if level = (d.tout n).pin then d
  else (d.setTout n { d.tout n with pin := level }).emit (.pin n level (d.edgeInstant n u at'))

/-- An output turns coarse, or fine again with its output PLL locked, at a whole second of its source that the last tick reached; r0: the count before that tick (R95, R219). -/
def Dev.outGrain (d : Dev) (n r0 : Nat) : Dev :=
  if d.flag (F.OUT_STATUS_COARSE n) == d.coarse then d
  else if !d.coarse ∧ !d.flag (pllLocked (2 + d.outPll n)) then d
  else if d.outSecond n (r0 + 1) ≤ d.raw then d.setFlag (F.OUT_STATUS_COARSE n) d.coarse else d

/-! ## Start-up and shutdown (R217) -/

/-- A transition into a state begins: start-up completes at a whole second at least 1 ms later, shutdown at one at or after the request. -/
def Dev.outTrans (d : Dev) (n st : Nat) : Dev :=
  (d.setTout n { d.tout n with transFrom := if st = stStarting then d.raw + msTicks else d.raw }).set (F.OUT_CTRL_STATE n) st

/-- A write of OUT_CTRL.ENABLE. -/
def Dev.outEnable (d : Dev) (n : Nat) (want : Bool) : Dev :=
  let st := d.outSt n
  let r := enableReq st want
  let d := (d.setFlag (F.OUT_CTRL_ENABLE n) want).setFlag (F.OUT_CTRL_LATCHED n) r.latched
  if r.act = .nothing then d else d.outTrans n (r.act.state st)

/-- A transition completes at its whole second; a latched request is then acted on (R48). -/
def Dev.outComplete (d : Dev) (n : Nat) : Dev :=
  let st := d.outSt n
  if (st ≠ stStarting ∧ st ≠ stStopping) ∨ d.raw < d.outSecond n (d.tout n).transFrom then d else
  let again := d.flag (F.OUT_CTRL_LATCHED n)
  let d := d.setFlag (F.OUT_CTRL_LATCHED n) false
  if st = stStarting then
    let d := d.set (F.OUT_CTRL_STATE n) stRunning
    if again then d.outTrans n stStopping else d
  else
    let d := (d.setTout n { d.tout n with live := none, frame := none }).setFlag (F.OUT_STATUS_STAGED n) false
    let d := (d.set (F.OUT_CTRL_STATE n) stStopped).showPin n
    if again then d.outTrans n stStarting else d

/-! ## IRIG-B (R220 to R223) -/

/-- Year and day of year (from 1) of a day number since 1970-01-01. -/
def yearDay (days : Int) : Int × Int :=
  let leaps (y : Int) : Int := (y - 1) / 4 - (y - 1) / 100 + (y - 1) / 400
  let start (y : Int) : Int := 365 * (y - 1970) + leaps y - leaps 1970
  let y0 := 1970 + days / 366
  let y := (List.range 64).foldl (fun y _ => if start (y + 1) ≤ days then y + 1 else y) y0
  (y, days - start y + 1)

/-- Time quality code (R223). -/
def timeQuality (state : Nat) (e : Option Nat) : Nat :=
  if state = 2 then 0 else if state = 0 then 15 else
  match e with
  | none => 15
  | some e => match (List.range 11).find? fun k => e < 10 ^ k with
    | some k => k + 1
    | none => 15

/-- Continuous time quality code (R223). -/
def contQuality (e : Option Nat) : Nat :=
  match e with
  | none => 7
  | some e => match (List.range 6).find? fun k => e < 10 ^ (k + 2) with
    | some k => k + 1
    | none => 7

/-- Sets cells from a list (cell, value 0 or 1). -/
def bcdBits (cells : List Nat) (v : Nat) : List (Nat × Nat) :=
  cells.zipIdx.map fun (c, i) => (c, boolNat (bit v i))

/-- Values of the cells of a frame before parity: what R220 and R221 put into each. -/
def irigCells (code : Nat) (ext tai dsp dst : Bool) (localHalf : Int) (cf tq ctq : Nat)
    (sec min hour day year sod : Nat) (lsp omitted : Bool) : List (Nat × Nat) :=
  let toy := bcdBits [1, 2, 3, 4] (sec % 10) ++ bcdBits [6, 7, 8] (sec / 10)
    ++ bcdBits [10, 11, 12, 13] (min % 10) ++ bcdBits [15, 16, 17] (min / 10)
    ++ bcdBits [20, 21, 22, 23] (hour % 10) ++ bcdBits [25, 26] (hour / 10)
    ++ bcdBits [30, 31, 32, 33] (day % 10) ++ bcdBits [35, 36, 37, 38] (day / 10 % 10) ++ bcdBits [40, 41] (day / 100)
  let yr := if code ≥ 4 then bcdBits [50, 51, 52, 53] (year % 10) ++ bcdBits [55, 56, 57, 58] (year / 10 % 10)
    else if code < 2 then bcdBits [50, 51, 52, 53] (cf % 16) ++ bcdBits [55, 56, 57, 58] (cf / 32 % 16) else []
  let h := localHalf.natAbs
  let mid := if ext then
      [(60, boolNat (lsp && !tai)), (61, boolNat (lsp && !tai && omitted)), (62, boolNat dsp), (63, boolNat dst),
       (64, boolNat (localHalf < 0))] ++ bcdBits [65, 66, 67, 68] (h / 2) ++ [(70, h % 2)]
        ++ bcdBits [71, 72, 73, 74] tq ++ bcdBits [76, 77, 78] ctq
    else if code % 4 < 2 then
      bcdBits [60, 61, 62, 63, 64, 65, 66, 67, 68] (cf / 512) ++ bcdBits [70, 71, 72, 73, 74, 75, 76, 77, 78] (cf / 262144)
    else []
  let sbs := if code % 4 = 0 ∨ code % 4 = 3 then
      bcdBits [80, 81, 82, 83, 84, 85, 86, 87, 88] sod ++ bcdBits [90, 91, 92, 93, 94, 95, 96, 97] (sod / 512)
    else []
  toy ++ yr ++ mid ++ sbs

/-- The 100 cells: markers 2, parity in cell 75 with the extension. -/
def irigFrame (ext : Bool) (cells : List (Nat × Nat)) : List Nat :=
  let val (c : Nat) : Nat := ((cells.find? (·.1 = c)).map (·.2)).getD 0
  let parity := ((List.range 75).foldl (fun a c => a + val c) 0) % 2
  (List.range 100).map fun c =>
    if c = 0 ∨ c % 10 = 9 then 2 else if ext ∧ c = 75 then parity else val c

/-- Ticks that the raw counter advances at once: one, or an oscillator cycle with the TB-PLL off (R92). -/
def Dev.tickStep (d : Dev) : Nat := if d.coarse then 800 / d.clk.oscMhz else 1

/-- One IRIG-B frame (R220 to R223): formed once, within two ticks of the whole second it encodes, for an output in service; TQ and CTQ are sent, and shown, with the extension only. -/
def Dev.irigSend (d : Dev) (n : Nat) : Dev :=
  let u := d.outTime n d.raw false
  let s := secondOf u
  let live := d.outSettings n s
  let w (i : Nat) : Word := (live[i]?).getD 0
  let code := d.outCode n
  let onTime := decide (u % sec72 < (2 * d.tickStep * 65536 * d.incrOf code : Nat))
  if bits 1 0 (w 0) ≠ 3 ∨ !onTime ∨ !d.outServes n s ∨ d.outHeld n s ∨ (d.tout n).frame.any (·.1 = s) then d else
  let r16 := (d.edgeInstant n u (s * sec72)).toNat
  let irig := w 3
  let tai := bit irig.toNat 4
  let half := toSigned 7 (bits 14 8 irig)
  let leap := d.ts.leaps.find? fun l => s < (l.sec : Int)
  let inserted := !tai && d.ts.leaps.any fun l => decide ((l.sec : Int) = s ∧ l.offset > d.offsetBefore l.sec)
  let v := (if tai then s else s - utcOffset d.ts.leaps d.utcBase (s * sec16)) + half * 1800
  let sod := (v % 86400).toNat
  let (year, day) := yearDay (v / 86400)
  let lsp := leap.any fun l => decide ((l.sec : Int) - 59 ≤ s)
  let omitted := leap.any fun l => decide (l.offset < d.offsetBefore l.sec)
  let e := d.boundOf code r16
  let tq := timeQuality (d.qualityOf code r16).state e
  let ctq := contQuality e
  let ext := bit irig.toNat 3
  let cells := irigCells (bits 2 0 irig) ext tai (bit irig.toNat 16) (bit irig.toNat 17) half (bits 26 0 (w 4)) tq ctq
    (sod % 60 + boolNat inserted) (sod / 60 % 60) (sod / 3600) day.toNat (year % 100).toNat (sod + boolNat inserted) lsp omitted
  let d := if ext then (d.set (F.OUT_STATUS_TQ n) tq).set (F.OUT_STATUS_CTQ n) ctq else d
  ((d.setTout n { d.tout n with frame := some (s, irigFrame ext cells) }).emit (.irig n s.toNat (irigFrame ext cells))).showPin n

/-! ## Commands -/

/-- OUT_CTRL_ENABLE (R217). -/
def execOutCtrlEnable (n : Fin 4) (want : Bool) (s : State) : Answer :=
  s.run (·.whenUp fun d => d.limitedBit (A.OUT_CTRL n) want (·.outEnable n want))

/-- OUTPUT_TRANSITION_COMPLETE (R217). -/
def execOutputTransitionComplete (n : Fin 4) (s : State) : Answer := s.run (·.outComplete n)

/-- STAGED_APPLY (R218). -/
def execStagedApply (n : Fin 4) (s : State) : Answer := s.run (·.stagedApply n)

/-- IRIG_B_FRAME (R220). -/
def execIrigBFrame (n : Fin 4) (s : State) : Answer := s.run (·.irigSend n)

end Sys2Proof.Machine
end

