-- ==== Sys2Proof/Machine/Calendar.lean ====
section
/-! DEFINITION. The reference plane, the granule grid and the launch calendar of a link (R232 to R241, R266 to R272). -/

namespace Sys2Proof.Machine

def Dev.die (d : Dev) (n : Nat) : Die := (d.dies[n]?).getD {}
def Dev.setDie (d : Dev) (n : Nat) (x : Die) : Dev := { d with dies := setAt d.dies n x }
def Dev.lnk (d : Dev) (n l : Nat) : Lnk := ((d.die n).links[l]?).getD {}
def Dev.setLnk (d : Dev) (n l : Nat) (x : Lnk) : Dev :=
  d.setDie n { d.die n with links := setAt (d.die n).links l x }

/-- Device link number (R224). -/
def devLink (n l : Nat) : Nat := 4 * n + l

/-! ## Link modes (R234) -/

/-- Link modes of LINK_CFG: 0 100G, 1 25G, 2 10G, 3 1000BASE-X, 4 SGMII. -/
def Dev.linkMode (d : Dev) (n l : Nat) : Nat := d.get (F.LINK_CFG_MODE n l)
def Dev.linkFec (d : Dev) (n l : Nat) : Bool := d.flag (F.LINK_CFG_FEC n l)

/-- Granule length in 1/125 tick (R234: 0.64, 2.56, 6.4, 8 ns). -/
def granule125 (mode : Nat) : Nat := match mode with | 0 => 64 | 1 => 256 | 2 => 640 | _ => 800

/-- Byte time in 1/125 tick. -/
def byte125 (mode : Nat) : Nat := match mode with | 0 => 8 | 1 => 32 | 2 => 80 | _ => 800

/-- RX_LAT and TX_LAT in ns (R234). -/
def latencies (mode : Nat) (fec : Bool) : Nat × Nat :=
  match mode, fec with
  | 0, true => (104, 62)
  | 0, false => (46, 34)
  | 1, true => (232, 38)
  | 1, false => (18, 14)
  | 2, _ => (36, 28)
  | _, _ => (168, 112)

/-- Alignment markers: granules at the start of each period (R234). -/
def markers (mode : Nat) (fec : Bool) : Option (Nat × Nat) :=
  match mode, fec with
  | 0, _ => some (20, 327680)
  | 1, true => some (4, 81920)
  | _, _ => none

/-- D_RX and D_TX in 2^-16 ns (R235, R236). -/
def Dev.dRx (d : Dev) (n l : Nat) : Int :=
  ((latencies (d.linkMode n l) (d.linkFec n l)).1 * 65536 : Nat) + (d.get (F.RX_SKEW_SKEW n l) : Int)
    + toSigned 32 (d.get (F.RX_ASYM_ASYM n l))
def Dev.dTx (d : Dev) (n l : Nat) : Int :=
  ((latencies (d.linkMode n l) (d.linkFec n l)).2 * 65536 : Nat) + toSigned 32 (d.get (F.TX_ASYM_ASYM n l))

/-- Arrival stamp from t_MII (R235), both in 2^-16 tick: D_RX times 0.8, truncated toward minus infinity. -/
def stampOf (tMii : Nat) (dRx : Int) : Nat := ((5 * (tMii : Int) - 4 * dRx) / 5).toNat

/-! ## Occupancy (R232) -/

/-- Granules from a frame's start to the earliest next start on a 64b/66b link, and the outgoing deficit count. -/
def occupancy (f dIn : Nat) : Nat × Nat :=
  let n := (f + 20) / 8
  let x := (f + 20) % 8
  if x = 0 then (n, dIn)
  else if dIn + x ≤ 7 ∧ x ≤ 4 then (n, dIn + x)
  else (n + 1, dIn - (8 - x))

/-- Marker granules before granule g. -/
def markersBefore (m : Option (Nat × Nat)) (g : Nat) : Nat :=
  match m with
  | none => 0
  | some (c, p) => g / p * c + min c (g % p)

def isMarker (m : Option (Nat × Nat)) (g : Nat) : Bool := m.any fun (c, p) => g % p < c

/-- n granules on from granule g, the marker granules in between added: the least fixed point, which is reached before every marker of two periods has been added. -/
def advance (m : Option (Nat × Nat)) (g n : Nat) : Nat :=
  let up (e : Nat) : Nat := g + n + (markersBefore m e - markersBefore m g)
  (List.range 40).foldl (fun e _ => up e) (g + n)

/-- The link's grid parameters. -/
structure Grid where
  g125 : Nat
  mark : Option (Nat × Nat)
  /-- Start granules are even and there is no deficit count (1000BASE-X, SGMII). -/
  even : Bool
deriving DecidableEq, Repr

def Dev.grid (d : Dev) (n l : Nat) : Grid :=
  let m := d.linkMode n l
  { g125 := granule125 m, mark := markers m (d.linkFec n l), even := m ≥ 3 }

/-- Earliest next start after a frame of length f that starts at g with deficit dIn, and the outgoing count. -/
def Grid.after (gr : Grid) (g f dIn : Nat) : Nat × Nat :=
  if gr.even then
    let e := g + f + 20
    (e + e % 2, 0)
  else
    let (n, dOut) := occupancy f dIn
    (advance gr.mark g n, dOut)

/-! ## Granule instants (R239, R240) -/

/-- Denominator of a stage offset in 2^-16 ppt. -/
abbrev pptDen : Int := 65536000000000000

/-- Instant of granule k in 2^-16/125 tick. -/
def Lnk.at125 (x : Lnk) (gr : Grid) (k : Nat) : Int :=
  x.gridT + ((k : Int) - x.gridK) * ((gr.g125 * 65536 : Nat) : Int) * pptDen / (pptDen + x.gridY)

/-- g_k in 2^-16 tick, truncated. -/
def Lnk.granuleAt (x : Lnk) (gr : Grid) (k : Nat) : Nat := (x.at125 gr k / 125).toNat

/-- First granule at or after an instant in 2^-16/625 tick. -/
def Lnk.firstGranule (x : Lnk) (gr : Grid) (t625 : Int) : Nat :=
  let den : Int := 5 * ((gr.g125 * 65536 : Nat) : Int) * pptDen
  let num := (t625 - 5 * x.gridT) * (pptDen + x.gridY)
  ((x.gridK : Int) + -((-num) / den)).toNat

/-- Last granule at or before the end of a raw tick. -/
def Lnk.granuleNow (x : Lnk) (gr : Grid) (raw : Nat) : Nat :=
  x.firstGranule gr (((raw + 1) * 65536 * 625 : Nat) : Int) - 1

/-! ## Calendar terms (R266, R267) -/

/-- Place of a granule in its cycle. -/
def Lnk.place (x : Lnk) (g : Nat) : Nat := if x.cal.n = 0 then 0 else (g - x.calBase) % x.cal.n

/-- Start granule of the cycle of a granule. -/
def Lnk.cycleStart (x : Lnk) (g : Nat) : Nat := g - x.place g

def Lnk.inWindow (x : Lnk) (g : Nat) : Bool :=
  x.cal.n != 0 && x.cal.ws ≤ x.place g && x.place g < x.cal.ws + x.cal.wl

/-- Close of the window of the cycle of a granule. -/
def Lnk.windowClose (x : Lnk) (g : Nat) : Nat := x.cycleStart g + x.cal.ws + x.cal.wl

/-- A window closes in (a, b]. -/
def Lnk.closesIn (x : Lnk) (a b : Nat) : Bool :=
  x.cal.n != 0 && x.cal.wl != 0 &&
    (let c := x.windowClose b
     let c := if c ≤ b then c else c - x.cal.n
     decide (a < c ∧ c ≤ b))

/-- Committed frame with the largest start below g. -/
def Lnk.prev (x : Lnk) (g : Nat) : Option Commit :=
  x.commits.foldl (fun acc c =>
    if c.start < g then (match acc with
      | none => some c
      | some a => if a.start < c.start then some c else acc)
    else acc) none

/-- First committed frame at or after g. -/
def Lnk.next (x : Lnk) (g : Nat) : Option Commit :=
  x.commits.foldl (fun acc c =>
    if g ≤ c.start then (match acc with
      | none => some c
      | some a => if c.start < a.start then some c else acc)
    else acc) none

/-- First reserved slot occurrence that ends after g: start and end. -/
def Lnk.slotAfter (x : Lnk) (g : Nat) : Option (Nat × Nat) :=
  if x.cal.n = 0 then none else
  let c := x.cycleStart g
  let occ := (x.cal.rsv.filter (·.2.2)).flatMap fun (s, len, _) =>
    [(c + s, c + s + len), (c + x.cal.n + s, c + x.cal.n + s + len)]
  occ.foldl (fun acc o =>
    if g < o.2 then (match acc with
      | none => some o
      | some a => if o.1 < a.1 then some o else acc)
    else acc) none

def Commit.after (c : Commit) : Nat := c.start + c.occ

/-- A spare granule after a frame, but for 1000BASE-X and SGMII links (R267). -/
def Grid.spare (gr : Grid) : Nat := if gr.even then 0 else 1

/-- One candidate for a reply (R268): found, or the next candidate. -/
def Lnk.tryReply (x : Lnk) (gr : Grid) (f g : Nat) : Sum (Nat × Nat × Nat) Nat :=
  if isMarker gr.mark g then .inr (g + 1)
  else if gr.even ∧ g % 2 = 1 then .inr (g + 1)
  else if x.inWindow g then .inr (x.windowClose g)
  else
    let prev := x.prev g
    let e := (prev.map (·.after)).getD g
    if g < e then .inr e
    else if g = e ∧ prev.any (fun p => x.closesIn p.start g) then .inr (e + 1)
    else
      let dIn := match prev with
        | some p => if g = e then p.dOut else 0
        | none => 0
      let (fin, dOut) := gr.after g f dIn
      match (x.next g).filter (fun nx => nx.start < fin + gr.spare) with
      | some nx => .inr (max (g + 1) nx.after)
      | none =>
        match (x.slotAfter g).filter (fun rs => rs.1 < fin + gr.spare) with
        | some rs => .inr rs.2
        | none => .inl (g, fin - g, dOut)

/-- Placement of a reply of length f from granule g0 (R268, R272): start, occupancy, outgoing deficit. -/
def Lnk.findReply (x : Lnk) (gr : Grid) (f g0 : Nat) : Nat → Nat → Option (Nat × Nat × Nat)
  | 0, _ => none
  | fuel + 1, g =>
    if g > g0 + x.cal.n + 65536 then none else
    match x.tryReply gr f g with
    | .inl r => some r
    | .inr g' => Lnk.findReply x gr f g0 fuel g'

/-- Frames committed and not launched. -/
def Lnk.waiting (x : Lnk) : Nat := (x.commits.filter fun c => !c.gone).length

/-- Inserts a commitment by start. -/
def insertCommit (c : Commit) : List Commit → List Commit
  | [] => [c]
  | a :: l => if c.start < a.start then c :: a :: l else a :: insertCommit c l

/-- Commits a frame and shows CAL_STATE. -/
def Dev.commitFrame (d : Dev) (n l : Nat) (c : Commit) : Dev :=
  let x := d.lnk n l
  let x := { x with commits := insertCommit c x.commits }
  let d := d.setLnk n l x
  let w := x.waiting
  (d.set (F.CAL_STATE_COMMITTED n l) w).set (F.CAL_STATE_PEAK n l) (max w (d.get (F.CAL_STATE_PEAK n l)))

/-- Places one reply (R268): the launch instant, or none for "Calendar overflow" (R272). need in 2^-16/625 tick. -/
def Dev.placeReply (d : Dev) (n l : Nat) (need f q : Nat) : Dev × Option Nat :=
  let x := d.lnk n l
  let gr := d.grid n l
  let g0 := x.firstGranule gr need
  match if x.waiting ≥ 2048 then none else x.findReply gr f g0 200000 g0 with
  | none => (d, none)
  | some (g, occ, dOut) =>
    let lam := x.granuleAt gr g
    let d := d.commitFrame n l { start := g, occ := occ, dOut := dOut, lam := lam, len := f, load := .reply q, pushed := g != g0 }
    (d, some lam)

/-- One candidate for a host frame inside the window that closes at granule c (R270). -/
def Lnk.tryHost (x : Lnk) (gr : Grid) (f c g : Nat) : Sum (Nat × Nat × Nat) Nat :=
  if isMarker gr.mark g then .inr (g + 1)
  else if gr.even ∧ g % 2 = 1 then .inr (g + 1)
  else
    let prev := x.prev g
    let e := (prev.map (·.after)).getD g
    if g < e then .inr e
    else if g = e ∧ prev.any (fun p => x.closesIn p.start g) then .inr (e + 1)
    else
      let dIn := match prev with
        | some p => if g = e then p.dOut else 0
        | none => 0
      let (fin, dOut) := gr.after g f dIn
      match (x.next g).filter (fun nx => nx.start < fin + gr.spare) with
      | some nx => .inr (max (g + 1) nx.after)
      | none => if c < fin + gr.spare then .inr c else .inl (g, fin - g, dOut)

/-- Placement of a host frame from granule g in the window that closes at c. -/
def Lnk.findHost (x : Lnk) (gr : Grid) (f c : Nat) : Nat → Nat → Option (Nat × Nat × Nat)
  | 0, _ => none
  | fuel + 1, g =>
    if g ≥ c then none else
    match x.tryHost gr f c g with
    | .inl r => some r
    | .inr g' => Lnk.findHost x gr f c fuel g'

/-! ## Calendar settings (R266, R71) -/

/-- The calendar that the registers of a link spell. -/
def Dev.calRegs (d : Dev) (n l : Nat) : Cal :=
  { n := d.get (F.CAL_CYCLE_N n l), ws := d.get (F.CAL_WIN_START_S n l), wl := d.get (F.CAL_WIN_LEN_L n l)
    rsv := (List.range 16).map fun k => (d.get (F.CAL_RSV_0_START n l k), d.get (F.CAL_RSV_1_LEN n l k), d.flag (F.CAL_RSV_1_VALID n l k))
    use := (List.range 16).map fun k => (d.reg (A.CAL_USE n l k)).toNat }

/-- Range of N by link mode (R266). -/
def cycleRange (mode : Nat) : Nat × Nat :=
  match mode with
  | 0 => (2000, 1023437)
  | 1 => (500, 255859)
  | 2 => (200, 102343)
  | _ => (160, 81875)

/-- Two spans [a, a + la) and [b, b + lb) do not overlap. -/
def apart (a la b lb : Nat) : Bool := la == 0 || lb == 0 || decide (a + la ≤ b) || decide (b + lb ≤ a)

def slotsApart : List (Nat × Nat × Bool) → Bool
  | [] => true
  | (s, len, _) :: r => r.all (fun (s', len', _) => apart s len s' len') && slotsApart r

/-- Conditions of R266 on a calendar. -/
def Cal.ok (c : Cal) (mode : Nat) : Bool :=
  let (lo, hi) := cycleRange mode
  let slots := c.rsv.filter (·.2.2)
  decide (lo ≤ c.n ∧ c.n ≤ hi ∧ 2 * c.wl ≤ c.n ∧ c.ws + c.wl ≤ c.n)
    && slots.all (fun (s, len, _) => decide (s + len ≤ c.n) && apart s len c.ws c.wl)
    && slotsApart slots

/-- A calendar cycle opens (R71, R266): settings written since take effect and the count of cycles restarts here. -/
def Dev.cycleOpen (d : Dev) (n l : Nat) : Dev :=
  let x := d.lnk n l
  if !x.calNew then d else
  let g := x.granuleNow (d.grid n l) d.raw
  -- the boundary at or before this granule; with no calendar in force, this granule
  let b := if x.cal.n = 0 then g else x.cycleStart g
  d.setLnk n l { x with cal := d.calRegs n l, calBase := b, calNew := false }

end Sys2Proof.Machine
end

