-- ==== Sys2Proof/Machine/Links.lean ====
section
/-! DEFINITION. Line links: start-up, shutdown, locks, link-up and link-down, the grid tracker, the table scrub; loss of a PLL's lock (R200 to R208, R224 to R229, R239 to R241). -/

namespace Sys2Proof.Machine

/-- Adds to a 64-bit port counter (R245) at a byte offset of the link's bank, for an event with an instant in 2^-16 tick. -/
def Dev.statAt (d : Dev) (n l off t16 : Nat) (c : Nat := 1) : Dev := d.countStamped (A.STAT_LIVE n l 0 + off) 0x200 c t16

/-- The same for an event of the present tick. -/
def Dev.stat (d : Dev) (n l off : Nat) (c : Nat := 1) : Dev := d.statAt n l off (ticks16 d.raw) c

/-- The Position makes the link exist (R224). -/
def Dev.linkExists (d : Dev) (n l : Nat) : Bool :=
  bit (d.get (F.PORT_MODE_PRESENT n)) l && d.linkMode n l != 7

def Dev.linkUp (d : Dev) (n l : Nat) : Bool := d.flag (F.LINK_STATUS_LINK_UP n l)

/-- The stage offset that the link's grid map holds (R240): that applied by the fractional stage while FOLLOW is set. -/
def Dev.gridOffset (d : Dev) (n : Nat) : Int := if d.get (F.FRAC_CTRL_FOLLOW n) = 0 then 0 else d.fracAt n d.raw

/-- The start of acquisition fixes the grid origin O, a whole tick (R239): a free value within the millisecond that follows, so that O lies before any link-up. -/
def Dev.setOrigin (d : Dev) (n l : Nat) : Dev :=
  let (k, d) := d.draw
  let o := d.raw + Config.gridPhase k % msTicks
  let d := d.set64 (A.GRID_ORIGIN n l) o
  let x := d.lnk n l
  d.setLnk n l { x with gridK := 0, gridT := ((o * 65536 * 125 : Nat) : Int), gridY := d.gridOffset n,
                        reanchor := none, goodGrid := 0, calBase := 0, calNew := true }

/-- The grid maps of a die's links follow the stage's ratio (R240): re-anchored at the present granule. -/
def Dev.gridFollow (d : Dev) (n : Nat) : Dev :=
  (List.range 4).foldl (fun d l =>
    let x := d.lnk n l
    let y := d.gridOffset n
    if x.gridY = y then d else
    let gr := d.grid n l
    let k := x.granuleNow gr d.raw
    d.setLnk n l { x with gridK := k, gridT := x.at125 gr k, gridY := y }) d

/-- Slots whose signal comes over a link lose it (R128): SyncE slots bound to it and PTP slots of a stream on it. -/
def Dev.linkSlotsLost (d : Dev) (n l : Nat) : Dev :=
  let v := devLink n l
  (List.range 12).foldl (fun d s =>
    let ty := d.get (F.SLOT_CFG_TYPE s)
    let b := d.get (F.SLOT_CFG_BIND s)
    if (ty = 6 ∧ b = v) ∨ (ty = 5 ∧ d.get (F.STR_CFG_LINK b) = v) then
      d.signalLost s
    else d) d

/-- LINK_UP changes (R228). -/
def Dev.linkChange (d : Dev) (n l : Nat) (up : Bool) : Dev :=
  ((d.setFlag (F.LINK_STATUS_LINK_UP n l) up).setFlag (F.LINK_STATUS_LINK_CHG n l) true).raise (dieSrc n 0) (A.LINK_STATUS n l) l

/-- Negotiation and training have to be gone through again (R225, R228). -/
def Dev.untrain (d : Dev) (n l : Nat) : Dev :=
  (d.setFlag (F.LINK_STATUS_AN_DONE n l) false).setFlag (F.LINK_STATUS_TRAIN_DONE n l) false

/-- A link drops (R228): a running link begins acquisition again, negotiation and training included, with a new grid origin (R239). -/
def Dev.linkDrop (d : Dev) (n l : Nat) : Dev :=
  let d := if d.linkUp n l then ((d.linkChange n l false).stat n l 0x1A0).linkSlotsLost n l else d
  let d := d.setLnk n l { d.lnk n l with lockedSince := none }
  if d.get (F.LINK_CTRL_STATE n l) = stRunning then (d.untrain n l).setOrigin n l else d

/-- Every lock that the mode has is held (R228). -/
def Dev.linkLocked (d : Dev) (n l : Nat) : Bool :=
  let fec := d.linkFec n l
  let am := (markers (d.linkMode n l) fec).isSome
  let an := d.flag (F.LINK_CFG_AN n l)
  d.flag (F.LINK_STATUS_PCS_LOCK n l) && (!am || d.flag (F.LINK_STATUS_AM_LOCK n l)) &&
    (!fec || d.flag (F.LINK_STATUS_FEC_LOCK n l)) &&
    (!an || (d.flag (F.LINK_STATUS_AN_DONE n l) && d.flag (F.LINK_STATUS_TRAIN_DONE n l)))

/-- Times the locks: from when they have all held with no high BER. -/
def Dev.timeLocks (d : Dev) (n l : Nat) : Dev :=
  let x := d.lnk n l
  let ber := d.flag (F.LINK_STATUS_HI_BER n l)
  d.setLnk n l { x with lockedSince := keepSince x.lockedSince (d.linkLocked n l && !ber) d.raw
                        berSince := keepSince x.berSince ber d.raw }

/-- Bit errors of the received test pattern count, lane by lane, while it is checked (R249). -/
def Dev.prbsCount (d : Dev) (n l : Nat) (e : Nat × Nat × Nat × Nat) : Dev :=
  if !d.flag (F.LINK_TEST_CHECK n l) then d else
  (((d.countSat (F.PRBS_ERR_COUNT n l 0) e.1).countSat (F.PRBS_ERR_COUNT n l 1) e.2.1).countSat (F.PRBS_ERR_COUNT n l 2) e.2.2.1).countSat
    (F.PRBS_ERR_COUNT n l 3) e.2.2.2

/-- The receive PCS of a powered link gains or loses its locks (R228), also while the link shuts down; skew: the deskew of the reference lane measured when alignment locks, in 2^-16 ns (R235); errs: codewords corrected, uncorrectable, symbol errors and errored blocks decoded in the present tick (R245); prbs: errors of the received test pattern on each lane (R249). -/
def Dev.blockLock (d : Dev) (n l : Nat) (pcs am fec ber : Bool) (skew : Nat) (errs prbs : Nat × Nat × Nat × Nat) : Dev :=
  let st := d.get (F.LINK_CTRL_STATE n l)
  if st ≠ stRunning ∧ st ≠ stStopping then d else
  let fresh := am && !d.flag (F.LINK_STATUS_AM_LOCK n l)
  let d := ((d.setFlag (F.LINK_STATUS_PCS_LOCK n l) pcs).setFlag (F.LINK_STATUS_AM_LOCK n l) am).setFlag
    (F.LINK_STATUS_FEC_LOCK n l) fec
  let d := d.setFlag (F.LINK_STATUS_HI_BER n l) ber
  let d := if fresh then d.set (F.RX_SKEW_SKEW n l) (if d.linkMode n l = 0 then skew else 0) else d
  let d := (((d.stat n l 0x180 errs.1).stat n l 0x188 errs.2.1).stat n l 0x190 errs.2.2.1).stat n l 0x198 errs.2.2.2
  (d.prbsCount n l prbs).timeLocks n l

/-- The link is due to come up. -/
def Dev.linkReady (d : Dev) (n l : Nat) : Bool :=
  d.linkExists n l && d.get (F.LINK_CTRL_STATE n l) == stRunning && !d.linkUp n l && !d.flag (pllCoast (8 + n)) &&
    (d.lnk n l).lockedSince.any (· + msTicks ≤ d.raw)

/-- The link is due to go down: a lock lost, a high-BER state of 1 ms, a SerDes PLL unlock (R228). -/
def Dev.linkFails (d : Dev) (n l : Nat) : Bool :=
  d.linkUp n l && (!d.linkLocked n l || d.flag (pllCoast (8 + n)) || (d.lnk n l).berSince.any (· + msTicks ≤ d.raw))

/-- What earlier frames left behind is reset at link-up (R229). -/
def Lnk.fresh (x : Lnk) : Lnk :=
  { x with gen := (x.gen + 1) % 65536, buckets := [], commits := [], sessions := [], ucMarks := [], dues := [],
           follow := [], announces := [] }

/-- The map is re-anchored from its granule on, by the last GRID_ERR measured before that granule (R241). -/
def Dev.gridReanchor (d : Dev) (n l : Nat) : Dev :=
  let x := d.lnk n l
  let gr := d.grid n l
  match x.reanchor with
  | none => d
  | some g =>
    if x.granuleNow gr d.raw < g then d else
    let err := toSigned 32 (d.get (F.GRID_ERR_ERR n l))
    (d.setLnk n l { x with gridK := g, gridT := x.at125 gr g + err * 65536 / 10, reanchor := none }).faultEnd 0x06 n l

/-- One grid measurement in ps (R240, R241); the run of measurements within 100 ps counts through a fault. -/
def Dev.gridMeasure (d : Dev) (n l : Nat) (err : Int) : Dev :=
  if !d.linkUp n l then d else
  let d := (d.gridFollow n).set (F.GRID_ERR_ERR n l) (ofSigned 32 err)
  let x := d.lnk n l
  let x := { x with goodGrid := if err.natAbs ≤ 100 then x.goodGrid + 1 else 0 }
  if x.reanchor.isNone ∧ err.natAbs > 300 then
    let g := x.firstGranule (d.grid n l) (((d.raw + 8192) * 65536 * 625 : Nat) : Int)
    let d := d.setLnk n l { x with reanchor := some g }
    let d := (d.setFlag (F.LINK_STATUS_GRID_FAULT n l) true).setFlag (F.LINK_STATUS_GRID_OK n l) false
    (d.raise (dieSrc n 1) (A.LINK_STATUS n l) l).faultBegin 0x06 n l (A.LINK_STATUS n l)
  else d.setLnk n l x

/-- VALID bytes of entries of another generation in a table region, from the ledger's cells: base, size, offset of the flags, offset of LINK_GEN. -/
def staleFlags (ledger : Mem) (base size flags genOfs gen : Nat) : List (Nat × Byte) :=
  ledger.filter fun (a, b) =>
    decide (base ≤ a ∧ a < base + size ∧ (a - base) % 64 = flags ∧ b.toNat % 2 = 1) &&
      leNat (ledger.read (a - flags + genOfs) 2) != gen

/-- The background pass after a link-up (R229). -/
def Dev.tableScrub (ledger : Mem) (d : Dev) (n l : Nat) : Dev :=
  let gen := (d.lnk n l).gen
  let stale := staleFlags ledger (d.get64 (A.CT_BASE n l)) ((d.reg (A.CT_SIZE n l)).toNat * 4096) 16 18 gen ++
    staleFlags ledger (d.get64 (A.ST_BASE n l)) ((d.reg (A.ST_SIZE n l)).toNat * 4096) 10 60 gen
  stale.foldl (fun d (a, b) => d.lpost a [byte (b.toNat - 1)]) d

/-! ## Enable -/

/-- A start or a shutdown of a link begins (R227). -/
def Dev.linkAct (d : Dev) (n l : Nat) (a : EnAct) : Dev :=
  match a with
  | .nothing => d
  | .start => (d.set (F.LINK_CTRL_STATE n l) stStarting).setOrigin n l
  | .stop => (d.setLnk n l { d.lnk n l with downAt := ticks16 d.raw }).set (F.LINK_CTRL_STATE n l) stStopping

/-- A write of LINK_CTRL.ENABLE. -/
def Dev.linkEnable (d : Dev) (n l : Nat) (want : Bool) : Dev :=
  let r := enableReq (d.get (F.LINK_CTRL_STATE n l)) want
  (((d.setFlag (F.LINK_CTRL_ENABLE n l) want).setFlag (F.LINK_CTRL_LATCHED n l) r.latched).keepShadow (A.LINK_CTRL n l)).linkAct n l r.act

/-- The last commitment of a link has launched and no request of it is in work. -/
def Dev.linkDrained (d : Dev) (n l : Nat) : Bool :=
  (d.lnk n l).waiting == 0 && (d.die n).queries.all (·.link != l)

/-- The link's lanes power down. -/
def Dev.linkOff (d : Dev) (n l : Nat) : Dev :=
  let d := d.set (F.LINK_CTRL_STATE n l) stStopped
  let d := d.linkDrop n l
  let st := d.reg (A.LINK_STATUS n l)
  d.setReg (A.LINK_STATUS n l) (putBits 7 0 st 0)

/-- A start-up or shutdown completes (R227, R48). -/
def Dev.linkComplete (d : Dev) (n l : Nat) : Dev :=
  let again := d.flag (F.LINK_CTRL_LATCHED n l)
  match d.get (F.LINK_CTRL_STATE n l) with
  | 3 =>
    let d := (d.setFlag (F.LINK_CTRL_LATCHED n l) false).set (F.LINK_CTRL_STATE n l) stRunning
    if again then d.linkAct n l .stop else d
  | 1 =>
    if !d.linkDrained n l then d else
    let d := (d.setFlag (F.LINK_CTRL_LATCHED n l) false).linkOff n l
    if again then d.linkAct n l .start else d
  | _ => d

/-- A write of AN_RESTART (ignored unless RUNNING). -/
def Dev.anRestart (d : Dev) (n l : Nat) : Dev :=
  if d.get (F.LINK_CTRL_STATE n l) ≠ stRunning then d else
  (d.untrain n l).linkDrop n l

/-- Negotiation and training resolve (R225); ok: to the one ability and FEC request advertised. -/
def Dev.negotiated (d : Dev) (n l : Nat) (ok : Bool) : Dev :=
  if d.get (F.LINK_CTRL_STATE n l) ≠ stRunning ∨ !d.flag (F.LINK_CFG_AN n l) then d
  else if ok then
    ((d.setFlag (F.LINK_STATUS_AN_DONE n l) true).setFlag (F.LINK_STATUS_TRAIN_DONE n l) true).timeLocks n l
  else ((d.untrain n l).setFlag (F.LINK_STATUS_AN_FAIL n l) true).timeLocks n l

/-! ## Commands -/

/-- LINK_CTRL_ENABLE (R227). -/
def execLinkCtrlEnable (n l : Fin 4) (want : Bool) (s : State) : Answer :=
  s.run (·.whenUp fun d => if d.diePowered n then d.limitedBit (A.LINK_CTRL n l) want (·.linkEnable n l want) else d)

/-- LINK_TRANSITION_COMPLETE (R227). -/
def execLinkTransitionComplete (n l : Fin 4) (s : State) : Answer := s.run (·.linkComplete n l)

/-- AN_RESTART (R239). -/
def execAnRestart (n l : Fin 4) (s : State) : Answer := s.run (·.whenUp (·.anRestart n l))

/-- NEGOTIATION_COMPLETE (R225). -/
def execNegotiationComplete (n l : Fin 4) (ok : Bool) (s : State) : Answer := s.run (·.negotiated n l ok)

/-- BLOCK_LOCK (R228, R235). -/
def execBlockLock (n l : Fin 4) (pcs am fec ber : Bool) (skew : Nat) (errs prbs : Nat × Nat × Nat × Nat) (s : State) : Answer :=
  s.run (·.blockLock n l pcs am fec ber skew errs prbs)

/-- GRID_OK_RESTORED (R241): 16 consecutive measurements within 100 ps. -/
def execGridOkRestored (n l : Fin 4) (s : State) : Answer :=
  s.run fun d => if (d.lnk n l).goodGrid ≥ 16 then d.setFlag (F.LINK_STATUS_GRID_OK n l) true else d

/-- TABLE_SCRUB (R229). -/
def execTableScrub (n l : Fin 4) (s : State) : Answer := s.runM fun _ led d => d.tableScrub led n l

/-- PLL_UNLOCK_DECLARED (R200, R202, R203, R208): a SerDes PLL takes its port's links down. -/
def execPllUnlockDeclared (p : Fin 12) (s : State) : Answer :=
  s.run fun d =>
    if !d.unlockDue p then d else
    let d := d.pllToCoast p 16
    if p.val < 8 then d else (List.range 4).foldl (fun d l => d.linkDrop (p.val - 8) l) d

/-- REFERENCE_LOSS (R201, R202). -/
def execReferenceLoss (p : Fin 12) (s : State) : Answer :=
  s.run fun d => if d.pllOn p && !d.flag (pllLossRef p) then d.pllToCoast p 17 else d

/-- CALENDAR_CYCLE_START (R71, R266). -/
def execCalendarCycleStart (n l : Fin 4) (s : State) : Answer := s.run (·.cycleOpen n l)

end Sys2Proof.Machine
end

