-- ==== Sys2Proof/Machine/Parse.lean ====
section
/-! DEFINITION. Tags, the parse graph walk and the steering rules (R231, R242 to R244, R253 to R255). Frames are given whole, FCS included. -/

namespace Sys2Proof.Machine

/-- The tags of a frame (TPID, TCI) and the offset of its EtherType (R231). -/
structure Tags where
  tags : List (Nat × Nat)
  etOfs : Nat
  etype : Nat
deriving DecidableEq, Repr

/-- Up to two VLAN tags: the outer under four TPIDs, the inner under 0x8100 only (R231). -/
def tagsOf (f : List Byte) (linkTpid : Nat) : Tags :=
  let t0 := beAt f 12 2
  let outer := t0 == 0x8100 || t0 == 0x88A8 || t0 == 0x9100 || (linkTpid != 0 && t0 == linkTpid)
  if !outer then { tags := [], etOfs := 12, etype := t0 } else
  let t1 := beAt f 16 2
  let tag0 := (t0, beAt f 14 2)
  if t1 ≠ 0x8100 then { tags := [tag0], etOfs := 16, etype := t1 }
  else { tags := [tag0, (t1, beAt f 18 2)], etOfs := 20, etype := beAt f 20 2 }

/-! ## Checksums -/

/-- Ones' complement sum of 16-bit words, the last byte padded (RFC 1071). -/
def sum16 : List Byte → Nat
  | [] => 0
  | [a] => a.toNat * 256
  | a :: b :: r => a.toNat * 256 + b.toNat + sum16 r

/-- Folds a sum to 16 bits, end-around carry. -/
def fold16 (s : Nat) : Nat :=
  let s := s % 65536 + s / 65536
  let s := s % 65536 + s / 65536
  s % 65536 + s / 65536

/-- The Internet checksum of bytes. -/
def inetSum (bs : List Byte) : Nat := 0xFFFF - fold16 (sum16 bs)

/-- The bytes sum to a valid checksum. -/
def inetOk (bs : List Byte) : Bool := fold16 (sum16 bs) == 0xFFFF

/-- The checksum of the IPv4 header at an offset holds (R254). -/
def ip4Ok (f : List Byte) (o : Nat) : Bool :=
  let ihl := beAt f o 1 % 16 * 4
  ihl ≥ 20 && o + ihl ≤ f.length && inetOk (slice f o ihl)

/-- Pseudo-header of a UDP or ICMPv6 datagram whose IP header stands at l3. -/
def pseudo (f : List Byte) (l3 len proto : Nat) : List Byte :=
  if beAt f l3 1 / 16 = 6 then slice f (l3 + 8) 32 ++ beBytes 4 len ++ beBytes 4 proto
  else slice f (l3 + 12) 8 ++ [0, byte proto] ++ beBytes 2 len

/-- CHK_UDP (R254): f is the frame without its FCS. -/
def udpOk (f : List Byte) (l3 l4 : Nat) : Bool :=
  let len := beAt f (l4 + 4) 2
  if l3 = 0 ∨ l4 = 0 ∨ len < 8 ∨ l4 + len > f.length then false
  else if beAt f (l4 + 6) 2 = 0 then beAt f l3 1 / 16 != 6
  else inetOk (pseudo f l3 len 17 ++ slice f l4 len)

/-! ## The walk (R253, R254) -/

/-- State and end of a walk: kind 0 NEXT, 1 CONTEXT, 2 DROP with its value; marks; outcome of CHK_IP4; CHK_UDP asked for. -/
structure Walk where
  kind : Nat := 2
  value : Nat := 0
  base : Nat := 0
  l3 : Nat := 0
  l4 : Nat := 0
  pay : Nat := 0
  ip4 : Option Bool := none
  udp : Bool := false
deriving DecidableEq, Repr

/-- Result word of a node for a frame (R253 steps 1 to 3). -/
def Dev.nodeResult (d : Dev) (n l j : Nat) (f : List Byte) (base : Nat) : Nat :=
  let w := d.get (F.NODE_0_WIDTH n l j) + 1
  let o := base + d.get (F.NODE_0_OFFSET n l j)
  let dflt := bits 9 0 (d.reg (A.NODE_1 n l j))
  if o + w > min 128 f.length then dflt else
  let v := beAt f o w
  ((List.range 4).findSome? fun k =>
    let m := (d.reg (A.NODE_M n l j k)).toNat
    if bit (d.reg (A.NODE_R n l j k)).toNat 31 && (v &&& m) == ((d.reg (A.NODE_V n l j k)).toNat &&& m) then
      some (bits 9 0 (d.reg (A.NODE_R n l j k)))
    else none).getD dflt

/-- Header advance of a node; none when it cannot be made (R254). -/
def Dev.nodeAdvance (d : Dev) (n l j : Nat) (f : List Byte) (base : Nat) : Option Nat :=
  let o := base + d.get (F.NODE_0_ADV_OFS n l j)
  let far := decide (o ≥ min 128 f.length)
  match d.get (F.NODE_0_ADV n l j) with
  | 0 => some base
  | 1 => some o
  | 2 => if far then none else some (base + beAt f o 1 % 16 * 4)
  | _ => if far then none else some (base + (beAt f o 1 + 1) * 8)

/-- One walk of at most fuel nodes from node j. -/
def Dev.walk (d : Dev) (n l : Nat) (f : List Byte) : Nat → Nat → Walk → Walk
  | 0, _, w => { w with kind := 2 }
  | fuel + 1, j, w =>
    if j ≥ 64 ∨ !d.flag (F.NODE_0_VALID n l j) then { w with kind := 2 } else
    let r := d.nodeResult n l j f w.base
    let w := if d.flag (F.NODE_0_CHK_IP4 n l j) then
        { w with ip4 := some (w.ip4 != some false && ip4Ok (f.take (f.length - 4)) w.base) } else w
    let w := { w with udp := w.udp || d.flag (F.NODE_0_CHK_UDP n l j) }
    match d.nodeAdvance n l j f w.base with
    | none => { w with kind := 2 }
    | some b =>
      let w := { w with base := b }
      let w := match d.get (F.NODE_0_MARK n l j) with
        | 0 => w
        | 1 => { w with l3 := b }
        | 2 => { w with l4 := b }
        | _ => { w with pay := b }
      match r / 256 with
      | 0 => Dev.walk d n l f fuel (r % 256) w
      | 1 => { w with kind := 1, value := r % 256 }
      | _ => { w with kind := 2 }

/-- The parse graph's walk of a frame on link l: at most 16 nodes from node 0. -/
def Dev.parse (d : Dev) (n l : Nat) (f : List Byte) (t : Tags) : Walk := d.walk n l f 16 0 { base := t.etOfs }

/-! ## Steering (R242 to R244) -/

/-- Offset of the IP header and IP protocol by the fixed headers (R244). -/
def fixedProto (f : List Byte) (t : Tags) : Option Nat :=
  if t.etype = 0x0800 then some (beAt f (t.etOfs + 11) 1)
  else if t.etype = 0x86DD then some (beAt f (t.etOfs + 8) 1)
  else none

/-- Offset of the UDP header of an unfragmented datagram (R244). -/
def fixedUdp (f : List Byte) (t : Tags) : Option Nat :=
  if fixedProto f t ≠ some 17 then none
  else if t.etype = 0x0800 then
    if beAt f (t.etOfs + 8) 2 % 0x4000 = 0 then some (t.etOfs + 2 + beAt f (t.etOfs + 2) 1 % 16 * 4) else none
  else some (t.etOfs + 42)

/-- Rule i matches a frame of link l; only the first 128 B count. -/
def Dev.ruleMatches (d : Dev) (n l i : Nat) (frame : List Byte) (t : Tags) : Bool :=
  let f := frame.take 128
  -- [0] M_TPID, [1] M_VID, [2] M_PCP, [3] M_ETYPE, [4] M_PROTO, [5] M_PORT, [6] PORT_SRC, [7] TAG_SEL, [9:8] TAGS
  let m := d.get (F.RULE_1_MATCH n i)
  let tag := t.tags[boolNat (bit m 7)]?
  let tags := m / 256
  d.flag (F.RULE_0_VALID n i) && bit (d.get (F.RULE_0_LINK_MASK n i)) l &&
  (d.flag (F.RULE_0_ACTION n i) || d.get (F.RULE_0_CONTEXT n i) != 0) &&
  (tags == 0 || t.tags.length + 1 == tags) &&
  (!bit m 0 || t.tags.head?.any (·.1 == d.get (F.RULE_2_TPID n i))) &&
  (!bit m 1 || tag.any fun g =>
    (g.2 % 4096 &&& d.get (F.RULE_5_VID_MASK n i)) == (d.get (F.RULE_2_VID n i) &&& d.get (F.RULE_5_VID_MASK n i))) &&
  (!bit m 2 || tag.any fun g => g.2 / 8192 == d.get (F.RULE_2_PCP n i)) &&
  (!bit m 3 || t.etype == d.get (F.RULE_3_ETYPE n i)) &&
  (!bit m 4 || fixedProto f t == some (d.get (F.RULE_3_PROTO n i))) &&
  (!bit m 5 || (fixedUdp f t).any fun o =>
    let p := beAt f (o + if bit m 6 then 0 else 2) 2
    decide (o + 4 ≤ f.length) &&
      (p &&& d.get (F.RULE_4_PORT_MASK n i)) == (d.get (F.RULE_4_PORT n i) &&& d.get (F.RULE_4_PORT_MASK n i)))

/-- The matching rule: the valid rule with the lowest index that matches (R242). -/
def Dev.steer (d : Dev) (n l : Nat) (f : List Byte) (t : Tags) : Option Nat :=
  (List.range 64).find? fun i => d.ruleMatches n l i f t

/-! ## Context images -/

/-- A 256 B context image as 64 words (R256). -/
abbrev Img := List Word

/-- The image in force of context c of die n. -/
def Dev.img (d : Dev) (n c : Nat) : Img :=
  if c = 0 then [] else (List.range 64).map fun w => d.reg (A.CTX_LINE n (c - 1) w)

/-- Bits [hi:lo] of the word at a byte offset of an image. -/
def Img.f (m : Img) (off hi lo : Nat) : Nat := bits hi lo (m.getD (off / 4) 0)
def Img.b (m : Img) (off i : Nat) : Bool := Img.f m off i i == 1

/-- n bytes of an image from an offset, in frame order (R256). -/
def Img.bytes (m : Img) (off n : Nat) : List Byte :=
  slice ((m.drop (off / 4)).take (n / 4 + 2) |>.flatMap fun w => leBytes 4 w.toNat) (off % 4) n

def Img.proto (m : Img) : Nat := Img.f m 0 19 16
def Img.engine (m : Img) : Bool := Img.b m 0 1
def Img.tTurn (m : Img) : Nat := Img.f m 4 15 0
def Img.scale (m : Img) : Nat := Img.f m 0 9 8

/-- A slave-stream context (R327). -/
def Img.stream (m : Img) : Bool := Img.proto m == 2 && Img.b m 0x40 9

/-- Context c is valid and enabled on link l (R255). -/
def Dev.ctxEnabled (d : Dev) (n l c : Nat) : Bool :=
  let w := d.reg (A.CTX_LINE n (c - 1) 0)
  c != 0 && bit w.toNat 0 && bit w.toNat (12 + l)

/-! ## Classification -/

/-- Where a frame goes: a context; the host by ring with REASON and CONTEXT of R338; dropped. -/
inductive Dest where
  | context (c : Nat)
  | host (ring reason ctx : Nat)
  | drop
deriving DecidableEq, Repr

/-- The decision on a frame (R242, R255): destination, deciding rule plus 1, the walk. -/
structure Class where
  dest : Dest
  rule : Nat
  walk : Walk
deriving DecidableEq, Repr

def Dev.classify (d : Dev) (n l : Nat) (f : List Byte) (t : Tags) : Class :=
  let w := d.parse n l f t
  let ring := d.get (F.LINK_HOST_RING_RING n l)
  let rule := d.steer n l f t
  -- the context that a rule with ACTION 0 names, enabled or not
  let named := match rule with
    | some i => if d.flag (F.RULE_0_ACTION n i) then 0 else d.get (F.RULE_0_CONTEXT n i)
    | none => 0
  let byGraph : Class :=
    if w.kind ≠ 1 then { dest := .drop, rule := 0, walk := w }
    else if w.value = 0 then { dest := .host ring 0 named, rule := 0, walk := w }
    else if d.ctxEnabled n l w.value then { dest := .context w.value, rule := 0, walk := w }
    else { dest := .host ring 3 (if named ≠ 0 then named else w.value), rule := 0, walk := w }
  match rule with
  | none => byGraph
  | some i =>
    if d.flag (F.RULE_0_ACTION n i) then
      { dest := .host (d.get (F.RULE_0_RING n i)) 1 (if w.kind = 1 then w.value else 0), rule := i + 1, walk := w }
    else if d.ctxEnabled n l named then { dest := .context named, rule := i + 1, walk := w }
    else byGraph

end Sys2Proof.Machine
end

