-- ==== Sys2Proof/Machine/Admission.lean ====
section
/-! DEFINITION. State as it stood at an arrival instant, outcomes and the served-request log, the context and client buckets (R34, R70, R251, R252, R260 to R263, R275 to R277, R282, R418, R419, R426). -/

namespace Sys2Proof.Machine

/-! ## The state at an arrival instant (R34, R70, R282) -/

/-- A scale with the items published by an arrival instant: epoch at or before it plus 16,384 ticks. -/
def Scale.asOf (sc : Scale) (r16 : Nat) : Scale :=
  let h := r16 + ticks16 leadTicks
  { sc with journal := sc.journal.filter (ticks16 ·.epoch ≤ h), pend := sc.pend.filter (ticks16 ·.epoch ≤ h)
            ends := sc.ends.filter (ticks16 ·.epoch ≤ h), quality := sc.quality.filter (ticks16 ·.q ≤ h)
            lockedQ := sc.lockedQ.filter (ticks16 · ≤ h) }

/-- The time-scale unit as a request that arrives at an instant sees it. -/
def Ts.asOf (ts : Ts) (r16 : Nat) : Ts :=
  { ts with a := ts.a.asOf r16, b := ts.b.asOf r16
            switches := ts.switches.filter fun w => ticks16 w.s ≤ r16 + ticks16 leadTicks
            leaps := ts.leaps.filter fun l => ticks16 l.addedRaw ≤ r16 }

/-- Records the value a register has before a change that counts from a raw tick. -/
def Dev.keepFrom (d : Dev) (since a : Nat) : Dev :=
  { d with hist := (since, a, d.reg a) :: d.hist.filter fun h => d.raw < h.1 + 2 ^ 20 }

/-- Records the value a register has before a change made now. -/
def Dev.keep (d : Dev) (a : Nat) : Dev := d.keepFrom d.raw a

/-- The device with its registers as they stood at an instant (R70). -/
def Dev.regsAt (d : Dev) (r16 : Nat) : Dev :=
  d.hist.foldl (fun d (t, a, v) => if r16 < ticks16 t then d.setReg a v else d) d

/-- The device with the copy of the scale journals that answer die n holds (R29). -/
def Dev.onDie (d : Dev) (n : Nat) : Dev := { d with ts := d.ts.heldBy n }

/-- The device as a request that arrives on die n at an instant sees it. -/
def Dev.seenAt (d : Dev) (n r16 : Nat) : Dev := { d.regsAt r16 with ts := (d.ts.heldBy n).asOf r16 }

/-- The time of an arrival stamp on die n (R29). -/
def Dev.dieTime (d : Dev) (n code r16 : Nat) : Int := (((d.ts.heldBy n).asOf r16).time16 code r16).getD 0

/-! ## Outcomes, counters, log (R276, R277, R426, R427) -/

/-- Outcome codes of R276. -/
abbrev ocAnswered : Nat := 0
abbrev ocKodRate : Nat := 1
abbrev ocKodDeny : Nat := 2
abbrev ocNak : Nat := 3
abbrev ocSilent : Nat := 4
abbrev ocLate : Nat := 5

/-- Offset of an outcome's counter in a context's line (R426). -/
def outcomeOfs (oc : Nat) : Nat :=
  match oc with
  | 0 => 0x10
  | 1 | 2 => 0x28
  | 3 => 0x20
  | 4 => 0x08
  | _ => 0x18

/-- Adds one to a counter of context c for an event with an instant in 2^-16 tick (R426). -/
def Dev.ctxCount (d : Dev) (n c off t16 : Nat) : Dev :=
  if c = 0 then d else d.countStamped (A.CTX_CNT n c 0 + off) 0x4000 1 t16

/-- The 16 B ledger record of an outcome (R276). -/
def logRecord (n : Nat) (o : Ordering) : List Byte :=
  let turn := min 32767 (o.at' - o.stamp / 65536)
  leBytes 8 o.at' ++ leBytes 2 (turn + 32768 * boolNat o.ipv6) ++
    [byte o.ctx, byte (devLink n o.link + 16 * o.outcome)] ++
    (if o.ipv6 then leBytes 4 (crc32c o.src) else slice o.src 0 4)

/-- A log record is lost (R277). -/
def Dev.logLost (d : Dev) (n l : Nat) : Dev :=
  (d.count32 (A.LOG_LOST n l)).raise (dieSrc n 13) (A.ENG_BLK_STATUS n) l

/-- Writes a record into the log region of a link (R277). -/
def Dev.logWrite (d : Dev) (n : Nat) (o : Ordering) : Dev :=
  let l := o.link
  let size := (d.reg (A.LOG_SIZE n l)).toNat * 256
  if size = 0 then d else
  let wr := d.get (F.LOG_WR_WR n l)
  let rd := d.get (F.LOG_RD_RD n l)
  let full := (wr + 1) % size == rd % size
  let d := if full then d.logLost n l else d
  if full && d.get (F.LOG_CFG_MODE n l) == 1 then d else
  let d := if full then d.set (F.LOG_RD_RD n l) ((rd + 1) % size) else d
  let d := (d.lpost (d.get64 (A.LOG_BASE n l) + 16 * wr) (logRecord n o)).set (F.LOG_WR_WR n l) ((wr + 1) % size)
  d.dieCount n 0x21

/-- A refusal is logged only with LOG_REFUSED: silent and Kiss-o'-Death outcomes (R276). -/
def isRefusal (oc : Nat) : Bool := oc == 1 || oc == 2 || oc == 4

/-- A request reaches its outcome: its counter, at its launch or ordering instant, and its log record (R276, R426, R427). -/
def Dev.reachOutcome (d : Dev) (n : Nat) (o : Ordering) : Dev :=
  let d := d.ctxCount n o.ctx (outcomeOfs o.outcome) (ticks16 o.at')
  if o.log && (!isRefusal o.outcome || o.logRefused) then d.logWrite n o else d

/-- The outcome of a query at an ordering instant, as it is counted and logged. -/
def Query.ordering (q : Query) (oc tick : Nat) : Ordering :=
  let src := if !q.ip then zeros 4 else if q.ipv6 then slice q.bytes (q.l3 + 8) 16 else slice q.bytes (q.l3 + 12) 4
  { at' := tick, stamp := q.stamp, link := q.link, ctx := q.ctx, outcome := oc, src := src, ipv6 := q.ipv6
    log := Img.b q.img 0 3, logRefused := Img.b q.img 0 4 }

/-- Ordering instant of a silent refusal: arrival end + P + T_TURN (R276), a raw tick. -/
def Query.orderTick (q : Query) : Nat := q.need / (625 * 65536)

/-- A request will be silently refused at its ordering instant (R276, R279). -/
def Dev.silent (d : Dev) (n : Nat) (q : Query) : Dev :=
  d.setDie n { d.die n with orderings := (d.die n).orderings ++ [q.ordering ocSilent q.orderTick] }

/-! ## Buckets (R260, R261) -/

/-- One request in bucket units. -/
abbrev reqUnit : Nat := 1000000000 * 65536

/-- Refill of a level at a rate up to a depth, and the new t_last (R261). -/
def refill (level cap rate : Nat) (last : Option Int) (t : Int) : Nat × Option Int :=
  match last with
  | none => (min level cap, some t)
  | some l => if t < l then (min level cap, some l) else (min (level + (t - l).toNat * rate) cap, some t)

/-- Takes one request. -/
def takeOne (level : Nat) : Nat × Bool := if reqUnit ≤ level then (level - reqUnit, true) else (level, false)

/-- Bucket of context c on a link; a bucket starts full. -/
def Lnk.bucket (x : Lnk) (c burst : Nat) : Bucket :=
  (x.buckets.find? (·.ctx = c)).getD { ctx := c, level := burst * reqUnit }

def Lnk.setBucket (x : Lnk) (b : Bucket) : Lnk :=
  { x with buckets := b :: x.buckets.filter (·.ctx ≠ b.ctx) }

/-- A request that arrives at an instant is admitted under the FALLBACK table (R205, R207, R418): it lies in the fallback in force or in one that is over. -/
def Dev.fallbackAt (d : Dev) (n r16 : Nat) : Bool :=
  (d.flag (pllFallback (4 + n)) && (d.die n).fbAt.all (· ≤ r16)) || (d.die n).fbPast.any fun x => decide (x.1 ≤ r16 ∧ r16 < x.2)

/-- The FALLBACK table that holds for a request with an arrival stamp (R70). -/
def Pos.fallbackFor (p : Pos) (r16 : Nat) : List (Nat × Nat × Nat × Nat) :=
  p.fallbackWas.foldl (fun t x => if r16 < ticks16 x.1 then x.2 else t) p.fallback

/-- RATE and BURST in force for step 2; none: every request is refused (R418). -/
def Dev.admRate (d : Dev) (n c r16 : Nat) (img : Img) : Option (Nat × Nat) :=
  if d.fallbackAt n r16 && Img.engine img then
    match (d.pos.fallbackFor r16).find? (fun e => e.1 = n ∧ e.2.1 = c) with
    | some (_, _, burst, rate) => if rate = 0 then none else some (rate, burst)
    | none => none
  else some (Img.f img 0x10 31 0, Img.f img 0x14 15 0)

/-- Step 2 of R260: the context bucket at time t. -/
def Dev.ctxBucket (d : Dev) (n l c r16 : Nat) (img : Img) (t : Int) : Dev × Bool :=
  match d.admRate n c r16 img with
  | none => (d, false)
  | some (rate, burst) =>
    if rate = 0 then (d, true) else
    let x := d.lnk n l
    let b := x.bucket c burst
    let (level, last) := refill b.level (burst * reqUnit) rate b.last t
    let (level, ok) := takeOne level
    (d.setLnk n l (x.setBucket { ctx := c, level := level, last := last }), ok)

/-- A new BURST caps the level of a context's buckets and keeps it otherwise; a bucket of a VALID context not yet drawn on is full at the BURST before (R261, R419). -/
def Dev.capBuckets (d : Dev) (n c before burst : Nat) : Dev :=
  let valid := bit (d.reg (A.CTX_LINE n (c - 1) 0)).toNat 0
  (List.range 4).foldl (fun d l =>
    let x := d.lnk n l
    if !valid && (x.buckets.find? (·.ctx = c)).isNone then d else
    let b := x.bucket c before
    d.setLnk n l (x.setBucket { b with level := min b.level (burst * reqUnit) })) d

/-- BURST of context c as its registers stand. -/
def Dev.burstOf (d : Dev) (n c : Nat) : Nat := bits 15 0 (d.reg (A.CTX_LINE n (c - 1) 5))

/-- The changeover to fallback caps the levels of the affected contexts (R419). -/
def Dev.capFallback (d : Dev) (n : Nat) : Dev :=
  d.pos.fallback.foldl (fun d e => if e.1 = n then d.capBuckets n e.2.1 (d.burstOf n e.2.1) e.2.2.1 else d) d

/-- At the return epoch the contexts' own BURST caps the levels (R419). -/
def Dev.capReturn (d : Dev) (n : Nat) : Dev :=
  d.pos.fallback.foldl (fun d e => if e.1 = n then d.capBuckets n e.2.1 e.2.2.1 (d.burstOf n e.2.1) else d) d

/-- A context of die n lives under the FALLBACK table for the time being (R418). -/
def Dev.onFallback (d : Dev) (n c : Nat) : Bool :=
  d.flag (pllFallback (4 + n)) && bit (d.reg (A.CTX_LINE n (c - 1) 0)).toNat 1

/-! ## Client table (R262) -/

/-- The first p bits of an address, the rest zero. -/
def maskAddr (a : List Byte) (p : Nat) : List Byte :=
  let k := 2 ^ (8 * a.length - p)
  beBytes a.length (beNat a / k * k)

/-- Source address of a query. -/
def Query.source (q : Query) : List Byte :=
  if q.ipv6 then slice q.bytes (q.l3 + 8) 16 else slice q.bytes (q.l3 + 12) 4

/-- Key of the client entry: the masked source address, IPv4 in bytes 0 to 3. -/
def Query.clientKey (q : Query) : List Byte :=
  let p := if q.ipv6 then Img.f q.img 0x1C 23 16 else Img.f q.img 0x1C 29 24
  slice (maskAddr q.source p) 0 16

/-- Address of the set of a table: base, number of sets, salt, key. -/
def tableSet (base sets salt : Nat) (key : List Byte) : Nat := base + 512 * (crc32cFrom salt key % sets)

/-- The eight entries of a set. -/
def setWays (led : Mem) (a : Nat) : List (List Byte) := (List.range 8).map fun w => led.read (a + 64 * w) 64

/-- A way is empty: not VALID, or written in another generation of the link (R229, R262). -/
def clientEmpty (gen : Nat) (e : List Byte) : Bool := leAt e 16 1 % 2 == 0 || leAt e 18 2 != gen

/-- The entry that the least of a measure picks, the lowest index among equals. -/
def leastBy (f : List Byte → Nat) : List (List Byte) → Nat → Nat × Nat
  | [], i => (i, 0)
  | [e], i => (i, f e)
  | e :: r, i =>
    let m := leastBy f r (i + 1)
    if f e ≤ m.2 then (i, f e) else m

/-- An entry of the client table (R262). -/
def clientEntry (key : List Byte) (v6 : Bool) (cls gen level : Nat) (tlast : List Byte) (raw adm ref : Nat) : List Byte :=
  key ++ [byte (1 + 2 * boolNat v6), byte cls] ++ leBytes 2 gen ++ leBytes 12 level ++ tlast ++
    leBytes 8 raw ++ leBytes 4 adm ++ leBytes 4 ref

/-- Time of a T_LAST record in 2^-16 ns. -/
def recordTime (r : List Byte) : Int := joinTime (leAt r 0 6) (leAt r 6 4) (leAt r 10 2)

/-- Step 3 of R260 for a query at time t; ecc: the read gave an uncorrectable error. Answers whether the client bucket admits it. -/
def Dev.clientBucket (led : Mem) (d : Dev) (n : Nat) (q : Query) (t : Int) (ecc : Bool) : Dev × Bool :=
  let l := q.link
  let sets := (d.reg (A.CT_SIZE n l)).toNat * 8
  let key := q.clientKey
  let cls := Img.f q.img 0 31 24
  let gen := (d.lnk n l).gen
  let cap := Img.f q.img 0x1C 15 0 * reqUnit
  if sets = 0 then (d, true) else
  let a := tableSet (d.get64 (A.CT_BASE n l)) sets d.keys.salt ([byte cls, byte (boolNat q.ipv6)] ++ key)
  let ways := setWays led a
  let hit := ways.findIdx? fun e =>
    !clientEmpty gen e && slice e 0 16 == key && leAt e 17 1 == cls && (leAt e 16 1 / 2 % 2 == 1) == q.ipv6
  let d := d.dieCount n 0x20
  let known := hit.isSome && !ecc
  -- way, and the events of a new or rebuilt entry
  let (w, d) := match hit with
    | some w => (w, if ecc then ((d.ledgerUe.count32 (A.CLIENT_ECC n)).raise (dieSrc n 12) (A.CTX_STATUS n) l).faultPulse 0x0A n l (A.CTX_STATUS n) else d)
    | none =>
      let d := if ecc then ((d.ledgerUe.count32 (A.CLIENT_ECC n)).raise (dieSrc n 12) (A.CTX_STATUS n) l).faultPulse 0x0A n l (A.CTX_STATUS n) else d
      match ways.findIdx? (clientEmpty gen) with
      | some w => (w, (d.count32 (A.CLIENT_NEW n)).dieCount n 0x0C)
      | none =>
        let w := (leastBy (leAt · 48 8) ways 0).1
        (w, (((d.count32 (A.CLIENT_NEW n)).dieCount n 0x0C).count32 (A.CLIENT_EVICT n)).dieCount n 0x0D)
  let e := if known then ways.getD w [] else []
  let level := if known then leAt e 20 12 else cap
  let last := if known then some (recordTime (slice e 32 16)) else none
  let (level, last') := refill level cap (Img.f q.img 0x18 31 0) last t
  let (level, ok) := takeOne level
  let trec := if known && last' == last && last' != some t then slice e 32 16 else timeRecord t (Img.scale q.img) ((d.onDie n).stampFlags (Img.scale q.img) q.stamp)
  let adm := (leAt e 56 4 + boolNat ok) % 2 ^ 32
  let ref := (leAt e 60 4 + boolNat !ok) % 2 ^ 32
  let d := d.lpost (a + 64 * w) (clientEntry key q.ipv6 cls gen level trec (q.stamp / 65536) adm ref)
  (d.dieCount n 0x21, ok)

/-! ## Arrival buffer (R251, R252) -/

/-- Cells of the context partition of die n. -/
def Dev.ctxPartition (d : Dev) (n : Nat) : Nat := (252 - (d.pos.hostKib[n]?).getD 0) * 16

/-- Context cells in use. -/
def Die.ctxCells (x : Die) : Nat := x.queries.foldl (fun a q => a + q.cells) 0

/-- Shows the context cells in use. -/
def Dev.showCells (d : Dev) (n : Nat) : Dev := d.set (F.ARR_STATUS_CTX_CELLS n) (d.die n).ctxCells

/-! ## Queries -/

def Dev.query (d : Dev) (n id : Nat) : Option Query := (d.die n).queries.find? (·.id = id)

def Dev.setQuery (d : Dev) (n : Nat) (q : Query) : Dev :=
  d.setDie n { d.die n with queries := (d.die n).queries.map fun p => if p.id = q.id then q else p }

def Dev.dropQuery (d : Dev) (n id : Nat) : Dev :=
  (d.setDie n { d.die n with queries := (d.die n).queries.filter (·.id ≠ id) }).showCells n

/-- Adds a query and answers its number. -/
def Dev.addQuery (d : Dev) (n : Nat) (q : Query) : Dev × Nat :=
  let x := d.die n
  let q := { q with id := x.nextQuery }
  ((d.setDie n { x with queries := x.queries ++ [q], nextQuery := x.nextQuery + 1 }).showCells n, q.id)

end Sys2Proof.Machine
end

