-- ==== Sys2Proof/Machine/Reply.lean ====
section
/-! DEFINITION. The frame of a reply (R258), NTP requests and replies (R278 to R293), housekeeping replies (R259). Frames are built without FCS. v is the device as a request sees it (R34). -/

namespace Sys2Proof.Machine

/-! ## Frames -/

/-- An outcome of a check made in-stream, before admission (R278, R259, R308, R309). -/
inductive Pre where
  /-- OTHER_ACT: to the host, or a parse DROP. -/
  | other
  /-- To the host as context 0, with a REASON of R338. -/
  | host (reason : Nat)
  /-- A silent refusal before admission. -/
  | silent
  /-- Denied by the access list, to be answered with DENY (R290). -/
  | denied
  | accept
  /-- An Announce for the BMCA (R321). -/
  | announce
deriving DecidableEq, Repr

/-- An IPv4 header without options (R258). -/
def ip4Header (tos len id : Nat) (df : Bool) (ttl proto : Nat) (src dst : List Byte) : List Byte :=
  let a := [0x45, byte tos] ++ beBytes 2 len ++ beBytes 2 id ++ beBytes 2 (0x4000 * boolNat df) ++ [byte ttl, byte proto]
  let b := src ++ dst
  a ++ beBytes 2 (inetSum (a ++ [0, 0] ++ b)) ++ b

/-- An IPv6 header with flow label 0 (R258). -/
def ip6Header (tc len proto hop : Nat) (src dst : List Byte) : List Byte :=
  beBytes 4 (0x60000000 + tc * 2 ^ 20) ++ beBytes 2 len ++ [byte proto, byte hop] ++ src ++ dst

/-- A UDP datagram with its checksum over the pseudo-header. -/
def udpPacket (v6 : Bool) (src dst : List Byte) (sport dport : Nat) (pay : List Byte) : List Byte :=
  let len := 8 + pay.length
  let ph := if v6 then src ++ dst ++ beBytes 4 len ++ beBytes 4 17 else src ++ dst ++ [0, 17] ++ beBytes 2 len
  let h := beBytes 2 sport ++ beBytes 2 dport ++ beBytes 2 len
  let c := inetSum (ph ++ h ++ [0, 0] ++ pay)
  h ++ beBytes 2 (if c = 0 then 0xFFFF else c) ++ pay

/-- An ICMP or ICMPv6 message with its checksum in bytes 2 and 3; ph: pseudo-header, empty for ICMP. -/
def icmpPacket (ph msg : List Byte) : List Byte :=
  let m := patch msg 2 [0, 0]
  patch m 2 (beBytes 2 (inetSum (ph ++ m)))

/-- Padded with zeros to 60 B, so that the frame has 64 B with its FCS. -/
def pad60 (f : List Byte) : List Byte := f ++ zeros (60 - f.length)

def Img.srcMac (m : Img) : List Byte := Img.bytes m 0x20 6
def Img.addr (m : Img) : List Byte := Img.bytes m 0x30 16

/-- The Ethernet header of a reply with the request's tags, the outer PCP replaced when PCP_SET is 1 (R258). -/
def Query.ethHeader (q : Query) (dst : List Byte) : List Byte :=
  let tags := slice q.bytes 12 (4 * q.ntags)
  let tags := if q.ntags > 0 ∧ Img.b q.img 0x24 16 then
      patch tags 2 (beBytes 2 (beAt tags 2 2 % 8192 + 8192 * Img.f q.img 0x24 19 17)) else tags
  dst ++ Img.srcMac q.img ++ tags ++ slice q.bytes (12 + 4 * q.ntags) 2

/-- Traffic class byte of a reply: DSCP under DSCP_SET, ECN 0. -/
def Query.tos (q : Query) : Nat :=
  let req := if q.ipv6 then beAt q.bytes q.l3 2 / 16 % 256 else beAt q.bytes (q.l3 + 1) 1
  4 * (if Img.b q.img 0x28 14 then Img.f q.img 0x28 13 8 else req / 4)

def Query.reqSrc (q : Query) : List Byte := q.source
def Query.reqDst (q : Query) : List Byte := if q.ipv6 then slice q.bytes (q.l3 + 24) 16 else slice q.bytes (q.l3 + 16) 4

/-- A reply over IP: protocol and IP payload. -/
def Query.ipReply (q : Query) (src dst : List Byte) (proto hop : Nat) (pay : List Byte) : List Byte :=
  if q.ipv6 then ip6Header q.tos pay.length proto hop src dst ++ pay
  else ip4Header q.tos (20 + pay.length) (beAt q.bytes (q.l3 + 4) 2) (Img.b q.img 0x28 15) hop proto src dst ++ pay

/-- A UDP reply to a request (R258). -/
def Query.udpReply (q : Query) (pay : List Byte) : List Byte :=
  let src := q.reqDst
  let dst := q.reqSrc
  let u := udpPacket q.ipv6 src dst (beAt q.bytes (q.l4 + 2) 2) (beAt q.bytes q.l4 2) pay
  pad60 (q.ethHeader (slice q.bytes 6 6) ++ q.ipReply src dst 17 (Img.f q.img 0x28 7 0) u)

/-- Length of the link and network headers of a reply to a UDP request. -/
def Query.udpHeaders (q : Query) : Nat := 14 + 4 * q.ntags + (if q.ipv6 then 40 else 20) + 8

/-- The UDP payload of a request, from the payload mark to the datagram's end. -/
def Query.payload (q : Query) : List Byte :=
  let fin := min q.bytes.length (q.l4 + beAt q.bytes (q.l4 + 4) 2)
  if q.pay ≥ fin then [] else slice q.bytes q.pay (fin - q.pay)

/-! ## Quality at an instant (R284, R285, R318) -/

/-- Selector state and bound E in ns of a scale code; an unbounded E selects FREE_RUN. -/
def Dev.stateAndBound (v : Dev) (code r16 : Nat) : Nat × Option Nat :=
  let e := v.boundOf code r16
  (if e.isNone then 0 else (v.qualityOf code r16).state, e)

/-- The first leap entry ahead of a TAI time within 86,400 s, as +1 or -1 (R287, R320); 0 if none. -/
def Dev.leapAhead (v : Dev) (t16 : Int) : Int :=
  match v.ts.leaps.find? (fun l => t16 < (l.sec * sec16 : Nat)) with
  | none => 0
  | some l =>
    if ((l.sec : Int) - 86400) * sec16 ≤ t16 then l.offset - utcOffset v.ts.leaps v.utcBase t16 else 0

/-! ## NTP -/

/-- MAP entry of a selector state (R286): STRATUM, UNSYNC, SILENT. -/
def Img.map (m : Img) (st : Nat) : Nat × Bool × Bool :=
  let w := match st with
    | 0 => Img.f m 0x44 15 0
    | 1 => Img.f m 0x44 31 16
    | 2 => Img.f m 0x48 15 0
    | 3 => Img.f m 0x48 31 16
    | _ => Img.f m 0x4C 15 0
  (w % 256, bit w 8, bit w 9)

/-- A source matches access-list entry k (R289). -/
def Query.aclMatch (q : Query) (k : Nat) : Bool :=
  let p := Img.f q.img 0xA0 (8 * k + 7) (8 * k)
  let a := Img.bytes q.img (0x60 + 16 * k) (if q.ipv6 then 16 else 4)
  Img.b q.img 0xA4 k && Img.b q.img 0xA4 (4 + k) == q.ipv6 && maskAddr a p == maskAddr q.source p

/-- The access list denies the source (R289). -/
def Query.aclDenied (q : Query) : Bool :=
  q.ip && (List.range 4).any q.aclMatch != Img.b q.img 0x40 5

/-- The in-stream checks of an NTP or NTS context (R278). -/
def Query.ntpCheck (v : Dev) (q : Query) : Pre :=
  let p := q.payload
  let b0 := beAt p 0 1
  let vn := b0 / 8 % 8
  let nts := Img.proto q.img == 1
  if p.length < 48 ∨ b0 % 8 ≠ 3 ∨ (vn ≠ 3 ∧ vn ≠ 4) then .other
  else if vn = 3 ∧ nts then .other
  else if p.length > 48 ∧ !nts ∧ !Img.b q.img 0x40 2 then .other
  else if nts ∧ p.length > Img.f q.img 0xB0 15 0 then .other
  else if q.aclDenied then (if Img.b q.img 0x40 4 then .denied else .silent)
  else if (Img.map q.img (v.stateAndBound (Img.scale q.img) q.stamp).1).2.2 then .silent
  else .accept

/-- Time of an instant for a context in 2^-16 ns: TAI, UTC or smeared UTC (R281). -/
def Dev.ctxTime (v : Dev) (m : Img) (x16 : Nat) : Int :=
  let code := Img.scale m
  let t := (v.ts.time16 code x16).getD 0
  if !Img.b m 0 5 then t
  else if !Img.b m 0 6 then utcOf v.ts.leaps v.utcBase t
  else (smearOf v.ts.leaps v.utcBase (Img.f m 8 16 0) (fun l => l.added.getD code 0) t).1

/-- NTP timestamp of a time (R281 step 3). -/
def ntpStamp (t16 : Int) : List Byte :=
  let s := t16 / (sec16 : Int)
  let r := (t16 - s * sec16).toNat
  beBytes 4 ((s + 2208988800) % (2 ^ 32 : Nat)).toNat ++ beBytes 4 ((r / 65536 * 2 ^ 32 + r % 65536 * 65536) / 1000000000)

/-- The leap indicator (R287). -/
def Query.li (v : Dev) (q : Query) (unsync : Bool) : Nat :=
  if unsync then 3
  else if !Img.b q.img 0 5 || Img.b q.img 0 6 then 0
  else
    let d := v.leapAhead ((v.ts.time16 (Img.scale q.img) q.stamp).getD 0)
    if d > 0 then 1 else if d < 0 then 2 else 0

/-- Root dispersion in NTP short format (R288). -/
def rootDispersion (add : Nat) (e : Option Nat) : Nat :=
  match e with
  | none => 0xFFFFFFFF
  | some e => min 0xFFFFFFFF (add + cdiv (e * 65536) 1000000000)

/-- Poll of a reply: the request's, clamped, as signed log2 s (R280). -/
def Query.poll (q : Query) (rate : Bool) : Nat :=
  let p := toSigned 8 (beAt q.payload 2 1)
  let p := min (max p (toSigned 8 (Img.f q.img 0x5C 7 0))) (toSigned 8 (Img.f q.img 0x5C 15 8))
  ofSigned 8 (if rate then max p (toSigned 8 (Img.f q.img 0x5C 23 16)) else p)

/-- The header of a Kiss-o'-Death (R292). -/
def Query.kiss (q : Query) (code : Nat) : List Byte :=
  let x := slice q.payload 40 8
  [byte (3 * 64 + beAt q.payload 0 1 / 8 % 8 * 8 + 4), 0, byte (q.poll (code == 0x52415445)), 0xE3] ++ zeros 8 ++
    beBytes 4 code ++ zeros 8 ++ x ++ x ++ x

/-- The header of a time reply launched at λ (R280 to R288). -/
def Query.ntpHeader (v : Dev) (q : Query) (lam : Nat) : List Byte :=
  let code := Img.scale q.img
  let (st, e) := v.stateAndBound code q.stamp
  let (stratum, unsync, _) := Img.map q.img st
  let ref := match (v.scale (v.codeScale code q.stamp)).lockedQ.head? with
    | some x => ntpStamp (v.ctxTime q.img (ticks16 x))
    | none => zeros 8
  [byte (q.li v unsync * 64 + beAt q.payload 0 1 / 8 % 8 * 8 + 4), byte stratum, byte (q.poll false), 0xE3] ++
    beBytes 4 (Img.f q.img 0x50 31 0) ++ beBytes 4 (rootDispersion (Img.f q.img 0x54 31 0) e) ++
    Img.bytes q.img 0x58 4 ++ ref ++ slice q.payload 40 8 ++
    ntpStamp (v.ctxTime q.img q.stamp) ++ ntpStamp (v.ctxTime q.img lam)

/-- Reply and outcome of an NTP request (R280, R290, R291). -/
def Query.ntpReply (v : Dev) (q : Query) (lam : Nat) : Option (List Byte) × Nat :=
  if q.denied then (some (q.udpReply (q.kiss 0x44454E59)), ocKodDeny)
  else if q.refused then
    if Img.b q.img 0x40 3 then (some (q.udpReply (q.kiss 0x52415445)), ocKodRate) else (none, ocSilent)
  else (some (q.udpReply (q.ntpHeader v lam)), ocAnswered)

/-! ## Housekeeping replies (R259) -/

/-- Offset of the message after the IP header: the L4 mark, or the end of the fixed header. -/
def Query.msgOfs (q : Query) : Nat :=
  if q.l4 ≠ 0 then q.l4 else if q.ipv6 then q.l3 + 40 else q.l3 + beAt q.bytes q.l3 1 % 16 * 4

/-- The IP payload that a request's length field gives, from msgOfs. -/
def Query.message (q : Query) : List Byte :=
  let fin := if q.ipv6 then q.l3 + 40 + beAt q.bytes (q.l3 + 4) 2 else q.l3 + beAt q.bytes (q.l3 + 2) 2
  let fin := min fin q.bytes.length
  slice q.bytes q.msgOfs (fin - q.msgOfs)

/-- Pseudo-header of an ICMPv6 message. -/
def icmp6Pseudo (src dst : List Byte) (len : Nat) : List Byte := src ++ dst ++ beBytes 4 len ++ beBytes 4 58

/-- Conditions on a housekeeping request (R259). -/
def Query.hkCheck (q : Query) : Pre :=
  let addr := Img.addr q.img
  let m := q.message
  let arp := 14 + 4 * q.ntags
  let ok := match Img.proto q.img with
    | 4 => beAt q.bytes (arp + 6) 2 == 1 && slice q.bytes (arp + 24) 4 == addr.take 4
    | 5 => q.ipv6 && beAt m 0 1 == 135 && decide (m.length ≥ 24) && slice m 8 16 == addr && beAt q.bytes (q.l3 + 7) 1 == 255 &&
        inetOk (icmp6Pseudo q.reqSrc q.reqDst m.length ++ m)
    | 6 => q.ip && !q.ipv6 && beAt m 0 1 == 8 && decide (m.length ≥ 8) && q.reqDst == addr.take 4
    | _ => q.ipv6 && beAt m 0 1 == 128 && decide (m.length ≥ 8) && q.reqDst == addr
  if ok then .accept else .host 4

/-- Neighbour Advertisement for a solicitation: destination MAC and packet. -/
def Query.advertise (q : Query) : List Byte :=
  let addr := Img.addr q.img
  let unspec := q.reqSrc == zeros 16
  let dst := if unspec then [0xFF, 0x02] ++ zeros 13 ++ [1] else q.reqSrc
  let flags := 128 * boolNat (Img.b q.img 0x40 0) + 64 * boolNat (!unspec) + 32 * boolNat (Img.b q.img 0x40 1)
  let m := [136, 0, 0, 0, byte flags, 0, 0, 0] ++ addr ++ [2, 1] ++ Img.srcMac q.img
  q.ethHeader (slice q.bytes 6 6) ++ q.ipReply addr dst 58 255 (icmpPacket (icmp6Pseudo addr dst m.length) m)

/-- The reply of a housekeeping context. -/
def Query.hkReply (q : Query) : List Byte :=
  let addr := Img.addr q.img
  let arp := 14 + 4 * q.ntags
  let m := q.message
  let hop := Img.f q.img 0x28 7 0
  match Img.proto q.img with
  | 4 =>
    let f := q.ethHeader (slice q.bytes (arp + 8) 6) ++ slice q.bytes arp 6 ++ [0, 2] ++ Img.srcMac q.img ++ addr.take 4 ++
      slice q.bytes (arp + 8) 10
    f ++ zeros (q.bytes.length - f.length)
  | 5 => pad60 q.advertise
  | 6 => pad60 (q.ethHeader (slice q.bytes 6 6) ++ q.ipReply q.reqDst q.reqSrc 1 hop (icmpPacket [] (patch m 0 [0])))
  | _ => pad60 (q.ethHeader (slice q.bytes 6 6) ++ q.ipReply q.reqDst q.reqSrc 58 hop
      (icmpPacket (icmp6Pseudo q.reqDst q.reqSrc m.length) (patch m 0 [129])))

end Sys2Proof.Machine
end

