-- ==== Sys2Proof/Machine/Nts.lean ====
section
/-! DEFINITION. The NTS exchange, cookies and the keyring (R38, R294 to R302). -/

namespace Sys2Proof.Machine

/-! ## Keyring (R298, R299) -/

/-- The role of keyring entry k: 0 PREVIOUS, 1 CURRENT, 2 NEXT, 3 SPARE. -/
def Dev.ntsRole (v : Dev) (k : Nat) : Nat :=
  let r := (v.reg A.NTS_ROLES).toNat
  if r % 4 = k then 0 else if r / 4 % 4 = k then 1 else if r / 16 % 4 = k then 2 else 3

/-- The entry that holds a role. -/
def Dev.ntsHolder (v : Dev) (role : Nat) : Nat := (v.reg A.NTS_ROLES).toNat / 4 ^ role % 4

/-- Master key of a valid entry: the material of its key slot. -/
def Dev.ntsKey (v : Dev) (k : Nat) : Option (List Byte) :=
  if !v.flag (F.NTS_KEY_1_VALID k) then none
  else match v.keys.slots[v.get (F.NTS_KEY_1_SLOT k)]? with
    | some (some s) => some s.material
    | _ => none

/-- The key that accepts a cookie's KEY_ID at an instant (R299). -/
def Dev.ntsAccepts (v : Dev) (id r16 : Nat) : Option (List Byte) :=
  (List.range 4).findSome? fun k =>
    if (v.reg (A.NTS_KEY k)).toNat ≠ id then none else
    match v.ntsRole k with
    | 0 => if r16 < ticks16 (v.get64 A.NTS_PREV_UNTIL) then v.ntsKey k else none
    | 1 | 2 => v.ntsKey k
    | _ => none

/-- The entry that mints, its KEY_ID and key (R299). -/
def Dev.ntsMints (v : Dev) : Option (Nat × Nat × List Byte) :=
  let k := v.ntsHolder 1
  (v.ntsKey k).map fun m => (k, (v.reg (A.NTS_KEY k)).toNat, m)

/-! ## Cookies (R297) -/

/-- A cookie that carries two keys under a master key. -/
def cookie (id : Nat) (master nonce c2s s2c : List Byte) : List Byte :=
  let kid := beBytes 4 id
  let (tag, c) := sivSeal master [kid, nonce] ([0, 0x0F, 0, 0] ++ c2s ++ s2c)
  kid ++ nonce ++ c ++ tag

/-- The keys of a cookie, if it verifies under a master key and its AEAD id is 15. -/
def openCookie (master c : List Byte) : Option (List Byte × List Byte) :=
  match sivOpen master [slice c 0 4, slice c 4 16] (slice c 88 16) (slice c 20 68) with
  | none => none
  | some p => if beAt p 0 2 = 15 then some (slice p 4 32, slice p 36 32) else none

/-- Nonce value of an index for a request (R38). -/
def Dev.nonce (v : Dev) (n : Nat) (q : Query) (idx : Nat) : List Byte :=
  cmac v.keys.nonceKey ([byte (devLink n q.link)] ++ leBytes 8 (q.stamp / 65536) ++ leBytes 2 (q.stamp % 65536) ++ [byte idx])

/-! ## Requests (R294) -/

/-- Extension fields from an offset: type, offset, length; none when they do not fill the payload exactly or a length is bad. -/
def extFields (p : List Byte) : Nat → Nat → Option (List (Nat × Nat × Nat))
  | 0, _ => none
  | fuel + 1, o =>
    if o = p.length then some [] else
    let len := beAt p (o + 2) 2
    if o + 4 > p.length ∨ len % 4 ≠ 0 ∨ len < 16 ∨ o + len > p.length then none
    else (extFields p fuel (o + len)).map ((beAt p o 2, o, len) :: ·)

def pad4 (n : Nat) : Nat := (n + 3) / 4 * 4

/-- What a well-formed NTS request carries (R294). -/
structure NtsReq where
  uid : List Byte
  cookie : List Byte
  placeholders : Nat
  authAt : Nat
  nonce : List Byte
  cipher : List Byte
deriving DecidableEq, Repr

def ntsRequest (p : List Byte) : Option NtsReq :=
  match extFields p 400 48 with
  | none => none
  | some fs =>
    let of (t : Nat) := fs.filter (·.1 = t)
    match of 0x0104, of 0x0204, of 0x0404, fs.getLast? with
    | [(_, u, ul)], [(_, c, cl)], [(_, a, al)], some (lt, _, _) =>
      let ph := of 0x0304
      let nl := beAt p (a + 4) 2
      let el := beAt p (a + 6) 2
      if ul < 36 ∨ cl ≠ 108 ∨ lt ≠ 0x0404 ∨ ph.length > 7 ∨ ph.any (·.2.2 != cl) ∨
          nl < 16 ∨ nl > 32 ∨ el < 16 ∨ al < 8 + pad4 nl + pad4 el then none
      else some { uid := slice p u ul, cookie := slice p (c + 4) 104, placeholders := ph.length, authAt := a
                  nonce := slice p (a + 8) nl, cipher := slice p (a + 8 + pad4 nl) el }
    | _, _, _, _ => none

/-! ## Replies (R295, R296) -/

/-- Header and Unique Identifier followed by an authenticator that seals plaintext under the S2C key (R296). -/
def sealedPayload (hdr uid s2c nonce plain : List Byte) : List Byte :=
  let (tag, c) := sivSeal s2c [hdr ++ uid, nonce] plain
  hdr ++ uid ++ beBytes 2 0x0404 ++ beBytes 2 (24 + 16 + c.length) ++ beBytes 2 16 ++ beBytes 2 (16 + c.length) ++
    nonce ++ tag ++ c

/-- The decision of an admitted NTS request launched at λ (R295): reply, outcome, cookies minted and the entry that minted them. -/
def Query.ntsReply (v : Dev) (n : Nat) (q : Query) (lam : Nat) : Option (List Byte) × Nat × Nat × Nat :=
  let silent := ((none, ocSilent, 0, 0) : Option (List Byte) × Nat × Nat × Nat)
  match ntsRequest q.payload with
  | none => silent
  | some r =>
    let nak := if Img.b q.img 0xB0 20 then (some (q.udpReply (q.kiss 0x4E54534E ++ r.uid)), ocNak, 0, 0) else silent
    match (v.ntsAccepts (beAt r.cookie 0 4) q.stamp).bind (openCookie · r.cookie) with
    | none => nak
    | some (c2s, s2c) =>
      match sivOpen c2s [q.payload.take r.authAt, r.nonce] (r.cipher.take 16) (r.cipher.drop 16) with
      | none => silent
      | some _ =>
        let kod (code : Nat) := some (q.udpReply (sealedPayload (q.kiss code) r.uid s2c (v.nonce n q 0) []))
        if q.denied then (kod 0x44454E59, ocKodDeny, 0, 0)
        else if q.refused then (if Img.b q.img 0x40 3 then (kod 0x52415445, ocKodRate, 0, 0) else silent)
        else match v.ntsMints with
          | none => nak
          | some (k, id, m) =>
            let count := min (1 + r.placeholders) (Img.f q.img 0xB0 19 16)
            let cookies := (List.range count).flatMap fun i =>
              [0x02, 0x04, 0, 108] ++ cookie id m (v.nonce n q (i + 1)) c2s s2c
            (some (q.udpReply (sealedPayload (q.ntpHeader v lam) r.uid s2c (v.nonce n q 0) cookies)), ocAnswered, count, k)

end Sys2Proof.Machine
end

