-- ==== Sys2Proof/Machine/Ptp.lean ====
section
/-! DEFINITION. PTP messages and replies (R306 to R313, R318 to R320), the session table and unicast negotiation (R323 to R325). Layouts that the spec names by IEEE 1588 only (TLV bodies, the headers of requests) are PRESUMED from that standard. -/

namespace Sys2Proof.Machine

/-! ## Received messages (R307, R308) -/

/-- Offset of the PTP message: the payload mark, or the byte after the EtherType. -/
def Query.ptpOfs (q : Query) : Nat := if q.pay ≠ 0 then q.pay else 14 + 4 * q.ntags

/-- The PTP message of a request: the UDP payload, or the rest of the frame. -/
def Query.ptp (q : Query) : List Byte :=
  let fin := if q.l4 ≠ 0 then min q.bytes.length (q.l4 + beAt q.bytes (q.l4 + 4) 2) else q.bytes.length
  slice q.bytes q.ptpOfs (fin - q.ptpOfs)

/-- Base length of a message type. -/
def ptpBase (ty : Nat) : Nat :=
  match ty with
  | 0 | 1 | 8 | 12 => 44
  | 2 | 3 | 9 | 10 => 54
  | 11 => 64
  | 13 => 48
  | _ => 34

/-- Own sourcePortIdentity of an instance. -/
def Img.portId (m : Img) : List Byte := Img.bytes m 0x50 8 ++ beBytes 2 (Img.f m 0x4C 15 0)

/-- A message is acted on (R307), under the image of the instance's event context. -/
def ptpAccepted (ev : Img) (p : List Byte) : Bool :=
  let len := beAt p 2 2
  beAt p 1 1 % 16 == 2 && decide (ptpBase (beAt p 0 1 % 16) ≤ len) && decide (len ≤ p.length) &&
    beAt p 4 1 == Img.f ev 0x40 23 16 && beAt p 0 1 / 16 == Img.f ev 0x40 27 24 && slice p 20 10 != Img.portId ev

/-- Image of the event context of a PTP context's instance: its own, or its PAIR's. -/
def Dev.eventImg (v : Dev) (n : Nat) (m : Img) : Img := if Img.proto m = 2 then m else v.img n (Img.f m 0x40 7 0)

/-- OTHER_ACT of a context: true to drop (R278, R330). -/
def Img.otherDrops (m : Img) : Bool :=
  (if Img.proto m = 3 then Img.f m 0x40 10 9 else Img.f m 0x40 1 0) == 1

/-- In-stream checks of a PTP context (R308, R309). -/
def Query.ptpCheck (v : Dev) (n : Nat) (q : Query) : Pre :=
  let ev := v.eventImg n q.img
  let p := q.ptp
  let ty := beAt p 0 1 % 16
  let st := Img.f ev 0x48 3 0
  if !ptpAccepted ev p then .other
  else if Img.proto q.img = 2 then
    match ty with
    | 1 => if !Img.b q.img 0x40 5 then .other else if st ≠ 6 then .silent else .accept
    | 2 => if !Img.b q.img 0x40 6 then .other else if st = 1 ∨ st = 2 ∨ st = 3 then .silent else .accept
    | 3 => .host 5
    | _ => .other
  else
    match ty with
    | 10 | 13 => .host 5
    | 11 => .announce
    | 12 => if Img.b q.img 0x40 8 then .accept else .other
    | _ => .other

/-! ## Messages (R310 to R312) -/

/-- The 34-byte common header. -/
def ptpHeader (sdoType verMinor len domain minorSdo flags : Nat) (corr : Int) (portId : List Byte) (seq ctl : Nat) (log : Nat) : List Byte :=
  [byte sdoType, byte verMinor] ++ beBytes 2 len ++ [byte domain, byte minorSdo] ++ beBytes 2 flags ++
    beBytes 8 (ofSigned 64 corr) ++ zeros 4 ++ portId ++ beBytes 2 seq ++ [byte ctl, byte log]

/-- A PTP timestamp: 48-bit seconds and nanoseconds, truncated (R311). -/
def ptpStamp (t16 : Int) : List Byte :=
  let (s, ns, _) := splitTime t16
  beBytes 6 s ++ beBytes 4 ns

/-- The FRAC field of a time (R312). -/
def fracOf (t16 : Int) : Int := t16 % 65536

/-- A sum of a request's correctionField (R312): the all-ones maximum is copied, an overflow gives it. -/
def corrSum (creq add : Int) : Int :=
  let big : Int := 0x7FFFFFFFFFFFFFFF
  if creq = big then big
  else if creq + add > big ∨ creq + add < -big - 1 then big
  else creq + add

/-- PTP time of an instant on a context's scale in 2^-16 ns (R307). -/
def Dev.ptpTime (v : Dev) (m : Img) (x16 : Nat) : Int := (v.ts.time16 (Img.scale m) x16).getD 0

/-- Delay_Resp or Pdelay_Resp for a request launched at λ (R310 to R312). -/
def Query.ptpReplyMsg (v : Dev) (q : Query) (lam : Nat) : List Byte :=
  let p := q.ptp
  let peer := beAt p 0 1 % 16 == 2
  let ta := v.ptpTime q.img q.stamp
  let creq := toSigned 64 (beAt p 8 8)
  let corr := if peer then corrSum creq (v.ptpTime q.img lam - ta) else corrSum creq (-(fracOf ta))
  let log := if peer || Img.b q.img 0x40 7 then 0x7F else Img.f q.img 0x44 23 16
  ptpHeader (beAt p 0 1 / 16 * 16 + if peer then 3 else 9) (beAt p 1 1 / 16 * 16 + 2) 54 (Img.f q.img 0x40 23 16) (beAt p 5 1)
      (beAt p 6 2 / 1024 % 2 * 1024) corr (Img.portId q.img) (beAt p 30 2) (if peer then 5 else 3) log ++
    (if peer then zeros 10 else ptpStamp ta) ++ slice p 20 10

/-- The frame of a reply that carries a PTP message on the request's transport. -/
def Query.ptpFrame (q : Query) (msg : List Byte) : List Byte :=
  if q.l4 ≠ 0 then q.udpReply msg else pad60 (q.ethHeader (slice q.bytes 6 6) ++ msg)

/-- Length of the reply frame of a message of a body length (R313). -/
def Query.ptpLen (q : Query) (body : Nat) : Nat :=
  max 64 ((if q.l4 ≠ 0 then q.udpHeaders else 14 + 4 * q.ntags) + body + 4)

/-! ## Quality (R318, R319) -/

/-- Bounds of clockAccuracy codes 0x1D to 0x30, in units of 0.5 ns (R319). -/
def accBounds : List Nat :=
  [2, 5, 20, 50, 200, 500, 2000, 5000, 20000, 50000, 200000, 500000, 2000000, 5000000, 20000000, 50000000,
   200000000, 500000000, 2000000000, 20000000000]

/-- clockAccuracy of a bound in ns: the least code whose bound is at least E. -/
def accuracyOf (e : Option Nat) : Nat :=
  match e with
  | none => 0xFE
  | some e => 0x1D + (accBounds.filter (· < 2 * e)).length

/-- offsetScaledLogVariance of a bound in ns: round(256 × log2(σ²)) + 0x8000 with σ = E / 3 in s, clamped (R319). -/
def varianceOf (e : Option Nat) : Nat :=
  match e with
  | none => 0xFFFF
  | some 0 => 0
  | some e =>
    -- f is the floor of 1,024 × log2(E / 3 s), and the variance is the rounding of half of it
    let f : Int := (Nat.log2 (e ^ 1024 * 2 ^ 65536 / 3000000000 ^ 1024) : Int) - 65536
    (min (max ((f + 1) / 2 + 0x8000) 0) 0xFFFE).toNat

/-- MAP word of a state (R318). -/
def Img.ptpMap (m : Img) (st : Nat) : Nat := Img.f m (0x70 + 4 * min st 4) 31 0

/-- clockClass, clockAccuracy, offsetScaledLogVariance at an instant, as 4 bytes. -/
def Dev.clockQuality (v : Dev) (m : Img) (x16 : Nat) : List Byte :=
  let (st, e) := v.stateAndBound (Img.scale m) x16
  let w := Img.ptpMap m st
  [byte w, byte (if w / 256 % 256 = 0 then accuracyOf e else w / 256)] ++
    beBytes 2 (if w / 65536 = 0 then varianceOf e else w / 65536)

/-- flagField of a message the device originates (R320). -/
def Dev.ptpFlags (v : Dev) (m : Img) (x16 : Nat) (two uni : Bool) : Nat :=
  let st := (v.stateAndBound (Img.scale m) x16).1
  let lp := v.leapAhead (v.ptpTime m x16)
  let b (i : Nat) (c : Bool) : Nat := 2 ^ i * boolNat c
  256 * (b 1 two + b 2 uni) + b 0 (decide (lp > 0)) + b 1 (decide (lp < 0)) + b 2 (v.flag F.UTC_STATUS_VALID) + b 3 true +
    b 4 (Img.b m 0x84 st) + b 5 (Img.b m 0x84 (8 + st)) + b 6 (Img.b m 0x84 (16 + st))

/-- Header of a message the device originates (R310). -/
def Dev.ownHeader (v : Dev) (m : Img) (x16 ty len : Nat) (two uni : Bool) (corr : Int) (seq ctl log : Nat) : List Byte :=
  ptpHeader (Img.f m 0x40 27 24 * 16 + ty) 0x12 len (Img.f m 0x40 23 16) (Img.f m 0x44 31 24) (v.ptpFlags m x16 two uni)
    corr (Img.portId m) seq ctl log

/-- A Sync launched at λ (R311, R312). -/
def Dev.syncMsg (v : Dev) (m : Img) (lam seq log : Nat) (two uni : Bool) : List Byte :=
  let t := v.ptpTime m lam
  v.ownHeader m lam 0 44 two uni (if two then 0 else fracOf t) seq 0 log ++ ptpStamp t

/-- The Follow_Up, launched at λ, of a Sync launched at sync. -/
def Dev.followMsg (v : Dev) (m : Img) (sync lam seq log : Nat) : List Byte :=
  let t := v.ptpTime m sync
  v.ownHeader m lam 8 44 false false (fracOf t) seq 2 log ++ ptpStamp t

/-- An Announce launched at λ, its inaccuracy fields filled (R311, R319). -/
def Dev.announceMsg (v : Dev) (m : Img) (lam seq log : Nat) (uni : Bool) : List Byte :=
  let t := v.ptpTime m lam
  let tl := Img.f m 0x8C 7 0
  let g := Img.f m 0x8C 15 8
  let tlv := Img.bytes m 0x90 tl
  let e := (v.stateAndBound (Img.scale m) lam).2
  let tlv := if g = 0 then tlv else
    (patch tlv g (beBytes 4 (min 0xFFFFFFFF (e.getD 0xFFFFFFFF)) ++ beBytes 4 (Img.f m 0x88 31 0))).take tl
  v.ownHeader m lam 11 (64 + tl) false uni 0 seq 5 log ++ ptpStamp t ++
    beBytes 2 (ofSigned 16 (utcOffset v.ts.leaps v.utcBase t)) ++ [0, byte (Img.f m 0x48 15 8)] ++ v.clockQuality m lam ++
    [byte (Img.f m 0x48 23 16)] ++ Img.bytes m 0x50 8 ++ [0, 0, byte (Img.f m 0x48 31 24)] ++ tlv

/-- A Delay_Req or Pdelay_Req launched at λ; A: the stream's delayAsymmetry in 2^-16 ns (R327). -/
def Dev.requestMsg (v : Dev) (m : Img) (lam seq : Nat) (peer uni : Bool) (a : Int) : List Byte :=
  v.ownHeader m lam (if peer then 2 else 1) (if peer then 54 else 44) false uni (if peer then 0 else -a) seq (if peer then 5 else 1) 0x7F ++
    ptpStamp (v.ptpTime m lam) ++ (if peer then zeros 10 else [])

/-- A device-originated frame to the context's own destination (R306, R314); event: port 319, else 320. -/
def Img.ownFrame (m : Img) (event : Bool) (msg : List Byte) : List Byte :=
  let port := if event then 319 else 320
  let tos := 4 * (if Img.b m 0x28 14 then Img.f m 0x28 13 8 else 0)
  let hop := Img.f m 0x28 7 0
  let eth (et : Nat) := Img.bytes m 0x58 6 ++ Img.srcMac m ++ beBytes 2 et
  let a := Img.addr m
  let dst := Img.bytes m 0x60 16
  match Img.f m 0x40 4 3 with
  | 0 => pad60 (eth 0x88F7 ++ msg)
  | 1 =>
    let u := udpPacket false (a.take 4) (dst.take 4) port port msg
    pad60 (eth 0x0800 ++ ip4Header tos (20 + u.length) 0 (Img.b m 0x28 15) hop 17 (a.take 4) (dst.take 4) ++ u)
  | _ =>
    let u := udpPacket true a dst port port msg
    pad60 (eth 0x86DD ++ ip6Header tos u.length 17 hop a dst ++ u)

/-! ## Session table (R323, R325) -/

/-- Fields of a session entry. Grants: 0 Announce, 1 Sync, 2 Delay_Resp. -/
def sesGranted (e : List Byte) (g : Nat) : Bool := bit (leAt e 10 1) (1 + g)
def sesLog (e : List Byte) (g : Nat) : Int := toSigned 8 (leAt e (36 + g) 1)
def sesExp (e : List Byte) (g : Nat) : Nat := leAt e (40 + 4 * g) 4

def sesEmpty (gen : Nat) (e : List Byte) : Bool := leAt e 10 1 % 2 == 0 || leAt e 60 2 != gen

/-- A grant is valid at a time: the time reads below its expiry (R325). -/
def sesValid (e : List Byte) (g : Nat) (t16 : Int) : Bool :=
  sesGranted e g && decide (toSigned 32 (ofSigned 32 ((sesExp e g : Int) - t16 / (sec16 : Int))) > 0)

/-- Address of session entry i of a link. -/
def Dev.sesAddr (d : Dev) (n l i : Nat) : Nat := d.get64 (A.ST_BASE n l) + 64 * i
def Dev.sesSets (d : Dev) (n l : Nat) : Nat := (d.reg (A.ST_SIZE n l)).toNat * 8

/-- Session index of a requester (identity of 10 bytes, domain), or of the way it would take; none: no free way. True when the entry exists. -/
def Dev.sesFind (led : Mem) (d : Dev) (n l : Nat) (ident : List Byte) (domain : Nat) : Option (Nat × Bool) :=
  let sets := d.sesSets n l
  if sets = 0 then none else
  let set := crc32cFrom d.keys.salt (ident ++ [byte domain]) % sets
  let ways := setWays led (d.get64 (A.ST_BASE n l) + 512 * set)
  let gen := (d.lnk n l).gen
  match ways.findIdx? fun e => !sesEmpty gen e && slice e 0 10 == ident && leAt e 11 1 == domain with
  | some w => some (set * 8 + w, true)
  | none => (ways.findIdx? (sesEmpty gen)).map fun w => (set * 8 + w, false)

/-- Messages per second of an interval, in 2^-128 messages/s. -/
def rateOf (log : Int) : Nat := 2 ^ (128 - log).toNat

/-- Share of one entry in the budget at a time: valid Sync and Announce grants. -/
def sesRate (e : List Byte) (t16 : Int) : Nat :=
  (if sesValid e 0 t16 then rateOf (sesLog e 0) else 0) + (if sesValid e 1 t16 then rateOf (sesLog e 1) else 0)

/-- Time of a session entry's instance at an instant. -/
def Dev.sesTime (v : Dev) (n : Nat) (e : List Byte) (x16 : Nat) : Int := (v.onDie n).ptpTime (v.img n (leAt e 39 1)) x16

/-- Budget in use on a link at an instant in 2^-128 messages/s (R325). -/
def Dev.ucSum (led : Mem) (v : Dev) (n l x16 : Nat) : Nat :=
  (v.lnk n l).sessions.foldl (fun a i =>
    let e := led.read (v.sesAddr n l i) 64
    a + sesRate e (v.sesTime n e x16)) 0

/-- Shows UC_USED and UC_SESSIONS for a budget in use. -/
def Dev.showUc (d : Dev) (n l sum : Nat) : Dev :=
  (d.set (F.UC_USED_U n l) (min 0xFFFFFFFF (cdiv sum (2 ^ 128)))).set (F.UC_SESSIONS_N n l) (d.lnk n l).sessions.length

/-- The 16-bit reversal of a number (R323, PHASE). -/
def bitRev16 (x : Nat) : Nat := (List.range 16).foldl (fun a i => a + (if bit x i then 2 ^ (15 - i) else 0)) 0

/-- A fresh session entry for a requester's frame (R323). -/
def Query.newSession (q : Query) (i gen ctx : Nat) : List Byte :=
  let p := q.ptp
  let tr := if q.l4 = 0 then 0 else if q.ipv6 then 2 else 1
  let addr := if tr = 0 then slice q.bytes 6 6 ++ zeros 10 else if tr = 1 then q.source ++ zeros 12 else q.source
  slice p 20 10 ++ [byte (1 + 16 * tr + 64 * boolNat (q.ntags != 0)), byte (beAt p 4 1)] ++ addr ++ slice q.bytes 6 6 ++
    (if q.ntags = 0 then zeros 2 else slice q.bytes 14 2) ++ zeros 3 ++ [byte ctx] ++ zeros 12 ++ zeros 6 ++ leBytes 2 (bitRev16 (i % 65536)) ++ leBytes 2 gen ++ zeros 2

/-- An entry with a grant set. -/
def sesGrant (e : List Byte) (g : Nat) (log exp : Nat) : List Byte :=
  let e := if sesGranted e g then e else patch e 10 [byte (leAt e 10 1 + 2 ^ (1 + g))]
  patch (patch e (36 + g) [byte log]) (40 + 4 * g) (leBytes 4 exp)

/-- An entry with a grant cleared; an entry without any grant is empty. -/
def sesClear (e : List Byte) (g : Nat) : List Byte :=
  let f := leAt e 10 1
  let f := putBit f (1 + g) false
  patch e 10 [byte (if f / 2 % 8 = 0 then f - f % 2 else f)]

/-- Grant of a PTP messageType: Announce 11, Sync 0, Delay_Resp 9. -/
def grantOf (ty : Nat) : Option Nat := match ty with | 11 => some 0 | 0 => some 1 | 9 => some 2 | _ => none

/-- Due index k of a schedule: whole intervals of 2^log s before a time, with a phase in 2^-16 interval (R315, R326). -/
def dueIndex (t16 : Int) (log : Int) (phase : Nat) : Int :=
  -- t / (2^log s) - phase / 65536, floored
  let den : Int := (sec16 : Int) * (2 ^ log.toNat : Nat) * 65536
  (t16 * (2 ^ (-log).toNat : Nat) * 65536 - phase * ((sec16 : Int) * (2 ^ log.toNat : Nat))) / den

/-! ## Signaling (R324) -/

/-- State of a Signaling decision: the entry, its index, whether it exists, the budget in use without it, marks set, reply TLVs, denials. -/
structure SigRun where
  entry : List Byte
  idx : Option Nat
  exists' : Bool
  sum : Nat
  marks : List UcMark := []
  tlvs : List Byte := []
  denied : Nat := 0
deriving DecidableEq, Repr

/-- TLVs of a message from an offset: type and value; none when malformed. -/
def tlvsOf (p : List Byte) (len : Nat) : Nat → Nat → List (Nat × List Byte)
  | 0, _ => []
  | fuel + 1, o =>
    if o + 4 > len then [] else
    let l := beAt p (o + 2) 2
    if o + 4 + l > len then [] else (beAt p o 2, slice p (o + 4) l) :: tlvsOf p len fuel (o + 4 + l)

/-- One TLV's decision at time t (R324). -/
def SigRun.tlv (r : SigRun) (d : Dev) (n : Nat) (q : Query) (ev : Img) (t16 : Int) (x : Nat × List Byte) : SigRun :=
  let body := x.2
  let ty := beAt body 0 1 / 16
  let g := grantOf ty
  if x.1 = 0x0004 then
    let log := toSigned 8 (beAt body 1 1)
    let want := beAt body 2 4
    let min' := match ty with
      | 0 => toSigned 8 (Img.f q.img 0x44 7 0)
      | 11 => toSigned 8 (Img.f q.img 0x44 15 8)
      | _ => toSigned 8 (Img.f q.img 0x44 23 16)
    let ann := r.exists' && sesValid r.entry 0 t16
    let p4 := Img.f ev 0x40 12 10 == 4 && ty != 11 && !ann
    let rest := sesRate r.entry t16 - (match g with
      | some k => if k < 2 && sesValid r.entry k t16 then rateOf (sesLog r.entry k) else 0
      | none => 0)
    let beyond := ty != 9 && decide (r.sum + rest + rateOf log > (d.reg (A.UC_BUDGET n q.link)).toNat * 2 ^ 128)
    let deny := g.isNone || decide (log < min') || p4 || r.idx.isNone || beyond
    let dur := if deny then 0 else min want (Img.f q.img 0x48 31 0)
    let tlv := beBytes 2 0x0005 ++ beBytes 2 8 ++ [byte (ty * 16), byte (ofSigned 8 log)] ++ beBytes 4 dur ++ [0, 1]
    match g, deny with
    | some k, false =>
      let exp := ofSigned 32 (t16 / (sec16 : Int) + dur)
      let r := { r with entry := sesGrant r.entry k (ofSigned 8 log) exp, exists' := true, tlvs := r.tlvs ++ tlv }
      if k = 2 then r else
      { r with marks := r.marks ++ [{ session := r.idx.getD 0, mtype := ty, k := dueIndex t16 log (leAt r.entry 58 2) }] }
    | _, _ => { r with tlvs := r.tlvs ++ tlv, denied := r.denied + 1 }
  else if x.1 = 0x0006 then
    let r := match g with
      | some k => if r.exists' && sesGranted r.entry k then { r with entry := sesClear r.entry k } else r
      | none => r
    { r with tlvs := r.tlvs ++ beBytes 2 0x0007 ++ beBytes 2 2 ++ [byte (ty * 16), 0] }
  else r

/-- The decision of a Signaling message launched at λ: the device and the reply, none for a silent refusal. -/
def Dev.signaling (led : Mem) (v d : Dev) (n : Nat) (q : Query) (lam : Nat) : Dev × Option (List Byte) :=
  let ev := v.eventImg n q.img
  let p := q.ptp
  let target := slice p 34 10
  let xs := tlvsOf p (beAt p 2 2) 64 44
  if (target ≠ Img.portId ev ∧ target ≠ List.replicate 10 0xFF) ∨ xs = [] ∨ xs.length > 4 then (d, none) else
  let l := q.link
  let t := v.ptpTime q.img q.stamp
  let found := d.sesFind led n l (slice p 20 10) (beAt p 4 1)
  let idx := found.map (·.1)
  let known := found.any (·.2)
  let i := idx.getD 0
  let gen := (d.lnk n l).gen
  let entry := if known then led.read (d.sesAddr n l i) 64 else q.newSession i gen (Img.f q.img 0x40 7 0)
  -- grants that have expired by r_a are gone
  let entry := if known then (List.range 3).foldl (fun e g => if sesGranted e g && !sesValid e g t then sesClear e g else e) entry else entry
  let sum := Dev.ucSum led { v with dies := d.dies } n l q.stamp - (if known then sesRate entry t else 0)
  let r : SigRun := { entry := entry, idx := idx, exists' := known, sum := sum }
  let r := xs.foldl (fun r x => r.tlv d n q ev t x) r
  if r.tlvs = [] then (d, none) else
  let seq := if known || r.exists' then leAt r.entry 56 2 else 0
  let live := leAt r.entry 10 1 / 2 % 8 != 0
  let x := d.lnk n l
  let d := if !(known || r.exists') then d else
    let e := patch r.entry 56 (leBytes 2 ((seq + 1) % 65536))
    let d := d.lpost (d.sesAddr n l i) e
    d.setLnk n l { x with sessions := if live then (if x.sessions.contains i then x.sessions else x.sessions ++ [i]) else x.sessions.filter (· ≠ i)
                          ucMarks := r.marks ++ x.ucMarks.filter fun m => !(r.marks.any fun k => k.session = m.session ∧ k.mtype = m.mtype) }
  let d := (d.count32 (A.UC_DENY n l) r.denied).showUc n l (sum + if live then sesRate r.entry t else 0)
  let msg := v.ownHeader ev lam 12 (44 + r.tlvs.length) false true 0 seq 5 0x7F ++ slice p 20 10 ++ r.tlvs
  (d, some (q.ptpFrame msg))

end Sys2Proof.Machine
end

