-- ==== Sys2Proof/Machine/Receive.lean ====
section
/-! DEFINITION. Reception: the MAC, delivery to host rings, contexts, admission, placement, the forming of replies (R230, R245, R251, R252, R260 to R268, R278, R307, R338 to R341). -/

namespace Sys2Proof.Machine

/-! ## Host receive rings (R338 to R341) -/

/-- The device may issue DMA. -/
def Dev.dmaOk (d : Dev) : Bool := d.pcie.busMaster && !d.flag F.PCIE_STATUS_D3

/-- The R7 record of an instant on a timeline: 0 A, 1 B, 2 served, 3 raw. -/
def Dev.stampRecord (d : Dev) (line r16 : Nat) : List Byte :=
  if line = 3 then rawRecord r16 (8 * boolNat (d.coarseAt (r16 / 65536)))
  else timeRecord ((d.ts.time16 line r16).getD 0) line (d.stampFlags line r16)

/-- Descriptors posted to the device: from head to tail - 1 (R336). -/
def Dev.posted' (d : Dev) (ring : Nat) : Nat :=
  let s := d.ringSize ring
  (d.get (ringTail ring) + s - d.get (ringHead ring)) % s

/-- The 32-byte write-back of a receive descriptor (R338). -/
def rxWriteBack (stamp : List Byte) (len status ctx reason l3 l4 pay rule flen fseq : Nat) : List Byte :=
  stamp ++ leBytes 2 len ++ leBytes 2 status ++ [byte ctx, byte reason, byte l3, byte l4, byte pay, byte rule] ++
    leBytes 2 flen ++ leBytes 4 fseq

/-- Writes a frame (without FCS) into k descriptors of a ring from its head and writes those back. -/
def Dev.rxWrite (host : Mem) (d : Dev) (ring k : Nat) (f : List Byte) (wb : Nat → Nat → List Byte) (discard : Bool) : Dev :=
  let buf := bits 14 8 (d.reg (ring + 8)) * 256
  let h := d.get (ringHead ring)
  let s := d.ringSize ring
  let d := (List.range k).foldl (fun d i =>
    let a := d.descAddr ring ((h + i) % s)
    let part := (f.drop (i * buf)).take buf
    let st := 1 + 2 * boolNat (i == 0) + 4 * boolNat (i + 1 == k) + 8 * boolNat discard
    (d.post (leNat (host.read a 8) / 64 * 64) part).post a (wb part.length st)) d
  let d := d.set (ringHead ring) ((h + k) % s)
  (List.range k).foldl (fun d _ => d.ringReport ring) d

/-- Cells of the host partition in use (R251). -/
def Die.hostCells (x : Die) : Nat := x.hostHeld.foldl (fun a h => a + h.2) 0

/-- Cells that host frames have given up by now leave the host partition (R251). -/
def Dev.hostFree (d : Dev) (n : Nat) : Dev :=
  let x := d.die n
  if x.hostHeld.all fun h => d.raw < h.1 then d else
  let x := { x with hostHeld := x.hostHeld.filter fun h => d.raw < h.1 }
  (d.setDie n x).set (F.ARR_STATUS_HOST_CELLS n) x.hostCells

/-- A host frame takes cells, until its write-back within 5 µs (R251, R340). -/
def Dev.hostTake (d : Dev) (n cells : Nat) : Dev :=
  let (k, d) := d.draw
  let x := d.die n
  let x := { x with hostHeld := (d.raw + 1 + Config.hostHold k % 4000, cells) :: x.hostHeld }
  (d.setDie n x).set (F.ARR_STATUS_HOST_CELLS n) x.hostCells

/-- A frame for the host on receive ring r: destination marks, STATUS bits above 3, REASON, CONTEXT. -/
def Dev.toHost (host : Mem) (d : Dev) (n l r stamp : Nat) (f : List Byte) (c : Class) (v6 : Bool) (ok4 : Bool) (reason ctx : Nat) : Dev :=
  let ring := A.RXR_BASE n r
  let cells := (f.length + 67) / 64
  let d := d.statAt n l 0x98 stamp
  if (d.die n).hostCells + cells > ((d.pos.hostKib[n]?).getD 0) * 16 then d.count32 (A.ARR_HOST_FULL n)
  else if d.get (ringState ring) ≠ stRunning ∨ !d.dmaOk ∨ d.posted' ring = 0 then d.count32 (A.RXR_NOBUF n r)
  else
    let d := d.hostTake n cells
    let w := c.walk
    let st := devLink n l * 16 + 256 * boolNat v6 + 512 * boolNat (w.ip4 == some true) + 1024 * boolNat ok4
    let rt := d.ringRt ring
    let stamp := (d.onDie n).stampRecord (d.get (F.RXR_CFG_SCALE n r)) stamp
    let wb (len s : Nat) := rxWriteBack stamp len (s + st) ctx reason w.l3 w.l4 w.pay c.rule f.length rt.seq
    let need := cdiv f.length (d.get (F.RXR_CFG_BUF n r) * 256)
    let have' := d.posted' ring
    let d := d.setRingRt ring { rt with seq := (rt.seq + 1) % 2 ^ 32 }
    if need ≤ have' then ((d.rxWrite host ring need f wb false).count32 (A.RXR_FRAMES n r)).dieCount n (0x30 + r) need
    else
      let d := (d.rxWrite host ring have' f wb true).dieCount n (0x30 + r) have'
      let d := (d.count32 (A.RXR_NOBUF n r)).count32 (A.RXR_DISCARD n r) have'
      d.raise (dieSrc n 11) (A.RING_BLK_STATUS n) r

/-! ## LATE (R41, R273) -/

/-- A LATE drop is counted on the link; outside faults it is itself a fault (R41). fault: the drop belongs to a fault already. -/
def Dev.lateDrop (d : Dev) (n l : Nat) (fault : Bool) : Dev :=
  let d := ((d.count32 (A.CAL_LATE n l)).setFlag (F.CAL_FLAGS_LATE_SEEN n l) true).dieCount n 0x08
  if fault then d
  else if d.inFault n then d.faultLost n
  else (d.raise 6 (A.CAL_FLAGS n l) l).faultPulse 0x09 n l (A.CAL_FLAGS n l) 1

/-! ## Forming a reply -/

/-- Reply and outcome of a query for a launch instant (R34), and the NTS keys it minted under: count and entry; Signaling is apart. -/
def Query.form (v : Dev) (n : Nat) (q : Query) (lam : Nat) : Option (List Byte) × Nat × Nat × Nat :=
  match Img.proto q.img with
  | 0 => let (r, oc) := q.ntpReply v lam; (r, oc, 0, 0)
  | 1 => q.ntsReply v n lam
  | p =>
    if q.refused then (none, ocSilent, 0, 0)
    else if p = 2 then (some (q.ptpFrame (q.ptpReplyMsg v lam)), ocAnswered, 0, 0)
    else (some q.hkReply, ocAnswered, 0, 0)

/-- The reply of a decided query as its launch instant λ stands: the device, and the query with its reply and outcome. -/
def Dev.formReply (led : Mem) (d : Dev) (n : Nat) (q : Query) : Dev × Query :=
  let v := d.seenAt n q.stamp
  let lam := q.lam.getD 0
  let (d, r, oc) :=
    if Img.proto q.img = 3 then
      let (d, r) := Dev.signaling led v d n q lam
      (d, r, if r.isSome then ocAnswered else ocSilent)
    else
      let (r, oc, k, e) := q.form v n lam
      (if k = 0 then d else d.count32 (A.NTS_KEY_2 e) k, r, oc)
  let q := { q with stage := .done, reply := r, outcome := some oc, cells := 0 }
  let d := if oc = ocSilent then d.silent n q else d
  match q.fallen with
  | none => ((d.setQuery n q).showCells n, q)
  | some tick =>
    let d := d.dropQuery n q.id
    (if oc = ocSilent then d else d.reachOutcome n (q.ordering oc tick), q)

/-- Shows the level of the dispatch queue (R264). -/
def Dev.showDispatch (d : Dev) (n : Nat) : Dev :=
  let k := ((d.die n).queries.filter (·.stage == .queued)).length
  (d.set (F.DISPATCH_STATUS_LEVEL n) k).set (F.DISPATCH_STATUS_PEAK n) (max k (d.get (F.DISPATCH_STATUS_PEAK n)))

/-- An admitted engine-path request enters the dispatch queue of 256 entries, or is lost. -/
def Dev.enqueue (d : Dev) (n : Nat) (q : Query) : Dev :=
  let k := ((d.die n).queries.filter (·.stage == .queued)).length
  let q := { q with stage := if k < 256 then .queued else .full }
  (d.setQuery n q).showDispatch n

/-- What follows once the bucket checks of a query are done: the grant check, the dispatch queue or the fast path. -/
def Dev.proceed (led : Mem) (d : Dev) (n : Nat) (q : Query) : Dev :=
  if Img.engine q.img then d.enqueue n q
  else if Img.proto q.img = 2 ∧ Img.b q.img 0x40 7 ∧ beAt q.ptp 0 1 % 16 = 1 ∧ !q.refused then d.setQuery n { q with stage := .grant }
  else (Dev.formReply led d n q).1

/-- Reserved length F of a reply (R268, R313). -/
def Query.reserve (q : Query) : Nat :=
  if Img.engine q.img then (if Img.f q.img 0x0C 31 16 = 0 then q.bytes.length + 4 else Img.f q.img 0x0C 31 16)
  else match Img.proto q.img with
    | 0 => max 64 (q.udpHeaders + 52)
    | 1 | 2 | 3 => q.ptpLen 54
    | _ => q.hkReply.length + 4

/-- A placement that the calendar cannot take (R272). -/
def Dev.calOverflow (d : Dev) (n l : Nat) (q : Query) : Dev :=
  let d := (d.setFlag (F.CAL_FLAGS_OVF n l) true).raise (dieSrc n 8) (A.CAL_FLAGS n l) l
  let d := (d.faultPulse 0x07 n l (A.CAL_FLAGS n l) 1).lateDrop n l true
  d.setDie n { d.die n with orderings := (d.die n).orderings ++ [q.ordering ocLate q.orderTick] }

/-- Placement and what follows it. client: step 3 of R260 is still to come. -/
def Dev.place (led : Mem) (d : Dev) (n : Nat) (q : Query) (client : Bool) : Dev :=
  let l := q.link
  let (d, id) := d.addQuery n q
  match d.placeReply n l q.need q.reserve id with
  | (d, none) => (d.dropQuery n id).calOverflow n l q
  | (d, some lam) =>
    let q := { q with id := id, lam := some lam }
    let d := (d.dieCount n (if Img.engine q.img then 0x07 else 0x06)).setQuery n q
    if client then d.setQuery n { q with stage := .client } else Dev.proceed led d n q

/-- The context partition has no room for a frame of a context (R252). -/
def Dev.ctxFull (d : Dev) (n : Nat) (q : Query) : Bool := decide ((d.die n).ctxCells + q.cells > d.ctxPartition n)

/-- A context frame that finds the context partition full is dropped and counted as LATE (R252); a request reaches that outcome. -/
def Dev.ctxDrop (d : Dev) (n : Nat) (q : Query) (request : Bool) : Dev :=
  let l := q.link
  let d := (d.setFlag (F.ARR_STATUS_CTX_FULL n) true).raise (dieSrc n 9) (A.ARR_STATUS n) l
  let d := (d.faultPulse 0x08 n l (A.ARR_STATUS n) 1).lateDrop n l true
  if request then d.setDie n { d.die n with orderings := (d.die n).orderings ++ [q.ordering ocLate q.orderTick] } else d

/-- Admission of a request that passed its in-stream checks (R260, R263). -/
def Dev.tryAdmit (led : Mem) (d : Dev) (n : Nat) (q : Query) : Dev :=
  let l := q.link
  let t := d.dieTime n (Img.scale q.img) q.stamp
  let (d, ok) := d.ctxBucket n l q.ctx q.stamp q.img t
  if !ok then (d.dieCount n 0x04).silent n q else
  let client := Img.b q.img 0 2 && q.ip && !q.denied
  let d := if client then d else (d.ctxCount n q.ctx 0 q.stamp).dieCount n 0x03
  Dev.place led d n { q with admitted := !client } client

/-- CLIENT_READ: the oldest request of a link that waits for its client entry. -/
def Dev.clientRead (led : Mem) (d : Dev) (n l : Nat) (ecc : Bool) : Dev :=
  match (d.die n).queries.find? (fun q => q.link = l ∧ q.stage = .client) with
  | none => d
  | some q =>
    let t := d.dieTime n (Img.scale q.img) q.stamp
    let (d, ok) := Dev.clientBucket led d n q t ecc
    let d := if ok then (d.ctxCount n q.ctx 0 q.stamp).dieCount n 0x03 else d.dieCount n 0x05
    Dev.proceed led d n { q with admitted := ok, refused := !ok }

/-- GRANT_CHECK: the oldest Delay_Req of a link that waits for its grant (R309 row 5). -/
def Dev.grantCheck (led : Mem) (d : Dev) (n l : Nat) (ecc : Bool) : Dev :=
  match (d.die n).queries.find? (fun q => q.link = l ∧ q.stage = .grant) with
  | none => d
  | some q =>
    let p := q.ptp
    let t := (d.seenAt n q.stamp).ptpTime q.img q.stamp
    let found := d.sesFind led n l (slice p 20 10) (beAt p 4 1)
    let ok := match found with
      | some (i, true) => !ecc && sesValid (led.read (d.sesAddr n l i) 64) 2 t
      | _ => false
    let d := if !ecc then d else match found with
      | some (i, true) =>
        let d := (d.ledgerUe.count32 (A.UC_ECC n l)).lpost (d.sesAddr n l i) (zeros 64)
        let x := d.lnk n l
        let d := d.setLnk n l { x with sessions := x.sessions.filter (· ≠ i) }
        ((d.showUc n l (Dev.ucSum led d n l q.stamp)).raise (dieSrc n 12) (A.CTX_STATUS n) l).faultPulse 0x0A n l (A.CTX_STATUS n)
      | _ => d
    (Dev.formReply led d n { q with refused := !ok }).1

/-! ## The MAC (R230, R245) -/

/-- Size bin of a frame length, as an offset in the statistics bank. -/
def sizeBin (f : Nat) : Nat :=
  if f ≤ 64 then 0x40 else if f ≤ 127 then 0x48 else if f ≤ 255 then 0x50 else if f ≤ 511 then 0x58
  else if f ≤ 1023 then 0x60 else if f ≤ 1518 then 0x68 else 0x70

/-- The counter of a frame that the MAC drops; none when it passes (R230). -/
def Dev.macDrop (d : Dev) (n l : Nat) (f : List Byte) (stamp : Nat) (codeErr : Bool) (t : Tags) : Option (List Nat) :=
  let op := beAt f (t.etOfs + 2) 2
  if f.length < 64 then some [0x28]
  else if f.length > 9600 then some [0x20]
  else if codeErr then some [0x18]
  else if f.drop (f.length - 4) ≠ fcsOf (f.take (f.length - 4)) then some [0x10]
  else if t.etype = 0x8808 then some (if op = 1 ∨ op = 0x101 then [0x30, 0x38] else [0x30])
  else if d.get (F.LINK_CTRL_STATE n l) = stStopping ∧ (d.lnk n l).downAt ≤ stamp then some [0xA0]
  else none

/-- Counts a frame that R230 passes. -/
def Dev.macPass (d : Dev) (n l stamp : Nat) (f : List Byte) : Dev :=
  let d := ((d.statAt n l 0 stamp).statAt n l 8 stamp f.length).statAt n l (sizeBin f.length) stamp
  let d := if slice f 0 6 = List.replicate 6 0xFF then d.statAt n l 0x78 stamp
    else if beAt f 0 1 % 2 = 1 then d.statAt n l 0x80 stamp else d
  d.dieCount n 0x02

/-- The device serves requests that arrive at an instant (R79). -/
def Dev.servesAt (d : Dev) (r16 : Nat) : Bool :=
  match d.md.serve with
  | none => false
  | some (e, enter) => if ticks16 e ≤ r16 then enter else !enter

/-- The need of a request: arrival end + P + T_TURN in 2^-16/625 tick (R235, R236, R268). -/
def needOf (stamp flen b125 : Nat) (p : Int) (turn : Nat) : Nat :=
  ((stamp * 625 + flen * b125 * 5 * 65536 + turn * 65536 * 500 : Nat) + p * 500).toNat

/-- A request of context c as the pipeline carries it. -/
def Dev.newQuery (v : Dev) (n l c stamp : Nat) (f : List Byte) (t : Tags) (w : Walk) (dRx : Int) : Query :=
  let img := v.img n c
  let body := f.take (f.length - 4)
  let isIp := t.etype == 0x0800 || t.etype == 0x86DD
  let l3 := if w.l3 ≠ 0 then w.l3 else if isIp then t.etOfs + 2 else 0
  let ver := beAt body l3 1 / 16
  { id := 0, link := l, ctx := c, img := img, bytes := body, stamp := stamp
    need := needOf stamp f.length (byte125 (v.linkMode n l)) (dRx + v.dTx n l) (Img.tTurn img)
    l3 := l3, l4 := w.l4, pay := if w.pay ≠ 0 then w.pay else if w.l4 ≠ 0 then w.l4 + 8 else 0
    ntags := t.tags.length, cells := cdiv f.length 64
    ipv6 := l3 != 0 && ver == 6, ip := l3 != 0 && (ver == 4 || ver == 6) }

/-- A frame of a context of a serving device. -/
def Dev.toContext (host led : Mem) (v d : Dev) (n l c stamp : Nat) (f : List Byte) (t : Tags) (cl : Class) (ok4 : Bool) (dRx : Int) : Dev :=
  let q := v.newQuery n l c stamp f t cl.walk dRx
  let ring := v.get (F.LINK_HOST_RING_RING n l)
  let ctx := d.statAt n l 0x90 stamp
  if Img.stream q.img then
    if ctx.ctxFull n q then ctx.ctxDrop n q false else
    { ctx with streams := (List.range 8).foldl (fun ss m =>
        if v.get (F.STR_CFG_LINK m) = devLink n l ∧ v.get (F.STR_CFG_CONTEXT m) = c then
          modAt ss m fun x => { x with inbox := x.inbox ++ [(stamp, q.ptp)] } else ss) ctx.streams }
  else
    let pre := match Img.proto q.img with
      | 0 | 1 => q.ntpCheck { v with ts := (v.ts.heldBy n).asOf stamp }
      | 2 | 3 => q.ptpCheck v n
      | _ => q.hkCheck
    match pre with
    | .other =>
      if Img.otherDrops q.img then d.count32 (A.PARSE_DROP n l)
      else Dev.toHost host d n l ring stamp q.bytes cl q.ipv6 ok4 2 c
    | .host reason => Dev.toHost host d n l ring stamp q.bytes cl q.ipv6 ok4 reason c
    | .silent => if ctx.ctxFull n q then ctx.ctxDrop n q true else ctx.silent n q
    | .announce =>
      if ctx.ctxFull n q then ctx.ctxDrop n q false else
      let x := ctx.lnk n l
      ctx.setLnk n l { x with announces := (x.announces ++ [(c, q.ptp)]) }
    | .denied => if ctx.ctxFull n q then ctx.ctxDrop n q true else Dev.tryAdmit led ctx n { q with denied := true }
    | .accept => if ctx.ctxFull n q then ctx.ctxDrop n q true else Dev.tryAdmit led ctx n q

/-- What the loopbacks of LINK_TEST make of an arriving frame (R249): none where it does not reach the MAC. With a test pattern no frame does; with the near-end loopback only what the link itself has sent; with the far-end loopback it is sent back as well, after a delay that is free. -/
def Dev.loopIn (d : Dev) (n l mii : Nat) (f : List Byte) : Option Dev :=
  if d.get (F.LINK_TEST_PRBS n l) ≠ 0 then none else
  match d.get (F.LINK_TEST_LOOP n l) with
  | 0 => some d
  | 1 => if (d.lnk n l).looped.contains f then some (d.setLnk n l { d.lnk n l with looped := (d.lnk n l).looped.erase f }) else none
  | _ => let (k, d) := d.draw
    some (d.emit (.frame n l (mii + Config.loopDelay k) f))

/-- A frame arrives whole on a link: instant of its first byte after the SFD at the MII in 2^-16 tick, bytes with FCS, a code error inside it. -/
def Dev.receive (host led : Mem) (d : Dev) (n l mii : Nat) (f : List Byte) (codeErr : Bool) : Dev :=
  if !d.diePowered n ∨ !d.linkUp n l then d else
  match d.loopIn n l mii f with
  | none => d
  | some d =>
  let dRx := (d.regsAt mii).dRx n l
  let stamp := stampOf mii dRx
  let v := d.regsAt stamp
  let t := tagsOf f (v.get (F.LINK_TPID_TPID n l))
  match d.macDrop n l f stamp codeErr t with
  | some cs => cs.foldl (fun d o => d.statAt n l o stamp) d
  | none =>
    let d := d.macPass n l stamp f
    let cl := v.classify n l f t
    let w := cl.walk
    let d := if cl.rule = 0 then d else d.count32 (A.RULE_6 n (cl.rule - 1))
    let ok4 := w.udp && udpOk (f.take (f.length - 4)) w.l3 w.l4
    if cl.dest = .drop then d.count32 (A.PARSE_DROP n l)
    else if w.ip4 = some false then d.count32 (A.L3_ERR n l)
    else if w.udp ∧ !ok4 then d.count32 (A.L4_ERR n l)
    else
      match cl.dest with
      | .drop => d
      | .host ring reason ctx =>
        let q := v.newQuery n l 0 stamp f t w dRx
        Dev.toHost host d n l ring stamp q.bytes cl q.ipv6 ok4 reason ctx
      | .context c =>
        if !d.servesAt stamp then d.statAt n l 0x88 stamp
        else Dev.toContext host led v d n l c stamp f t cl ok4 dRx

/-! ## Commands -/

/-- RECEIVE_FRAME (R230, R235, R242, R253, R260, R268, R338). -/
def execReceiveFrame (n l : Fin 4) (mii : Nat) (f : List Byte) (codeErr : Bool) (s : State) : Answer :=
  s.runM fun h led d => Dev.receive h led d n l mii f codeErr

/-- CLIENT_READ (R260 step 3, R262). -/
def execClientRead (n l : Fin 4) (ecc : Bool) (s : State) : Answer := s.runM fun _ led d => Dev.clientRead led d n l ecc

/-- GRANT_CHECK (R309, R323). -/
def execGrantCheck (n l : Fin 4) (ecc : Bool) (s : State) : Answer := s.runM fun _ led d => Dev.grantCheck led d n l ecc

end Sys2Proof.Machine
end

