-- ==== Sys2Proof/Machine/Engines.lean ====
section
/-! DEFINITION. Answer engines: dispatch and threads, parking, start-up, fatal errors and lockout, the changeover to the fallback clock (R48, R205 to R207, R264, R265, R410 to R415, R418, R419). -/

namespace Sys2Proof.Machine

/-! ## Engines and their threads -/

def Dev.eng (d : Dev) (n e : Nat) : Eng := ((d.die n).engines[e]?).getD {}
def Dev.setEng (d : Dev) (n e : Nat) (x : Eng) : Dev :=
  d.setDie n { d.die n with engines := setAt (d.die n).engines e x }

def Dev.engSt (d : Dev) (n e : Nat) : Nat := d.get (F.ENG_CTRL_STATE n e)

/-- Threads in flight on engine e of die n. -/
def Dev.threads (d : Dev) (n e : Nat) : Nat := ((d.die n).queries.filter (·.stage == .thread e)).length

/-- Shows the number of threads in flight. -/
def Dev.showThreads (d : Dev) (n e : Nat) : Dev := d.set (F.ENG_STATUS_THREADS n e) (d.threads n e)

/-- Engines of a die that are RUNNING. -/
def Dev.runningEngines (d : Dev) (n : Nat) : Nat :=
  ((List.range 4).filter fun e => d.engSt n e == stRunning).length

def Dev.setEngSt (d : Dev) (n e st : Nat) : Dev :=
  let d := d.set (F.ENG_CTRL_STATE n e) st
  d.set (F.DIE_INFO_RUNNING n) (d.runningEngines n)

/-- Unparked engines of a die other than e (R410). -/
def Dev.unparkedBut (d : Dev) (n e : Nat) : Nat :=
  ((List.range 4).filter fun k => k != e && d.flag (F.ENG_CTRL_ENABLE n k)).length

/-- Longest engine-path T_TURN of a die's valid contexts, in ticks rounded up (R415). -/
def Dev.longestTurn (d : Dev) (n : Nat) : Nat :=
  (List.range 255).foldl (fun a i =>
    let w := d.reg (A.CTX_LINE n i 0)
    if bit w.toNat 0 && bit w.toNat 1 then max a (cdiv (bits 15 0 (d.reg (A.CTX_LINE n i 1)) * 4) 5) else a) 0

/-! ## Dispatch (R264) -/

/-- The oldest entry of the dispatch queue, by arrival stamp. -/
def Dev.oldestQueued (d : Dev) (n : Nat) : Option Query :=
  ((d.die n).queries.filter (·.stage == .queued)).foldl (fun acc q =>
    match acc with
    | none => some q
    | some a => if q.stamp < a.stamp then some q else acc) none

/-- The RUNNING engine with the most free threads, among equals the lowest number; none when no thread is free. -/
def Dev.freestEngine (d : Dev) (n : Nat) : Option Nat :=
  (List.range 4).foldl (fun acc e =>
    if d.engSt n e = stRunning ∧ d.threads n e < 32 then
      (match acc with
       | none => some e
       | some a => if d.threads n e < d.threads n a then some e else acc)
    else acc) none

/-- The oldest entry goes to a thread. -/
def Dev.dispatch (d : Dev) (n : Nat) : Dev :=
  match d.oldestQueued n, d.freestEngine n with
  | some q, some e =>
    let d := d.setQuery n { q with stage := .thread e }
    ((d.setFlag (F.ENG_STATUS_GATED n e) false).showThreads n e).showDispatch n
  | _, _ => d

/-- A thread finishes its microcode: the reply goes to the transmit buffer (R264, R295, R324). -/
def Dev.threadDone (led : Mem) (d : Dev) (n id : Nat) : Dev :=
  match d.query n id with
  | none => d
  | some q =>
    match q.stage with
    | .thread e =>
      let d := (Dev.formReply led d n q).1
      let d := (d.count64 (A.ENG_DONE n e)).showThreads n e
      if d.threads n e = 0 then d.setEng n e { d.eng n e with idleSince := d.raw } else d
    | _ => d

/-- An idle engine gates its clock after 64 of its cycles: 35 ticks at 1.5 GHz, 64 at 800 MHz. -/
def Dev.clockGate (d : Dev) (n e : Nat) : Dev :=
  let wait := if d.flag (F.ENG_STATUS_SLOW_CLK n e) then 64 else 35
  if d.engSt n e = stRunning ∧ d.threads n e = 0 ∧ (d.eng n e).idleSince + wait ≤ d.raw then
    d.setFlag (F.ENG_STATUS_GATED n e) true
  else d

/-! ## Parking (R410, R411) -/

/-- "Engine park change" of a die (source k = 7). -/
def Dev.parkEvent (d : Dev) (n e : Nat) : Dev := d.raise (dieSrc n 7) (A.ENG_STATUS n e) e

/-- A start-up or a drain begins. -/
def Dev.engAct (d : Dev) (n e : Nat) (a : EnAct) : Dev :=
  match a with
  | .nothing => d
  | .start => (d.set (F.ENG_FAULT_LOCKOUT n) (putBit (d.get (F.ENG_FAULT_LOCKOUT n)) e false)).setEngSt n e stStarting
  | .stop => d.setEngSt n e stStopping

/-- Refusal of a request: 2 REFUSED_MIN, 3 REFUSED_ABSENT. was: the engine counts as unparked when the request comes. -/
def Dev.parkRefusal (d : Dev) (n e : Nat) (want was : Bool) : Option Nat :=
  if want then (if bit (d.get (F.DIE_INFO_ENG_MASK n)) e then none else some 3)
  else if was && decide (d.unparkedBut n e < d.get (F.DIE_INFO_E_MIN n)) then some 2 else none

/-- A write of ENG_CTRL.ENABLE. -/
def Dev.engEnable (d : Dev) (n e : Nat) (want : Bool) : Dev :=
  match d.parkRefusal n e want (d.flag (F.ENG_CTRL_ENABLE n e)) with
  | some c => (d.set (F.ENG_CTRL_LAST_CODE n e) c).parkEvent n e
  | none =>
    let r := enableReq (d.engSt n e) want
    let d := (d.setFlag (F.ENG_CTRL_ENABLE n e) want).setFlag (F.ENG_CTRL_LATCHED n e) r.latched
    ((d.set (F.ENG_CTRL_LAST_CODE n e) r.code).keepShadow (A.ENG_CTRL n e)).engAct n e r.act

/-- A latched request is acted on as if it had just arrived (R48). -/
def Dev.engLatched (d : Dev) (n e : Nat) (want : Bool) : Dev :=
  match d.parkRefusal n e want true with
  | some c => (((d.setFlag (F.ENG_CTRL_ENABLE n e) (!want)).set (F.ENG_CTRL_LAST_CODE n e) c)).parkEvent n e
  | none => (d.set (F.ENG_CTRL_LAST_CODE n e) 0).engAct n e (if want then .start else .stop)

/-- E_MIN engines are RUNNING again: the open engine faults of the die end a longest T_TURN later (R415). -/
def Dev.engRecovered (d : Dev) (n : Nat) : Dev :=
  if d.runningEngines n < d.get (F.DIE_INFO_E_MIN n) then d
  else (List.range 4).foldl (fun d e => d.faultEnd 0x01 n e (d.longestTurn n)) d

/-- The last thread of a parked engine has completed. -/
def Dev.drainDone (d : Dev) (n e : Nat) : Dev :=
  if d.engSt n e ≠ stStopping ∨ d.threads n e ≠ 0 then d else
  let again := d.flag (F.ENG_CTRL_LATCHED n e)
  let d := (d.setEngSt n e stStopped).setFlag (F.ENG_STATUS_GATED n e) true
  let d := (d.setFlag (F.ENG_CTRL_LATCHED n e) false).parkEvent n e
  if again then d.engLatched n e true else d

/-- An engine is RUNNING again and takes new assignments. -/
def Dev.engUp (d : Dev) (n e : Nat) : Dev :=
  let again := d.flag (F.ENG_CTRL_LATCHED n e)
  let d := (d.setEngSt n e stRunning).setFlag (F.ENG_CTRL_LATCHED n e) false
  let d := (d.setEng n e { d.eng n e with idleSince := d.raw }).engRecovered n
  if again then d.engLatched n e false else d

/-- A start-up (not a recovery) completes. -/
def Dev.engStarted (d : Dev) (n e : Nat) : Dev :=
  if d.engSt n e ≠ stStarting ∨ (d.eng n e).recoverAt.isSome then d
  else ((d.setFlag (F.ENG_STATUS_GATED n e) false).parkEvent n e).engUp n e

/-! ## Fatal errors (R413 to R415) -/

/-- Ticks of 10 µs. -/
abbrev recoverTicks : Nat := 8000

/-- A lost query whose launch instant fell while its link was down has its outcome at once (R413, R427). -/
def Dev.lostFallen (d : Dev) (n : Nat) (q : Query) : Dev :=
  match q.fallen with
  | none => d
  | some tick => ((d.dropQuery n q.id).lateDrop n q.link true).reachOutcome n (q.ordering ocLate tick)

/-- Every thread of an engine is lost: their number. -/
def Dev.loseThreads (d : Dev) (n e : Nat) : Dev × Nat :=
  let k := d.threads n e
  let x := d.die n
  let lost (q : Query) : Query := if q.stage == .thread e then { q with stage := .lost, cells := 0 } else q
  let d := d.setDie n { x with queries := x.queries.map lost }
  let d := (x.queries.filter fun q => q.stage == .thread e).foldl (fun d q => d.lostFallen n q) d
  (((d.count32 (A.ENG_LOST n) k).showThreads n e).showCells n, k)

/-- The checkers of a clocked engine detect a fatal error. -/
def Dev.engFatal (d : Dev) (n e : Nat) : Dev :=
  if d.engSt n e = stStopped ∨ !d.diePowered n then d else
  let x := d.eng n e
  let stopping := d.engSt n e == stStopping
  let lock := x.rejoin.any fun r => decide (d.raw < r + secTicks)
  let d := (d.setFlag (F.ENG_STATUS_FATAL n e) true).countSat (F.ENG_FAULT_FATAL_CNT n)
  let d := d.faultBegin 0x01 n e (A.ENG_STATUS n e)
  let (d, k) := d.loseThreads n e
  let d := d.faultLost n k
  let rec' := F.ENG_FAULT_RECOVERING n
  let d := if stopping then d.drainDone n e     -- a shutdown, once started, completes (R45)
    else if lock then
      let d := (d.setFlag (F.ENG_CTRL_ENABLE n e) false).setFlag (F.ENG_CTRL_LATCHED n e) false
      let d := (d.setEngSt n e stStopped).set (F.ENG_FAULT_LOCKOUT n) (putBit (d.get (F.ENG_FAULT_LOCKOUT n)) e true)
      let d := d.keepShadow (A.ENG_CTRL n e)     -- it stays parked through a power cycle of its die (R90)
      (d.set rec' (putBit (d.get rec') e false)).setEng n e { d.eng n e with recoverAt := none }
    else
      let d := (d.setEngSt n e stStarting).set rec' (putBit (d.get rec') e true)
      d.setEng n e { d.eng n e with recoverAt := some (d.raw + recoverTicks) }
  (d.raise (dieSrc n 6) (A.ENG_STATUS n e) e).engRecovered n

/-- A recovered engine rejoins dispatch. -/
def Dev.engRejoin (d : Dev) (n e : Nat) : Dev :=
  match (d.eng n e).recoverAt with
  | none => d
  | some t =>
    if d.raw < t then d else
    let d := d.setEng n e { d.eng n e with recoverAt := none, rejoin := some d.raw }
    let d := d.set (F.ENG_FAULT_RECOVERING n) (putBit (d.get (F.ENG_FAULT_RECOVERING n)) e false)
    d.engUp n e

/-! ## Engine clock in fallback (R205, R207, R419) -/

/-- The clock of every engine of a die. -/
def Dev.setSlow (d : Dev) (n : Nat) (slow : Bool) : Dev :=
  (List.range 4).foldl (fun d e => d.setFlag (F.ENG_STATUS_SLOW_CLK n e) slow) d

/-- A fast-check window closes: at the first changeover the engines run at 800 MHz and the affected buckets are capped. -/
def Dev.fastWindow (d : Dev) (n : Nat) (ppm : Int) : Dev :=
  let was := d.flag (pllFallback (4 + n))
  let d := d.fastCheck n ppm
  if !was && d.flag (pllFallback (4 + n)) then (d.setSlow n true).capFallback n else d

/-- The return epoch: the engine clock changes back. -/
def Dev.fbBack (d : Dev) (n : Nat) : Dev :=
  let d := d.fallbackReturn n
  if d.flag (pllFallback (4 + n)) then d else (d.setSlow n false).capReturn n

/-! ## Commands -/

/-- DISPATCH (R264). -/
def execDispatch (n : Fin 4) (s : State) : Answer := s.run (·.dispatch n)

/-- THREAD_COMPLETE (R264, R295, R324): the request by its number on the die. -/
def execThreadComplete (n : Fin 4) (q : Nat) (s : State) : Answer := s.runM fun _ led d => d.threadDone led n q

/-- ENGINE_CLOCK_GATE (R264). -/
def execEngineClockGate (n e : Fin 4) (s : State) : Answer := s.run (·.clockGate n e)

/-- ENG_CTRL_ENABLE (R410, R411). -/
def execEngCtrlEnable (n e : Fin 4) (want : Bool) (s : State) : Answer :=
  s.run (·.whenUp fun d => if d.diePowered n then d.limitedBit (A.ENG_CTRL n e) want (·.engEnable n e want) else d)

/-- DRAIN_COMPLETE (R410). -/
def execDrainComplete (n e : Fin 4) (s : State) : Answer := s.run (·.drainDone n e)

/-- ENGINE_START_UP_COMPLETE (R410). -/
def execEngineStartUpComplete (n e : Fin 4) (s : State) : Answer := s.run (·.engStarted n e)

/-- ENGINE_FATAL_ERROR (R413, R414). -/
def execEngineFatalError (n e : Fin 4) (s : State) : Answer := s.run (·.engFatal n e)

/-- ENGINE_REJOIN (R413). -/
def execEngineRejoin (n e : Fin 4) (s : State) : Answer := s.run (·.engRejoin n e)

/-- FAST_CHECK_WINDOW (R205): the deviation in ppm, any spread profile taken into account. -/
def execFastCheckWindow (n : Fin 4) (ppm : Int) (s : State) : Answer := s.run (·.fastWindow n ppm)

/-- FALLBACK_RETURN (R207). -/
def execFallbackReturn (n : Fin 4) (s : State) : Answer := s.run (·.fbBack n)

end Sys2Proof.Machine
end

