-- ==== Sys2Proof/Machine/Launch.lean ====
section
/-! DEFINITION. Launches: LATE checks, the launch of committed frames, ordering instants, host windows, the fetch and completion of host frames, the transmit-stamp queue, link-up and link-down (R40, R228, R229, R233, R269 to R276, R342 to R346). -/

namespace Sys2Proof.Machine

/-! ## Transmit-stamp queue (R345, R346) -/

/-- Enters a launch instant in a link's transmit-stamp queue. -/
def Dev.tsqPush (d : Dev) (n l lam tag ring : Nat) : Dev :=
  let x := d.lnk n l
  let rec' := (d.onDie n).stampRecord (d.get (F.TSQ_CFG_SCALE n l)) lam ++ leBytes 2 tag ++ [byte ring, 0] ++ leBytes 4 x.tsqSeq ++ zeros 8
  let seq := (x.tsqSeq + 1) % 2 ^ 32
  if x.tsq.length < 64 then
    (d.setLnk n l { x with tsq := x.tsq ++ [rec'], tsqSeq := seq }).set (F.TSQ_STATUS_LEVEL n l) (x.tsq.length + 1)
  else
    let d := (d.setLnk n l { x with tsqSeq := seq }).count32 (A.TSQ_DROP n l)
    (d.setFlag (F.TSQ_STATUS_OVF n l) true).raise (dieSrc n 10) (A.TSQ_STATUS n l) l

/-! ## Completion of host frames (R344) -/

/-- The head passes descriptors completed in order. -/
def Dev.txAdvance (d : Dev) (ring : Nat) : Nat → Dev
  | 0 => d
  | fuel + 1 =>
    let rt := d.ringRt ring
    let h := d.get (ringHead ring)
    if rt.done.contains h then
      let d := d.setRingRt ring { rt with done := rt.done.erase h, fetched := rt.fetched - 1 }
      Dev.txAdvance (d.set (ringHead ring) ((h + 1) % d.ringSize ring)) ring fuel
    else d

/-- A host frame completes with a result: written into its descriptors, head, counters. -/
def Dev.txComplete (d : Dev) (n t : Nat) (descs : List Nat) (code : Nat) : Dev :=
  let ring := A.TXR_BASE n t
  let d := if code = 0 then (d.count32 (A.TXR_FRAMES n t)).dieCount n (0x38 + t) else (d.count32 (A.TXR_NOBUF n t)).dieCount n (0x38 + t)
  if d.get (ringState ring) = stStopped then d else
  let d := if d.dmaOk then descs.foldl (fun d i => d.post (d.descAddr ring i + 14) (leBytes 2 (1 + 2 * code))) d else d
  let rt := d.ringRt ring
  let d := d.setRingRt ring { rt with done := rt.done ++ descs }
  let d := d.txAdvance ring 65536
  descs.foldl (fun d _ => d.ringReport ring) d

/-! ## LATE (R273) -/

/-- A fault holds back the replies of a link: WITHHOLD (R27), a set not held at its epoch (R31), a lane remap (R22), a grid fault (R241). -/
def Dev.replyBlocked (d : Dev) (n l stamp lam : Nat) : Bool :=
  d.flag (F.REPLICA_STATUS_WITHHOLD n) || d.flag (F.LINK_STATUS_DL_REMAP_ACTIVE n) ||
    d.flag (F.LMC_LINK_REMAP_ACTIVE (2 + 2 * n)) || d.flag (F.LMC_LINK_REMAP_ACTIVE (3 + 2 * n)) ||
    ((d.die n).missing.any fun m => ticks16 m.2 ≤ stamp) || (d.lnk n l).reanchor.any fun g => decide (lam < (d.lnk n l).granuleAt (d.grid n l) g)

/-- The instant λ − D_TX − 15 ns has come at an instant. -/
def Dev.lateDue (d : Dev) (n l lam now16 : Nat) : Bool :=
  decide (5 * (lam : Int) - 4 * (d.dTx n l + 15 * 65536) ≤ 5 * (now16 : Int))

/-- The reply stands in the transmit buffer, or none is to come. -/
def Query.ready (q : Query) : Bool := q.stage == .done

/-- The reply of a commitment is dropped as LATE. -/
def Dev.markLate (d : Dev) (n l : Nat) (c : Commit) (q : Query) (blocked : Bool) : Dev :=
  let x := d.lnk n l
  let f (k : Commit) : Commit := if k.start = c.start then { k with late := true } else k
  let d := d.setLnk n l { x with commits := x.commits.map f }
  if blocked then (d.lateDrop n l true).faultLost n else d.lateDrop n l (q.stage == .lost)

/-- One commitment's check at λ − D_TX − 15 ns. -/
def Dev.lateOne (d : Dev) (n l now16 : Nat) (c : Commit) : Dev :=
  if c.gone ∨ c.late ∨ !d.linkUp n l ∨ !d.lateDue n l c.lam now16 then d else
  match c.load with
  | .reply id =>
    match d.query n id with
    | none => d
    | some q =>
      let blocked := d.replyBlocked n l q.stamp c.lam
      if q.ready && q.reply.isNone then d
      else if blocked || !q.ready then d.markLate n l c q blocked
      else d
  | _ => d

/-- LATE_CHECK of a link. -/
def Dev.lateCheck (d : Dev) (n l : Nat) : Dev :=
  (d.lnk n l).commits.foldl (fun d c => d.lateOne n l (ticks16 d.raw) c) d

/-! ## Launch (R233, R236) -/

/-- A whole frame goes to the line; in TEST, to the link's own receiver with the near-end loopback, nowhere while the lanes carry a test pattern or what they receive (R249). -/
def Dev.onLine (d : Dev) (n l lam : Nat) (f : List Byte) : Dev :=
  if d.get (F.LINK_TEST_PRBS n l) ≠ 0 then d else
  match d.get (F.LINK_TEST_LOOP n l) with
  | 0 => d.emit (.frame n l lam f)
  | 1 => d.setLnk n l { d.lnk n l with looped := (d.lnk n l).looped ++ [f] }
  | _ => d

/-- Sends a frame: FCS appended, transmit counters (R245); kind: offset of TxReplies, TxScheduled or TxHostFrames. -/
def Dev.send (d : Dev) (n l lam kind : Nat) (bs : List Byte) : Dev :=
  let bs := bs ++ zeros (60 - bs.length)
  let d := ((d.statAt n l 0x100 lam).statAt n l 0x108 lam (bs.length + 4)).statAt n l kind lam
  d.onLine n l lam (bs ++ fcsOf bs)

/-- A commitment leaves the calendar; the last one launched is kept as a predecessor (R267). -/
def Dev.leave (d : Dev) (n l : Nat) (c : Commit) : Dev :=
  let x := d.lnk n l
  let f (k : Commit) : Option Commit := if k.start = c.start then some { k with gone := true } else if k.gone then none else some k
  let x := { x with commits := x.commits.filterMap f }
  (d.setLnk n l x).set (F.CAL_STATE_COMMITTED n l) x.waiting

/-- The query has been lost, with its engine or to a full dispatch queue: no reply of it is to come (R264, R413). -/
def Query.isLost (q : Query) : Bool := q.stage == .lost || q.stage == .full

/-- The launch instant of a reply that is not formed yet: LATE, or, on a link that is down, TxLinkDownDrop and, once it is formed, the counter of the reply it is (R228, R427). -/
def Dev.launchUnformed (d : Dev) (n l : Nat) (c : Commit) (q : Query) : Dev :=
  let tick := c.lam / 65536
  if c.late then (d.dropQuery n q.id).reachOutcome n (q.ordering ocLate tick)
  else if q.isLost then ((d.dropQuery n q.id).lateDrop n l true).reachOutcome n (q.ordering ocLate tick)
  else (d.statAt n l 0x128 c.lam).setQuery n { q with fallen := some tick }

/-- The launch instant of a reply. -/
def Dev.launchReply (d : Dev) (n l : Nat) (c : Commit) (q : Query) : Dev :=
  let tick := c.lam / 65536
  match q.outcome with
  | some oc =>
    let d := d.dropQuery n q.id
    if c.late then d.reachOutcome n (q.ordering ocLate tick)
    else if oc = ocSilent then d
    else if !d.linkUp n l then (d.statAt n l 0x128 c.lam).reachOutcome n (q.ordering oc tick)
    else
      let d := d.send n l c.lam 0x110 (q.reply.getD [])
      let d := if c.pushed then (d.count32 (A.CAL_PUSHED n l)).dieCount n 0x09 else d
      d.reachOutcome n (q.ordering oc tick)
  | none => d.launchUnformed n l c q

/-- The launch instant of a host frame. -/
def Dev.launchHost (d : Dev) (n l : Nat) (c : Commit) (f : HostFrame) : Dev :=
  if !d.linkUp n l then (d.statAt n l 0x128 c.lam).txComplete n f.ring f.descs 1
  else
    let d := ((d.send n l c.lam 0x120 f.bytes).count32 (A.CAL_HOST_SENT n l)).dieCount n 0x0A
    let d := d.txComplete n f.ring f.descs 0
    if f.stamp then d.tsqPush n l c.lam f.tag f.ring else d

/-- The launch instant of a device-scheduled frame. -/
def Dev.launchSched (d : Dev) (n l : Nat) (c : Commit) (bs : List Byte) (pdelay : Bool) : Dev :=
  if !d.linkUp n l then d else
  let d := d.send n l c.lam 0x118 bs
  if pdelay then d.tsqPush n l c.lam 0xFFFF 0xFF else d

/-- The earliest commitment of a link whose launch instant lies before the end of the present tick launches. -/
def Dev.launch (d : Dev) (n l : Nat) : Dev :=
  let due (c : Commit) : Bool := !c.gone && decide (c.lam < ticks16 (d.raw + 1))
  match (d.lnk n l).commits.find? due with
  | none => d
  | some c =>
    let d := d.lateOne n l (ticks16 (d.raw + 1)) c
    let c := ((d.lnk n l).commits.find? (·.start = c.start)).getD c
    let d := d.leave n l c
    match c.load with
    | .reply id =>
      (match d.query n id with
       | none => d
       | some q => d.launchReply n l c q)
    | .hostFrame f => d.launchHost n l c f
    | .sched bs pdelay => d.launchSched n l c bs pdelay

/-- Requests whose ordering instant has come without a launch reach their outcome, in order (R276). -/
def Dev.orderings (d : Dev) (n : Nat) : Dev :=
  let x := d.die n
  let due := sortBy (fun a b => decide (a.at' ≤ b.at')) (x.orderings.filter fun o => o.at' ≤ d.raw)
  let d := d.setDie n { x with orderings := x.orderings.filter fun o => !(decide (o.at' ≤ d.raw)) }
  due.foldl (fun d o => d.reachOutcome n o) d

/-! ## Host frames (R270, R342, R343) -/

/-- Bytes of host frames in a die's host transmit buffer. -/
def Die.hostBytes (x : Die) : Nat :=
  let q := x.txq.foldl (fun a fs => fs.foldl (fun a f => a + f.bytes.length) a) 0
  x.links.foldl (fun a y => y.commits.foldl (fun a c =>
    match c.load with
    | .hostFrame f => if c.gone then a else a + f.bytes.length
    | _ => a) a) q

/-- Descriptor indices of the next frame of a ring up to its EOF; none while the EOF is not posted. -/
def Dev.frameDescs (host : Mem) (d : Dev) (ring : Nat) : Nat → Nat → List Nat → Option (List Nat)
  | 0, _, _ => none
  | posted + 1, i, acc =>
    let acc := acc ++ [i]
    if leNat (host.read (d.descAddr ring i + 10) 2) % 2 = 1 then some acc
    else Dev.frameDescs host d ring posted ((i + 1) % d.ringSize ring) acc

/-- LAUNCH_AT of a descriptor: scale code (255 raw) and time in 2^-16 ns or raw tick; none: BAD_LAUNCH (R344). -/
def Dev.launchAt (d : Dev) (r : List Byte) : Option (Nat × Int) :=
  let code := leAt r 12 1
  if code = 255 then
    let t := leAt r 0 8
    if t > d.raw + 2 ^ 30 then none else some (255, t)
  else if code > 2 ∨ leAt r 6 4 > 999999999 then none
  else if !d.flag (F.SC_STATUS_INIT (d.codeScale code (ticks16 d.raw))) then none
  else
    let t := joinTime (leAt r 0 6) (leAt r 6 4) (leAt r 10 2)
    let now := (d.ts.time16 code (ticks16 d.raw)).getD 0
    -- 2^30 ticks are 2^30 × 1.25 ns
    if (t - now) * 4 > (2 ^ 30 * 5 * 65536 : Nat) then none else some (code, t)

/-- HOST_FRAME_FETCH: the next whole frame of a transmit ring. -/
def Dev.fetchFrame (host : Mem) (d : Dev) (n t : Nat) : Dev :=
  let ring := A.TXR_BASE n t
  let rt := d.ringRt ring
  if d.get (ringState ring) ≠ stRunning ∨ !d.dmaOk ∨ !d.diePowered n then d else
  let s := d.ringSize ring
  match d.frameDescs host ring (d.posted' ring - rt.fetched) ((d.get (ringHead ring) + rt.fetched) % s) [] with
  | none => d
  | some ds =>
    let desc (i : Nat) : List Byte := host.read (d.descAddr ring i) 32
    let first := desc (ds.headD 0)
    let len := ds.foldl (fun a i => a + leAt (desc i) 8 2) 0
    let fl := leAt first 10 2
    let tag := leAt first 12 2
    let taken := d.setRingRt ring { rt with fetched := rt.fetched + ds.length }
    if ds.length > 64 ∨ len < 14 ∨ len > 9596 ∨ (bit fl 2 ∧ tag = 0xFFFF) then taken.txComplete n t ds 2 else
    let at' := if bit fl 1 then (d.onDie n).launchAt (slice first 16 16) else some (256, 0)
    match at' with
    | none => taken.txComplete n t ds 3
    | some a =>
      if (d.die n).hostBytes + len > 131072 then d else
      let bs := ds.flatMap fun i => host.read (leAt (desc i) 0 8) (leAt (desc i) 8 2)
      let f : HostFrame := { ring := t, descs := ds, bytes := bs, launch := if a.1 = 256 then none else some a, stamp := bit fl 2, tag := tag }
      taken.setDie n { taken.die n with txq := modAt (taken.die n).txq t (· ++ [f]) }

/-- First granule of a window from g on that reads a time or later on a scale. -/
def firstReading (ts : Ts) (x : Lnk) (gr : Grid) (code : Nat) (t : Int) : Nat → Nat → Option Nat
  | 0, _ => none
  | fuel + 1, g =>
    if (ts.time16 code (x.granuleAt gr g)).any (t ≤ ·) then some g else firstReading ts x gr code t fuel (g + 1)

/-- First granule of the window [w, c) that a frame's LAUNCH_AT allows; none: a later window. -/
def Dev.launchFrom (d : Dev) (n : Nat) (x : Lnk) (gr : Grid) (w c : Nat) (f : HostFrame) : Option Nat :=
  match f.launch with
  | none => some w
  | some (code, t) =>
    if code = 255 then
      let g := max w (x.firstGranule gr (t * 65536 * 625))
      if g < c then some g else none
    else firstReading ((d.ts.heldBy n).asOf (x.granuleAt gr w)) x gr code t (c - w) w

/-- Places the frames of a ring in the window [w, c): what is left of the queue. -/
def Dev.placeRing (n l w c : Nat) : Dev → List HostFrame → Dev × List HostFrame
  | d, [] => (d, [])
  | d, f :: fs =>
    let x := d.lnk n l
    let gr := d.grid n l
    match d.launchFrom n x gr w c f with
    | none => (d, f :: fs)
    | some g0 =>
      let len := max 64 (f.bytes.length + 4)
      match x.findHost gr len c (2 * (c - w) + 4096) g0 with
      | none => (((f :: fs).foldl (fun d _ => (d.count32 (A.CAL_WIN_DEFER n l)).dieCount n 0x0B) d), f :: fs)
      | some (g, occ, dOut) =>
        let d := d.commitFrame n l { start := g, occ := occ, dOut := dOut, lam := x.granuleAt gr g, len := len, load := .hostFrame f }
        Dev.placeRing n l w c d fs

/-- HOST_WINDOW_OPEN of a link: once for each window. -/
def Dev.windowOpen (d : Dev) (n l : Nat) : Dev :=
  let x := d.lnk n l
  let g := x.granuleNow (d.grid n l) d.raw
  let w := x.cycleStart g + x.cal.ws
  if !x.inWindow g ∨ x.winAt = some w ∨ !d.linkUp n l ∨ d.get (F.LINK_CTRL_STATE n l) ≠ stRunning then d else
  let d := d.setLnk n l { x with winAt := some w }
  (List.range 8).foldl (fun d t =>
    if d.get (F.TXR_CFG_LINK n t) ≠ l ∨ d.get (ringState (A.TXR_BASE n t)) ≠ stRunning then d else
    let fs := ((d.die n).txq[t]?).getD []
    let (d, left) := Dev.placeRing n l w (w + x.cal.wl) d fs
    d.setDie n { d.die n with txq := setAt (d.die n).txq t left }) d

/-! ## Link-up and link-down (R228, R229) -/

/-- A link comes up. What its old commitments held, should any be left, counts as fallen while it was down. -/
def Dev.linkRise (d : Dev) (n l : Nat) : Dev :=
  if !d.linkReady n l then d else
  let d := (d.lnk n l).commits.foldl (fun d c => if c.gone then d else
    let d := d.leave n l c
    match c.load with
    | .reply id => (match d.query n id with
      | none => d
      | some q => d.launchReply n l c q)
    | .hostFrame f => d.launchHost n l c f
    | .sched _ _ => d) d
  let d := d.setLnk n l (d.lnk n l).fresh
  let d := (d.set (F.CAL_STATE_COMMITTED n l) 0).showUc n l 0
  d.linkChange n l true

/-- A link goes down (R228). -/
def Dev.linkFall (d : Dev) (n l : Nat) : Dev := if d.linkFails n l then d.linkDrop n l else d

/-- After a re-anchor the commitments from its granule on launch by the new map (R241), their replies formed for it (R40). -/
def Dev.remap (d : Dev) (n l g : Nat) : Dev :=
  let x := d.lnk n l
  let gr := d.grid n l
  let f (c : Commit) : Commit := if c.gone ∨ c.start < g then c else { c with lam := x.granuleAt gr c.start }
  let d := d.setLnk n l { x with commits := x.commits.map f }
  (d.lnk n l).commits.foldl (fun d c =>
    if c.gone ∨ c.start < g then d else
    match c.load with
    | .reply id =>
      (match d.query n id with
       | none => d
       | some q =>
         let again := q.ready && q.reply.isSome && Img.proto q.img != 3
         let r := if again then (q.form (d.seenAt n q.stamp) n c.lam).1 else q.reply
         d.setQuery n { q with lam := some c.lam, reply := r })
    | _ => d) d

/-- The map of a link is re-anchored (R241). -/
def Dev.gridAnew (d : Dev) (n l : Nat) : Dev :=
  match (d.lnk n l).reanchor with
  | none => d
  | some g =>
    let d := d.gridReanchor n l
    if (d.lnk n l).reanchor.isSome then d else d.remap n l g

/-- The grid maps of every die follow their stages (R240). -/
def Dev.gridsFollow (d : Dev) : Dev := (List.range 4).foldl (fun d n => d.gridFollow n) d

/-! ## Commands -/

/-- SCALE_SET_APPLIED (R106, R108, R210, R213, R240). -/
def execScaleSetApplied (k : Fin 2) (s : State) : Answer :=
  s.run fun d => ((d.setApplied k).clocksFollow k (d.scale k)).gridsFollow

/-- GRID_MEASUREMENT (R240, R241): in ps; a re-anchor whose granule has come is made before. -/
def execGridMeasurement (n l : Fin 4) (err : Int) (s : State) : Answer := s.run fun d => (d.gridAnew n l).gridMeasure n l err

/-- RATIO_RAMP_COMPLETE (R210, R240). -/
def execRatioRampComplete (n : Fin 4) (s : State) : Answer := s.run fun d => (d.rampDone n).gridFollow n

/-- GRID_REANCHOR (R241). -/
def execGridReanchor (n l : Fin 4) (s : State) : Answer := s.run (·.gridAnew n l)

/-- LATE_CHECK (R273). -/
def execLateCheck (n l : Fin 4) (s : State) : Answer := s.run (·.lateCheck n l)

/-- FRAME_LAUNCH (R233, R274, R276, R344, R345, R427). -/
def execFrameLaunch (n l : Fin 4) (s : State) : Answer := s.run (·.launch n l)

/-- ORDERING_INSTANT (R276, R279). -/
def execOrderingInstant (n : Fin 4) (s : State) : Answer := s.run (·.orderings n)

/-- HOST_WINDOW_OPEN (R270, R343). -/
def execHostWindowOpen (n l : Fin 4) (s : State) : Answer := s.run (·.windowOpen n l)

/-- HOST_FRAME_FETCH (R342 to R344). -/
def execHostFrameFetch (n : Fin 4) (t : Fin 8) (s : State) : Answer := s.runM fun h _ d => Dev.fetchFrame h d n t

/-- LINK_UP (R228, R229). -/
def execLinkUp (n l : Fin 4) (s : State) : Answer := s.run (·.linkRise n l)

/-- LINK_DOWN (R228, R239). -/
def execLinkDown (n l : Fin 4) (s : State) : Answer := s.run (·.linkFall n l)

end Sys2Proof.Machine
end

