-- ==== Sys2Proof/Machine/Schedule.lean ====
section
/-! DEFINITION. Device-scheduled PTP messages, grant expiry, the BMCA, PTP slave streams (R314 to R317, R321, R325 to R329). -/

namespace Sys2Proof.Machine

/-! ## Reserved slots (R314, R315) -/

/-- First granule and end of the present occurrence of reserved slot k; none outside it. -/
def Lnk.occurrence (x : Lnk) (g k : Nat) : Option (Nat × Nat) :=
  match x.cal.rsv[k]? with
  | some (s, len, true) =>
    if x.cal.n ≠ 0 ∧ s ≤ x.place g ∧ x.place g < s + len then some (x.cycleStart g + s, x.cycleStart g + s + len) else none
  | _ => none

/-- A slot of a role and context stands in a calendar. -/
def Cal.hasSlot (c : Cal) (role ctx : Nat) : Bool :=
  (List.range 16).any fun k => ((c.rsv[k]?).map (·.2.2)).getD false &&
    (let u := (c.use[k]?).getD 0
     u % 8 == role && u / 256 % 256 == ctx)

def Lnk.dueMark (x : Lnk) (role ctx : Nat) : Option Int := (x.dues.find? fun m => m.role = role ∧ m.ctx = ctx).map (·.due)

def Lnk.setDue (x : Lnk) (role ctx : Nat) (due : Int) : Lnk :=
  { x with dues := { role := role, ctx := ctx, due := due } :: x.dues.filter fun m => !(decide (m.role = role ∧ m.ctx = ctx)) }

/-- Commits a device-scheduled frame at granule g with a deficit count, if its end + 1 fits before fin: the device, the earliest next start and the outgoing count. -/
def Dev.commitSched (d : Dev) (n l g dIn fin : Nat) (bs : List Byte) (pdelay : Bool) : Option (Dev × Nat × Nat) :=
  let gr := d.grid n l
  let len := bs.length + 4
  let (e, dOut) := gr.after g len dIn
  if isMarker gr.mark g ∨ fin < e + 1 then none
  else
    let c : Commit := { start := g, occ := e - g, dOut := dOut, lam := (d.lnk n l).granuleAt gr g, len := len, load := .sched bs pdelay }
    some (d.commitFrame n l c, e, dOut)

/-- The due instants passed and not launched are discarded and counted (R315, R326); the index of the last one handled. -/
def Dev.skipDue (d : Dev) (n l : Nat) (last : Option Int) (k : Int) : Dev × Int :=
  match last with
  | none => (d, k - 1)
  | some h => if h < k - 1 then (d.count32 (A.UC_SKIP n l) (k - 1 - h).toNat, k - 1) else (d, h)

/-- Next sequenceId of an instance: word offset and half of the context image (R330); it rises by one. -/
def Dev.takeSeq (d : Dev) (n c word : Nat) (high : Bool) : Nat × Dev :=
  let a := A.CTX_LINE n (c - 1) word
  let f : Fld := if high then ⟨a, 31, 16⟩ else ⟨a, 15, 0⟩
  (d.get f, (d.keep a).set f ((d.get f + 1) % 65536))

/-- A multicast message of role 1, 3 or 4 in its slot [g, fin). -/
def Dev.mcastSlot (d : Dev) (n l role c g fin : Nat) : Dev :=
  let m := d.img n c
  let x := d.lnk n l
  let lam := x.granuleAt (d.grid n l) g
  let log := toSigned 8 (match role with | 1 => Img.f m 0x44 7 0 | 3 => Img.f m 0x44 15 8 | _ => Img.f m 0x4C 23 16)
  let k := dueIndex ((d.onDie n).ptpTime m lam) log 0
  let (d, h) := d.skipDue n l (x.dueMark role c) k
  let d := d.setLnk n l ((d.lnk n l).setDue role c h)
  let st := Img.f m 0x48 3 0
  let ok := if role = 4 then st != 1 && st != 2 && st != 3 else st == 6 && Img.b m 0x40 8
  if h ≥ k ∨ !ok then d else
  let two := role == 1 && Img.b m 0x40 2 && x.cal.hasSlot 2 c
  let (seq, d') := match role with
    | 1 => d.takeSeq n c 52 false
    | 3 => d.takeSeq n c 52 true
    | _ => d.takeSeq n c 53 false
  let l8 := ofSigned 8 log
  let bs := match role with
    | 1 => m.ownFrame true ((d.onDie n).syncMsg m lam seq l8 two false)
    | 3 => m.ownFrame false ((d.onDie n).announceMsg m lam seq l8 false)
    | _ => m.ownFrame true ((d.onDie n).requestMsg m lam seq true false 0)
  match d'.commitSched n l g 0 fin bs (role == 4) with
  | none => d
  | some (d, e, _) =>
    let x := (d.lnk n l).setDue role c k
    d.setLnk n l { x with follow := if two then x.follow ++ [{ ctx := c, seq := seq, lam := lam, after := e }] else x.follow }

/-- A FOLLOW_UP slot (R316). -/
def Dev.followSlot (d : Dev) (n l c g fin : Nat) : Dev :=
  let x := d.lnk n l
  match x.follow.find? fun f => f.ctx = c ∧ f.after ≤ g with
  | none => d
  | some f =>
    let m := d.img n c
    let bs := m.ownFrame false ((d.onDie n).followMsg m f.lam (x.granuleAt (d.grid n l) g) f.seq (Img.f m 0x44 7 0))
    match d.commitSched n l g 0 fin bs false with
    | none => d
    | some (d, _, _) => d.setLnk n l { d.lnk n l with follow := (d.lnk n l).follow.erase f }

/-! ## Unicast trains (R326) -/

/-- Frame of a granted message to a session's requester: transport, address, MAC and tag of its entry. -/
def Img.sesFrame (m : Img) (e : List Byte) (event : Bool) (msg : List Byte) : List Byte :=
  let port := if event then 319 else 320
  let tos := 4 * (if Img.b m 0x28 14 then Img.f m 0x28 13 8 else 0)
  let hop := Img.f m 0x28 7 0
  let tag := if bit (leAt e 10 1) 6 then [0x81, 0x00] ++ slice e 34 2 else []
  let eth (et : Nat) := slice e 28 6 ++ Img.srcMac m ++ tag ++ beBytes 2 et
  let a := Img.addr m
  match leAt e 10 1 / 16 % 4 with
  | 0 => pad60 (eth 0x88F7 ++ msg)
  | 1 =>
    let u := udpPacket false (a.take 4) (slice e 12 4) port port msg
    pad60 (eth 0x0800 ++ ip4Header tos (20 + u.length) 0 (Img.b m 0x28 15) hop 17 (a.take 4) (slice e 12 4) ++ u)
  | _ =>
    let u := udpPacket true a (slice e 12 16) port port msg
    pad60 (eth 0x86DD ++ ip6Header tos u.length 17 hop a (slice e 12 16) ++ u)

/-- One granted message that is due: session, grant (0 Announce, 1 Sync), index of the due instant, the instant in units that compare. -/
structure UcDue where
  session : Nat
  grant : Nat
  k : Int
  due : Int
deriving DecidableEq, Repr

def UcDue.before (a b : UcDue) : Bool :=
  if a.due ≠ b.due then a.due < b.due
  else if a.grant ≠ b.grant then a.grant > b.grant
  else a.session ≤ b.session

/-- State of a train: the device, the entries changed, next granule, deficit count. -/
structure Train where
  d : Dev
  entries : List (Nat × List Byte)
  g : Nat
  dIn : Nat

def Train.entry (t : Train) (led : Mem) (n l i : Nat) : List Byte :=
  match t.entries.find? (·.1 = i) with
  | some (_, e) => e
  | none => led.read (t.d.sesAddr n l i) 64

def Lnk.ucMark (x : Lnk) (s g : Nat) : Option Int :=
  (x.ucMarks.find? fun m => m.session = s ∧ m.mtype = (if g = 0 then 11 else 0)).map (·.k)

def Lnk.setUcMark (x : Lnk) (s g : Nat) (k : Int) : Lnk :=
  let ty := if g = 0 then 11 else 0
  { x with ucMarks := { session := s, mtype := ty, k := k } :: x.ucMarks.filter fun m => !(decide (m.session = s ∧ m.mtype = ty)) }

/-- Messages due at or before an instant, the discarded ones counted. -/
def Dev.ucDues (led : Mem) (d : Dev) (n l lam : Nat) : Dev × List UcDue :=
  (d.lnk n l).sessions.foldl (fun (d, acc) i =>
    [0, 1].foldl (fun (d, acc) gr =>
      let e := led.read (d.sesAddr n l i) 64
      let t := d.sesTime n e lam
      if !sesValid e gr t then (d, acc) else
      let log := sesLog e gr
      let ph := leAt e 58 2
      let k := dueIndex t log ph
      let (d, h) := d.skipDue n l ((d.lnk n l).ucMark i gr) k
      let d := d.setLnk n l ((d.lnk n l).setUcMark i gr h)
      if h ≥ k then (d, acc)
      else (d, acc ++ [{ session := i, grant := gr, k := k, due := (k * 65536 + ph) * (2 ^ (log + 128).toNat : Nat) }])) (d, acc)) (d, [])

/-- One message of a train. -/
def Train.send (led : Mem) (t : Train) (n l fin : Nat) (u : UcDue) : Train :=
  let d := t.d
  let e := t.entry led n l u.session
  let m := d.img n (leAt e 39 1)
  let lam := (d.lnk n l).granuleAt (d.grid n l) t.g
  let ofs := if u.grant = 0 then 52 else 54
  let seq := leAt e ofs 2
  let log := leAt e (36 + u.grant) 1
  let bs := if u.grant = 1 then m.sesFrame e true ((d.onDie n).syncMsg m lam seq log false true)
    else m.sesFrame e false ((d.onDie n).announceMsg m lam seq log true)
  match d.commitSched n l t.g t.dIn fin bs false with
  | none => { t with d := d.count32 (A.UC_DEFER n l) }
  | some (d, g, dOut) =>
    let e := patch e ofs (leBytes 2 ((seq + 1) % 65536))
    let d := (d.setLnk n l ((d.lnk n l).setUcMark u.session u.grant u.k)).lpost (d.sesAddr n l u.session) e
    { d := d, entries := (u.session, e) :: t.entries, g := g, dIn := dOut }

/-- A UNICAST slot. -/
def Dev.unicastSlot (led : Mem) (d : Dev) (n l g fin : Nat) : Dev :=
  let (d, us) := d.ucDues led n l ((d.lnk n l).granuleAt (d.grid n l) g)
  let t : Train := { d := d, entries := [], g := g, dIn := 0 }
  ((sortBy UcDue.before us).foldl (fun t u => t.send led n l fin u) t).d

/-! ## Slave streams: requests (R327) -/

def Dev.strm (d : Dev) (m : Nat) : Strm := (d.streams[m]?).getD {}
def Dev.setStrm (d : Dev) (m : Nat) (x : Strm) : Dev := { d with streams := setAt d.streams m x }

def Dev.strAsym (d : Dev) (m : Nat) : Int := toSigned 64 (d.get64 (A.STR_ASYM m))

/-- A STREAM slot: a Signaling message that waits, else a due Delay_Req or Pdelay_Req. -/
def Dev.streamSlot (d : Dev) (n l m g fin : Nat) : Dev :=
  let c := d.get (F.STR_CFG_CONTEXT m)
  if m ≥ 8 ∨ d.get (F.STR_CFG_LINK m) ≠ devLink n l ∨ !d.ctxEnabled n l c then d else
  let img := d.img n c
  let x := d.strm m
  let lam := (d.lnk n l).granuleAt (d.grid n l) g
  let uni := d.flag (F.STR_CFG_UNICAST m)
  match x.sig with
  | msg :: rest =>
    (match d.commitSched n l g 0 fin (img.ownFrame false msg) false with
     | none => d
     | some (d, _, _) => d.setStrm m { x with sig := rest })
  | [] =>
    let log := toSigned 8 (d.get (F.STR_REQ_LOG_DREQ m))
    let k := dueIndex ((d.onDie n).ptpTime img lam) log 0
    let (d, h) := d.skipDue n l x.due k
    let d := d.setStrm m { x with due := some h }
    if h ≥ k then d else
    let peer := d.flag (F.STR_CFG_P2P m)
    let bs := img.ownFrame true ((d.onDie n).requestMsg img lam x.seq peer uni (d.strAsym m))
    match d.commitSched n l g 0 fin bs peer with
    | none => d
    | some (d, _, _) =>
      d.setStrm m { x with due := some k, seq := (x.seq + 1) % 65536, sent := ((x.seq, lam) :: x.sent).take 16 }

/-- RESERVED_SLOT_OCCURRENCE of slot k of a link. -/
def Dev.reservedSlot (led : Mem) (d : Dev) (n l k : Nat) : Dev :=
  let x := d.lnk n l
  match x.occurrence (x.granuleNow (d.grid n l) d.raw) k with
  | none => d
  | some (g, fin) =>
    let u := (x.cal.use[k]?).getD 0
    let c := u / 256 % 256
    if !d.linkUp n l ∨ x.commits.any (fun c => decide (g ≤ c.start ∧ c.start < fin)) then d else
    match u % 8 with
    | 2 => if d.ctxEnabled n l c then d.followSlot n l c g fin else d
    | 5 => Dev.unicastSlot led d n l g fin
    | 6 => d.streamSlot n l (c % 16) g fin
    | 0 | 7 => d
    | r => if d.ctxEnabled n l c ∧ Img.proto (d.img n c) = 2 then d.mcastSlot n l r c g fin else d

/-! ## Grant expiry (R325) -/

/-- Expired grants of a link are cleared. -/
def Dev.grantExpiry (led : Mem) (d : Dev) (n l : Nat) : Dev :=
  let now := ticks16 d.raw
  let d := (d.lnk n l).sessions.foldl (fun d i =>
    let e := led.read (d.sesAddr n l i) 64
    let t := d.sesTime n e now
    let gone := (List.range 3).filter fun g => sesGranted e g && !sesValid e g t
    if gone = [] then d else
    let e' := gone.foldl sesClear e
    let x := d.lnk n l
    let live := leAt e' 10 1 / 2 % 8 != 0
    let x := { x with sessions := if live then x.sessions else x.sessions.filter (· ≠ i)
                      ucMarks := x.ucMarks.filter fun m => !(decide (m.session = i) && gone.contains (if m.mtype = 11 then 0 else 1)) }
    (d.lpost (d.sesAddr n l i) e').setLnk n l x) d
  d.showUc n l (Dev.ucSum led d n l now)

/-! ## BMCA (R321) -/

/-- Data set key of an instance and of an Announce, in the order of the default comparison: priority1, quality, priority2, identity. -/
def Dev.ownKey (d : Dev) (m : Img) : List Byte :=
  [byte (Img.f m 0x48 15 8)] ++ d.clockQuality m (ticks16 d.raw) ++ [byte (Img.f m 0x48 23 16)] ++ Img.bytes m 0x50 8

def annKey (p : List Byte) : List Byte := slice p 47 14

/-- One run of the BMCA for the instance of PROTO 2 context c: a change of PORT_STATE is published as a register batch. -/
def Dev.bmca (d : Dev) (n c : Nat) : Dev :=
  let m := d.img n c
  let st := Img.f m 0x48 3 0
  if c = 0 ∨ d.md.coresDown.isSome ∨ Img.proto m ≠ 2 ∨ Img.stream m ∨ !Img.b m 0x48 4 ∨ (st ≠ 4 ∧ st ≠ 6 ∧ st ≠ 7) then d else
  let mine (g : Nat) : Bool := Img.proto (d.img n g) == 3 && Img.f (d.img n g) 0x40 7 0 == c
  let ls := (List.range 4).filter fun l => d.ctxEnabled n l c
  let anns := (ls.flatMap fun l => ((d.lnk n l).announces.filter fun a => mine a.1)).map (·.2)
  let d := ls.foldl (fun d l => d.setLnk n l { d.lnk n l with announces := (d.lnk n l).announces.filter fun a => !mine a.1 }) d
  let own := beNat (d.ownKey m)
  let best := Img.f m 0x40 12 10 ≥ 3 || anns.all fun p => decide (own ≤ beNat (annKey p))
  let st' := if best then 6 else 7
  if st' = st then d else
  let a := A.CTX_LINE n (c - 1) 18
  { d with batches := d.batches ++ [(d.raw + leadTicks, [(a, putBits 3 0 (d.reg a) st')])] }

/-! ## Slave streams: reference messages (R328, R329) -/

/-- A PTP timestamp in 2^-16 ns. -/
def stampAt (p : List Byte) (o : Nat) : Int := joinTime (beAt p o 6) (beAt p (o + 6) 4) 0

def ptpCorr (p : List Byte) : Int := toSigned 64 (beAt p 8 8)

/-- The stream takes the message (R327). -/
def Dev.strTakes (d : Dev) (m : Nat) (p : List Byte) : Bool :=
  let id := d.get64 (A.STR_MASTER m)
  let from' := leAt p 20 8
  beAt p 1 1 % 16 == 2 && beAt p 4 1 == d.get (F.STR_CFG_DOMAIN m) && decide (ptpBase (beAt p 0 1 % 16) ≤ p.length) &&
    (id == 0 || (from' == id && beAt p 28 2 == d.get (F.STR_MASTER_PORT_PORT m)))

/-- Floor of the mean of halved values (R328). -/
def meanHalf (ds : List Int) : Int := if ds = [] then 0 else ds.foldl (· + ·) 0 / (2 * (ds.length : Int))

/-- Offset and delay of the stream at a Sync: t1 and c_S in 2^-16 ns, arrival t2 in 2^-16 tick. -/
def Dev.strForm (d : Dev) (m : Nat) (t1 cS : Int) (t2 : Nat) : Dev :=
  let x := d.strm m
  let ds := if d.flag (F.STR_CFG_P2P m) then x.ds else
    match x.exch with
    | none => []
    | some (t3, t4, cR) => ((4 * (t4 - t1) - 5 * ((t3 : Int) - t2) - 4 * cS - 4 * cR) :: x.ds).take 16
  if ds = [] then d else
  let d := d.setStrm m { x with ds := ds }
  let d18 := meanHalf ds
  let big := (4 * (t1 + cS) + d18) / 4
  let a := (d.ts.time16 0 t2).getD 0
  let d := (d.set64 (A.STR_DELAY m) (ofSigned 64 (d18 / 4))).set64 (A.STR_OFS m) (ofSigned 64 (big - a))
  let d := d.setFlag (F.STR_STATUS_VALID m) true
  (d.slotsOf 5 m).foldl (fun d s => d.deliverSample s t2 big) d

/-- Sum of the two inaccuracy fields of an IEEE C37.238 TLV, if the Announce carries one (layout PRESUMED). -/
def gmtiSum (p : List Byte) : Option Nat :=
  ((tlvsOf p (beAt p 2 2) 64 64).find? fun x => x.1 = 3 ∧ slice x.2 0 6 = [0x1C, 0x12, 0x9D, 0, 0, 2]).map fun x =>
    beAt x.2 8 4 + beAt x.2 12 4

/-- An Announce received by a stream (R329). -/
def Dev.strAnnounce (d : Dev) (m : Nat) (p : List Byte) : Dev :=
  let x := d.strm m
  let gm := slice p 53 8
  let cls := beAt p 48 1
  let acc := beAt p 49 1
  let change := x.gm.any (· ≠ gm)
  let classes := (List.range 8).map fun i => d.get64 (A.STR_CLASS m) / 256 ^ i % 256
  let suspect := !((classes.filter (· ≠ 0)).contains cls) || !bit (beAt p 7 1) 3
  let d := (d.setStrm m { x with gm := some gm }).set (F.STR_STATUS_GM_CLASS m) cls
  let d := d.set64 (A.STR_GM m) (leNat gm)
  let d := if change then (d.setFlag (F.STR_STATUS_GM_CHANGE m) true).setFlag (F.STR_STATUS_VALID m) false else d
  (d.slotsOf 5 m).foldl (fun d s =>
    let bound := if 0x1D ≤ acc ∧ acc ≤ 0x30 then cdiv (accBounds.getD (acc - 0x1D) 0) 2 else d.get (F.SLOT_ACC_NS s)
    let y := d.src s
    d.setSrc s { y with suspect := suspect, unc := max bound ((gmtiSum p).getD 0), skip := y.skip || change }) d

/-- The oldest message of a stream is taken. -/
def Dev.reference (d : Dev) (m : Nat) : Dev :=
  let x := d.strm m
  match x.inbox with
  | [] => d
  | (t, p) :: rest =>
    let x := { x with inbox := rest }
    let d := d.setStrm m x
    if !d.strTakes m p then d else
    let seq := beAt p 30 2
    let img := d.img (d.get (F.STR_CFG_LINK m) / 4) (d.get (F.STR_CFG_CONTEXT m))
    let forMe := slice p 44 10 == Img.portId img
    let sent := (x.sent.find? (·.1 = seq)).map (·.2)
    let a := d.strAsym m
    let two := bit (beAt p 6 1) 1
    match beAt p 0 1 % 16 with
    | 0 =>
      if two then (d.setStrm m { x with sync := some (seq, t, ptpCorr p) }).setFlag (F.STR_STATUS_TWO_STEP_SEEN m) true
      else d.strForm m (stampAt p 34) (ptpCorr p + a) t
    | 8 =>
      (match x.sync with
       | some (s, t2, c) =>
         if s ≠ seq then d else (d.setStrm m { x with sync := none }).strForm m (stampAt p 34) (c + ptpCorr p + a) t2
       | none => d)
    | 9 =>
      (match forMe, sent with
       | true, some t3 => d.setStrm m { x with exch := some (t3, stampAt p 34, ptpCorr p) }
       | _, _ => d)
    | 3 =>
      (match forMe, sent with
       | true, some t1 =>
         if two then d.setStrm m { x with peer := some (seq, t, stampAt p 34, ptpCorr p) }
         else d.setStrm m { x with ds := ((5 * ((t : Int) - t1) - 4 * ptpCorr p) :: x.ds).take 16 }
       | _, _ => d)
    | 10 =>
      (match forMe, sent, x.peer with
       | true, some t1, some (s, t4, rx, c) =>
         if s ≠ seq then d else
         d.setStrm m { x with peer := none
                              ds := ((5 * ((t4 : Int) - t1) - 4 * (stampAt p 34 - rx) - 4 * (c + ptpCorr p)) :: x.ds).take 16 }
       | _, _, _ => d)
    | 11 => d.strAnnounce m p
    | _ => d

/-- The firmware requests or renews the grants of a unicast stream (R327): one Signaling message with Announce, Sync and Delay_Resp, of 300 s each. -/
def Dev.grantRequest (d : Dev) (m : Nat) : Dev :=
  let c := d.get (F.STR_CFG_CONTEXT m)
  let img := d.img (d.get (F.STR_CFG_LINK m) / 4) c
  if !d.flag (F.STR_CFG_UNICAST m) ∨ d.md.coresDown.isSome ∨ c = 0 then d else
  let x := d.strm m
  let id := d.get64 (A.STR_MASTER m)
  let target := if id = 0 then List.replicate 10 0xFF else leBytes 8 id ++ beBytes 2 (d.get (F.STR_MASTER_PORT_PORT m))
  let tlv (ty log : Nat) : List Byte := beBytes 2 4 ++ beBytes 2 6 ++ [byte (ty * 16), byte log] ++ beBytes 4 300
  let tlvs := tlv 11 (d.get (F.STR_REQ_LOG_ANN m)) ++ tlv 0 (d.get (F.STR_REQ_LOG_SYNC m)) ++ tlv 9 (d.get (F.STR_REQ_LOG_DREQ m))
  let msg := d.ownHeader img (ticks16 d.raw) 12 (44 + tlvs.length) false true 0 x.seq 5 0x7F ++ target ++ tlvs
  d.setStrm m { x with sig := x.sig ++ [msg], seq := (x.seq + 1) % 65536 }

/-! ## Commands -/

/-- RESERVED_SLOT_OCCURRENCE (R314 to R317, R326). -/
def execReservedSlotOccurrence (n l : Fin 4) (k : Fin 16) (s : State) : Answer :=
  s.runM fun _ led d => d.reservedSlot led n l k

/-- GRANT_EXPIRY (R325). -/
def execGrantExpiry (n l : Fin 4) (s : State) : Answer := s.runM fun _ led d => Dev.grantExpiry led d n l

/-- BMCA (R321). -/
def execBmca (n : Fin 4) (c : Fin 256) (s : State) : Answer := s.run (·.bmca n c)

/-- REFERENCE_MESSAGE (R33, R328, R329). -/
def execReferenceMessage (m : Fin 8) (s : State) : Answer := s.run (·.reference m)

/-- STREAM_GRANT_REQUEST (R327). -/
def execStreamGrantRequest (m : Fin 8) (s : State) : Answer := s.run (·.grantRequest m)

end Sys2Proof.Machine
end

