-- ==== Sys2Proof/Machine/HostIf.lean ====
section
/-! DEFINITION. The host interface: DMA rings and their interrupts, BAR2, the event table's registers, MSI-X, the PCIe function (R82, R83, R331 to R339, R345 to R347, R354 to R359). -/

namespace Sys2Proof.Machine

/-! ## Rings (R336, R337) -/

/-- Bank of a ring. -/
def ringBank : RingId → Nat
  | .rx n r => A.RXR_BASE n r
  | .tx n t => A.TXR_BASE n t
  | .cmd => A.CMDR_BASE
  | .ev => A.EVR_BASE

def ringEnableF (b : Nat) : Fld := ⟨b + 0xC, 0, 0⟩
def ringLatched (b : Nat) : Fld := ⟨b + 0xC, 3, 3⟩
def ringCfgErr (b : Nat) : Fld := ⟨b + 0xC, 8, 8⟩
def ringDmaErr (b : Nat) : Fld := ⟨b + 0xC, 9, 9⟩

/-- Where a ring's discarded writes show. -/
def ringErr : RingId → Fld
  | .rx n _ | .tx n _ => F.RING_BLK_STATUS_WRITE_ERR n
  | _ => F.HD_STATUS_WRITE_ERR

/-- The block of a ring can be reached. -/
def Dev.ringReach (d : Dev) : RingId → Bool
  | .rx n _ | .tx n _ => d.loaded && d.diePowered n
  | _ => d.loaded

/-- A write of a ring's tail: it may not pass the head (R336, R359). -/
def Dev.ringTailWrite (d : Dev) (r : RingId) (v : Nat) : Dev :=
  let b := ringBank r
  let s := d.ringSize b
  let t := d.get (ringTail b)
  let h := d.get (ringHead b)
  let steps := (v + s - t % s) % s
  let room := match r with
    | .ev => (h + s - t % s) % s
    | _ => s - 1 - d.posted' b
  if v ≥ s ∨ steps > room then d.setFlag (ringErr r) true else d.set (ringTail b) v

/-- Configuration check of a start-up (R337). -/
def Dev.ringCfgOk (d : Dev) (r : RingId) : Bool :=
  let b := ringBank r
  let k := d.get (ringLog2 b)
  decide (6 ≤ k) && (match r with
    | .rx n r => decide (k ≤ 16) && decide (1 ≤ d.get (F.RXR_CFG_BUF n r) ∧ d.get (F.RXR_CFG_BUF n r) ≤ 64)
    | .cmd => decide (k ≤ 12)
    | _ => decide (k ≤ 16))

/-- Host frames of a transmit ring that stand in the calendar and have not launched. -/
def Dev.txCommitted (d : Dev) (n t : Nat) : Bool :=
  (List.range 4).any fun l => (d.lnk n l).commits.any fun c => !c.gone && (match c.load with
    | .hostFrame f => f.ring == t
    | _ => false)

/-- Every descriptor of a transmit ring that is not committed completes with FLUSHED (R337). -/
def Dev.flushTx (host : Mem) (d : Dev) (n t : Nat) : Dev :=
  let b := A.TXR_BASE n t
  let fs := ((d.die n).txq[t]?).getD []
  let d := d.setDie n { d.die n with txq := setAt (d.die n).txq t [] }
  let d := fs.foldl (fun d f => d.txComplete n t f.descs 4) d
  -- descriptors posted and not fetched, frame by frame; an unfinished frame counts as one
  let s := d.ringSize b
  let rec go (d : Dev) : Nat → Dev
    | 0 => d
    | fuel + 1 =>
      let rt := d.ringRt b
      let left := d.posted' b - rt.fetched
      if left = 0 then d else
      let from' := (d.get (ringHead b) + rt.fetched) % s
      let ds := (d.frameDescs host b left from' []).getD ((List.range left).map fun i => (from' + i) % s)
      Dev.txComplete (d.setRingRt b { rt with fetched := rt.fetched + ds.length }) n t ds 4 |> fun d => go d fuel
  go d 65536

/-- A start-up or a shutdown begins. -/
def Dev.ringAct (host : Mem) (d : Dev) (r : RingId) (a : EnAct) : Dev :=
  let b := ringBank r
  match a with
  | .nothing => d
  | .start =>
    let d := (d.set (ringHead b) 0).set (ringTail b) 0
    (d.setRingRt b {}).set (ringState b) stStarting
  | .stop =>
    let d := match r with
      | .tx n t => Dev.flushTx host d n t
      | _ => d
    d.set (ringState b) stStopping

/-- A write of RING_CTRL.ENABLE. -/
def Dev.ringEnable (host : Mem) (d : Dev) (r : RingId) (want : Bool) : Dev :=
  let b := ringBank r
  let x := enableReq (d.get (ringState b)) want
  Dev.ringAct host ((d.setFlag (ringEnableF b) want).setFlag (ringLatched b) x.latched) r x.act

/-- A shutdown has nothing left to wait for. -/
def Dev.ringDrained (d : Dev) : RingId → Bool
  | .tx n t => !d.txCommitted n t
  | .cmd => d.pcie.cmds.isEmpty
  | _ => true

/-- A start-up or a shutdown completes; a latched request is acted on (R48). -/
def Dev.ringComplete (host : Mem) (d : Dev) (r : RingId) : Dev :=
  let b := ringBank r
  let again := d.flag (ringLatched b)
  match d.get (ringState b) with
  | 3 =>
    let d := d.setFlag (ringLatched b) false
    if !d.ringCfgOk r then (d.set (ringState b) stStopped).setFlag (ringCfgErr b) true
    else
      let d := d.set (ringState b) stRunning
      if again then Dev.ringAct host d r .stop else d
  | 1 =>
    if !d.ringDrained r then d else
    let d := (d.setFlag (ringLatched b) false).set (ringState b) stStopped
    if again then Dev.ringAct host d r .start else d
  | _ => d

/-- A ring stops at once: nothing of it is written back any more. -/
def Dev.ringHalt (d : Dev) (r : RingId) : Dev :=
  let b := ringBank r
  let d := (d.set (ringState b) stStopped).setFlag (ringLatched b) false
  match r with
  | .tx n t => d.setDie n { d.die n with txq := setAt (d.die n).txq t [] }
  | .cmd =>
    let live := d.pcie.cmds.filter fun c => c.result == none
    { d with pcie.cmds := live.map fun c => { c with stale := true } }
  | _ => d

/-- A completion error or Unsupported Request on a DMA of a ring (R337). -/
def Dev.dmaError (d : Dev) (r : RingId) : Dev :=
  let b := ringBank r
  if d.get (ringState b) = stStopped then d else
  let d := (d.ringHalt r).setFlag (ringDmaErr b) true
  match r with
  | .rx n i => (d.raise 4 (A.RING_BLK_STATUS n) i).raise (dieSrc n 15) (A.RING_BLK_STATUS n) i
  | .tx n i => (d.raise 4 (A.RING_BLK_STATUS n) i).raise (dieSrc n 15) (A.RING_BLK_STATUS n) i
  | _ => d.raise 4 A.HD_STATUS

/-- HOLDOFF_US has passed since the oldest unreported write-back (R347). -/
def Dev.ringHoldoff (d : Dev) (r : RingId) : Dev :=
  let b := ringBank r
  let irq := d.reg (b + 0x18)
  match (d.ringRt b).oldest with
  | none => d
  | some t => if bit irq.toNat 7 ∧ t + bits 31 16 irq * usTicks ≤ d.raw then d.ringMessage b else d

/-! ## Event table registers (R354, R355) -/

/-- A write of EV_ENABLE[w]. -/
def Dev.evEnableWrite (d : Dev) (w v : Nat) : Dev :=
  (List.range 32).foldl (fun d b =>
    let s := 32 * w + b
    let old := d.get (evEnable s) == 1
    let new := bit v b
    if old = new then d
    else if d.flag (F.EV_ROUTE_LOCKED s) then d.setFlag F.EV_BLK_STATUS_WRITE_ERR true
    else
      let d := d.set (evEnable s) (boolNat new)
      if new ∧ d.get (evStatus s) = 1 then d.redeliver s false else d) d

/-- A W1C write of EV_STATUS[w]; a level source whose condition holds is raised again. -/
def Dev.evStatusClear (d : Dev) (w v : Nat) : Dev :=
  let d := d.setReg (A.EV_STATUS w) (BitVec.ofNat 32 ((List.range 32).foldl (fun a b =>
    if bit v b then putBit a b false else a) (d.reg (A.EV_STATUS w)).toNat))
  (levelSources.filter (· / 32 = w)).foldl (fun d s => d.levelCheck s) d

/-- A write of EV_ROUTE[s]. -/
def Dev.evRouteWrite (d : Dev) (s v : Nat) : Dev :=
  let kind := v % 4
  let vec := v / 256 % 64
  let change := kind != d.get (F.EV_ROUTE_KIND s) || vec != d.get (F.EV_ROUTE_VECTOR s)
  if (d.flag (F.EV_ROUTE_LOCKED s) ∧ change) ∨ (s = 5 ∧ kind = 3) then d.setFlag F.EV_BLK_STATUS_WRITE_ERR true
  else (d.set (F.EV_ROUTE_KIND s) kind).set (F.EV_ROUTE_VECTOR s) vec

/-! ## MSI-X and the PCIe function (R335, R357) -/

/-- Sends what is pending and no longer held. -/
def Dev.msixFlush (d : Dev) : Dev :=
  (List.range 64).foldl (fun d v =>
    match d.pcie.msix[v]? with
    | some e => if e.pending then d.msixSend v else d
    | none => d) d

/-- A 32-bit write to the MSI-X table (BAR4): entry and word; word 3 is the mask. -/
def Dev.msixWrite (d : Dev) (v w : Nat) (x : Word) : Dev :=
  let f (e : MsixEntry) : MsixEntry := match w with
    | 0 => { e with addr := e.addr / 2 ^ 32 * 2 ^ 32 + x.toNat / 4 * 4 }
    | 1 => { e with addr := e.addr % 2 ^ 32 + 2 ^ 32 * x.toNat }
    | 2 => { e with data := x.toNat }
    | _ => { e with masked := bit x.toNat 0 }
  ({ d with pcie.msix := modAt d.pcie.msix v f } : Dev).msixFlush

/-- Every ring of the device. -/
def allRings : List RingId :=
  (List.finRange 4).flatMap (fun n => (List.finRange 8).flatMap fun r => [RingId.rx n r, RingId.tx n r]) ++ [.cmd, .ev]

/-- A reset of the PCIe function (R335): rings STOPPED with indices cleared, commands' write-backs discarded, MSI-X cleared. -/
def Dev.pcieReset (d : Dev) : Dev :=
  let d := allRings.foldl (fun d r =>
    let b := ringBank r
    let d := (d.ringHalt r).setFlag (ringEnableF b) false
    ((d.set (ringHead b) 0).set (ringTail b) 0).setRingRt b {}) d
  let d := (d.setFlag F.PCIE_STATUS_MSIX_EN false).setFlag F.PCIE_STATUS_D3 false
  { d with pcie.busMaster := false, pcie.funcMask := false, pcie.msix := List.replicate 64 {} }

/-- PCIE_RESET. -/
def Dev.pcieResetBy (d : Dev) (k : PcieReset) : Dev :=
  let d := d.pcieReset
  match k with
  | .flr => d
  | k =>
    let d := (d.set F.PCIE_STATUS_SPEED 0).set F.PCIE_STATUS_WIDTH 0
    { d with pcie.linkUp := false, pcie.perstN := if k = .perst then false else d.pcie.perstN }

/-- The link trains. -/
def Dev.pcieUp (d : Dev) (speed width : Nat) : Dev :=
  if !d.pcie.perstN ∨ d.mode = .bypass then d else
  { (d.set F.PCIE_STATUS_SPEED speed).set F.PCIE_STATUS_WIDTH width with pcie.linkUp := true }

/-- A configuration-space write: power state, bus mastering, MSI-X Enable and function mask. A return from D3hot resets the function (R335). -/
def Dev.cfgWrite (d : Dev) (d3 bm en mask : Bool) : Dev :=
  if !d.pcie.linkUp then d else
  if d.flag F.PCIE_STATUS_D3 ∧ !d3 then d.pcieReset
  else
    let d := (d.setFlag F.PCIE_STATUS_D3 d3).setFlag F.PCIE_STATUS_MSIX_EN en
    ({ d with pcie.busMaster := bm, pcie.funcMask := mask } : Dev).msixFlush

/-! ## BAR2 (R334) -/

/-- The bulk region: from the lowest share to the end of the highest. -/
def Dev.bulkRegion (d : Dev) : Nat × Nat :=
  let shares := (List.range 16).filterMap fun k =>
    let size := (d.reg (A.BULK_SIZE (k / 4) (k % 4))).toNat * 4096
    let base := d.get64 (A.BULK_BASE (k / 4) (k % 4))
    if size = 0 then none else some (base, base + size)
  match shares with
  | [] => (0, 0)
  | s :: r => let (a, b) := r.foldl (fun m p => (min m.1 p.1, max m.2 p.2)) s
              (a, b - a)

/-- Base and size of a target region: 0 the bulk region, 1 the log region of a device link. -/
def Dev.region (d : Dev) (target link : Nat) : Nat × Nat :=
  if target = 0 then d.bulkRegion
  else (d.get64 (A.LOG_BASE (link / 4) (link % 4)), (d.reg (A.LOG_SIZE (link / 4) (link % 4))).toNat * 4096)

/-- Bytes of a region from an offset; bytes past its end and of the 64 B blocks with an uncorrectable error (by ledger address) read as zero. -/
def regionRead (led : Mem) (base size ofs len : Nat) (bad : List Nat) : List Byte :=
  (List.range len).map fun i =>
    let a := base + ofs + i
    if ofs + i ≥ size ∨ bad.contains (a / 64) then 0 else led.get a

/-- A read lies on a block with an uncorrectable error. -/
def regionBad (base size ofs len : Nat) (bad : List Nat) : Bool :=
  bad.any fun k => decide (base + ofs < 64 * (k + 1) ∧ 64 * k < base + min size (ofs + len))

/-- An uncorrectable ledger error met by a host read (R334, R352, R420). -/
def Dev.hostEcc (d : Dev) : Dev := (d.ledgerUe.setFlag F.HD_STATUS_LEDGER_ECC true).faultPulse 0x0A 0xFF 0 A.HD_STATUS

/-- One BAR2 access: offset in the window; a write's bytes, or the length of a read; blocks of 64 B with an uncorrectable error. -/
def Dev.bar2 (led : Mem) (d : Dev) (ofs : Nat) (acc : List Byte ⊕ Nat) (bad : List Nat) : Dev :=
  if !d.loaded ∨ ofs ≥ 2 ^ 26 then d else
  let target := d.get F.BAR2_CTRL_TARGET
  let (base, size) := d.region target (d.get F.BAR2_CTRL_LINK)
  let at' := d.get64 A.BAR2_BASE / 4096 * 4096 + ofs
  match acc with
  | .inl bs =>
    let bs := bs.take (size - at')
    if target = 1 ∨ bs = [] then d else (d.lpost (base + at') bs).keeperCount 0x0B (cdiv bs.length 64)
  | .inr len =>
    let d := if regionBad base size at' len bad then d.hostEcc else d
    (d.keeperCount 0x0B (cdiv len 64)).emit (.bar2Data (regionRead led base size at' len bad))

/-! ## Commands -/

/-- RING_TAIL_WRITE (R336, R359). -/
def execRingTailWrite (r : RingId) (v : Word) (s : State) : Answer :=
  s.run fun d => if d.ringReach r then d.limited (ringBank r + 0x14) (putBits 15 0 (d.reg (ringBank r + 0x14)) (bits 15 0 v)) (·.ringTailWrite r (bits 15 0 v)) else d

/-- RING_CTRL_ENABLE (R337). -/
def execRingCtrlEnable (r : RingId) (want : Bool) (s : State) : Answer :=
  s.runM fun h _ d => if d.ringReach r then d.limitedBit (ringBank r + 0xC) want (Dev.ringEnable h · r want) else d

/-- RING_TRANSITION_COMPLETE (R337). -/
def execRingTransitionComplete (r : RingId) (s : State) : Answer := s.runM fun h _ d => Dev.ringComplete h d r

/-- RING_IRQ_HOLDOFF (R347). -/
def execRingIrqHoldoff (r : RingId) (s : State) : Answer := s.run (·.ringHoldoff r)

/-- EV_ENABLE_WRITE (R354, R355). -/
def execEvEnableWrite (w : Fin 4) (v : Word) (s : State) : Answer :=
  s.run fun d => d.limited (A.EV_ENABLE w) v (·.evEnableWrite w v.toNat)

/-- EV_STATUS_CLEAR (R354). -/
def execEvStatusClear (w : Fin 4) (v : Word) (s : State) : Answer :=
  s.run fun d => d.limited (A.EV_STATUS w) (d.reg (A.EV_STATUS w) &&& ~~~v) (·.evStatusClear w v.toNat)

/-- EV_ROUTE_WRITE (R355). -/
def execEvRouteWrite (src : Fin 128) (v : Word) (s : State) : Answer :=
  s.run fun d => d.limited (A.EV_ROUTE src) (putBits 13 8 (putBits 1 0 (d.reg (A.EV_ROUTE src)) (bits 1 0 v)) (bits 13 8 v)) (·.evRouteWrite src v.toNat)

/-- MSIX_UNMASK (R357): a write to a word of the MSI-X table. -/
def execMsixUnmask (v : Fin 64) (w : Fin 4) (x : Word) (s : State) : Answer := s.run (·.msixWrite v w x)

/-- PCIE_RESET (R82, R335). -/
def execPcieReset (k : PcieReset) (s : State) : Answer := s.run (·.pcieResetBy k)

/-- PERST_N_RISE (R83). -/
def execPerstNRise (s : State) : Answer := s.run fun d => { d with pcie.perstN := true }

/-- PCIE_LINK_UP (R88, R331): generation 1 to 4 and lanes. -/
def execPcieLinkUp (speed : Fin 5) (width : Fin 9) (s : State) : Answer := s.run (·.pcieUp speed width)

/-- CONFIGURATION_REQUEST (R335, R357). -/
def execConfigurationRequest (d3 busMaster msixEn funcMask : Bool) (s : State) : Answer :=
  s.run (·.cfgWrite d3 busMaster msixEn funcMask)

/-- BAR2_ACCESS (R334). -/
def execBar2Access (ofs : Nat) (acc : List Byte ⊕ Nat) (bad : List Nat) (s : State) : Answer :=
  s.runM fun _ led d => Dev.bar2 led d ofs acc bad

end Sys2Proof.Machine
end

