-- ==== Sys2Proof/Machine/Commands.lean ====
section
/-! DEFINITION. The command ring: taking, finishing and writing back commands; NOP, HOST_TIME, LEDGER_COPY (R348 to R353). -/

namespace Sys2Proof.Machine

/-! ## Opcodes (R350, R365, R366, R375, R398) -/

/-- Unit of an opcode: 0 housekeeping cores, 1 cookie minter, 2 big-number engine, 3 update logic; none: BAD_OPCODE. -/
def cmdUnit (op : Nat) : Option Nat :=
  if op ≤ 2 then some 0
  else if op = 0x40 then some 1
  else if (0x20 ≤ op ∧ op ≤ 0x2C) ∨ (0x30 ≤ op ∧ op ≤ 0x36) ∨ op = 0x38 ∨ op = 0x39 ∨ op = 0x3A ∨ op = 0x41 then some 2
  else if 0x50 ≤ op ∧ op ≤ 0x59 then some 3
  else none

/-- IN_LEN is one that the opcode admits (R353). -/
def inLenOk (op n : Nat) : Bool :=
  match op with
  | 0x00 => n == 0
  | 0x01 => n == 40
  | 0x02 => n == 24
  | 0x28 | 0x29 | 0x2C => decide (16 ≤ n ∧ n ≤ 16 + 16384)
  | 0x30 | 0x34 | 0x35 => n == 4
  | 0x31 | 0x38 => n == 0
  | 0x32 => [92, 108].contains n
  | 0x33 => n == 44
  | 0x36 => n == 48
  | 0x39 => n == 280
  | 0x3A => n == 8 || n == 12 || n == 56
  | 0x40 => n == 68
  | 0x41 => decide (5 ≤ n ∧ n ≤ 260)
  | 0x50 => n == 64
  | 0x51 => decide (9 ≤ n ∧ n ≤ 65544)
  | 0x52 | 0x53 | 0x54 | 0x55 => n == 0
  | 0x56 => n == 4
  | 0x57 => n == 20
  | 0x58 => n == 4
  | 0x59 => decide (4 ≤ n ∧ n ≤ 65539)
  | _ => n == 16

/-- OUT_MAX is one that the opcode admits: 0 for a big-number operation without output, a digest's length for SHA; where an output's length depends on the command, the unit checks it (R353, R365). -/
def outMaxOk (op : Nat) (inp : List Byte) (n : Nat) : Bool :=
  match op with
  | 0x2C => n == (if bit (leAt inp 2 1) 4 then 48 else 32)
  | 0x31 => decide (40 ≤ n)
  | 0x36 => decide (96 ≤ n)
  | 0x38 => decide (32 ≤ n)
  | 0x56 => decide ((if leAt inp 0 1 = 0 then 32 else 4096) ≤ n)
  | _ => if 0x20 ≤ op ∧ op ≤ 0x2B then n == 0 else true

/-- Commands that run in SAFE: NOP and the update and boot commands 0x0050 to 0x0056 (R349, R398). -/
def safeCmd (op : Nat) : Bool := op == 0 || decide (0x50 ≤ op ∧ op ≤ 0x56)

/-! ## Taking a command (R349) -/

/-- The next command of the ring that has not been taken. -/
def Dev.nextCmd (host : Mem) (d : Dev) : Option CmdRun :=
  let ring := A.CMDR_BASE
  let rt := d.ringRt ring
  if d.get (ringState ring) ≠ stRunning ∨ !d.dmaOk ∨ d.posted' ring ≤ rt.fetched then none else
  let a := d.descAddr ring ((d.get (ringHead ring) + rt.fetched) % d.ringSize ring)
  let b := host.read a 32
  let op := leAt b 0 2
  let n := leAt b 4 4
  some { desc := a, opcode := op, tag := leAt b 2 2, outAddr := leAt b 16 8, outMax := leAt b 24 4, since := d.raw
         input := if inLenOk op n then host.read (leAt b 8 8) n else zeros (min n 1) }

/-- Length of a command's input, as its descriptor gives it. -/
def descInLen (host : Mem) (c : CmdRun) : Nat := leNat (host.read (c.desc + 4) 4)

/-- An earlier command of the same unit is still in execution. -/
def Dev.unitBusy (d : Dev) (op : Nat) : Bool :=
  d.pcie.cmds.any fun c => c.result == none && cmdUnit c.opcode == cmdUnit op

/-- Enters a command among those in execution. -/
def Dev.addCmd (d : Dev) (c : CmdRun) : Dev :=
  let ring := A.CMDR_BASE
  let rt := d.ringRt ring
  { d.setRingRt ring { rt with fetched := rt.fetched + 1 } with pcie.cmds := d.pcie.cmds ++ [c] }

/-- Status of a command whose input or output length, or the mode, turns it away (R349, R353). -/
def Dev.cmdRefusal (host : Mem) (d : Dev) (c : CmdRun) : Option Nat :=
  if cmdUnit c.opcode = none then some 0xFFF0
  else if !inLenOk c.opcode (descInLen host c) ∨ !outMaxOk c.opcode c.input c.outMax then some 0xFFF1
  else if d.mode = .safe ∧ !safeCmd c.opcode then some 0xFFF3
  else none

/-- A command with this opcode is taken if it is next and its unit is free; the body gives the device and the result, none while the unit works. -/
def Dev.command (host : Mem) (d : Dev) (op : Nat) (body : Dev → CmdRun → Dev × Option (Nat × List Byte)) : Dev :=
  match d.nextCmd host with
  | none => d
  | some c =>
    if c.opcode ≠ op ∨ d.unitBusy op ∨ (cmdUnit op = some 0 ∧ d.md.coresDown.isSome) then d
    else match Dev.cmdRefusal host d c with
      | some code => d.addCmd { c with result := some (code, []), input := [] }
      | none =>
        let (d, r) := body d c
        d.addCmd { c with result := r, input := if r.isSome then [] else c.input }

/-! ## Finishing and writing back (R348, R349) -/

/-- The command of a descriptor finishes with a status and output; one whose ring was stopped is forgotten. -/
def Dev.cmdFinish (d : Dev) (desc code : Nat) (out : List Byte) : Dev :=
  let f (c : CmdRun) : Option CmdRun :=
    if c.desc = desc ∧ c.result = none then (if c.stale then none else some { c with result := some (code, out) }) else some c
  { d with pcie.cmds := d.pcie.cmds.filterMap f }

/-- The head passes the commands that are written back, in ring order. -/
def Dev.cmdAdvance (d : Dev) : Nat → Dev
  | 0 => d
  | fuel + 1 =>
    let ring := A.CMDR_BASE
    match d.pcie.cmds with
    | c :: rest =>
      if !c.written then d else
      let rt := d.ringRt ring
      let d := d.setRingRt ring { rt with fetched := rt.fetched - 1 }
      let d := d.set (ringHead ring) ((d.get (ringHead ring) + 1) % d.ringSize ring)
      Dev.cmdAdvance { d with pcie.cmds := rest } fuel
    | [] => d

/-- Writes back one finished command. -/
def Dev.cmdWrite (d : Dev) (c : CmdRun) (code : Nat) (out : List Byte) : Dev :=
  let d := if out = [] then d else d.post c.outAddr out
  let d := d.post (c.desc + 24) (leBytes 4 out.length ++ leBytes 2 code ++ [1])
  let f (k : CmdRun) : CmdRun := if k.desc = c.desc then { k with written := true } else k
  let d := ({ d with pcie.cmds := d.pcie.cmds.map f } : Dev).cmdAdvance 4096
  let d := (d.count32 A.CMDR_FRAMES).keeperCount 0x06
  let d := if code = 0 then d else d.count32 A.CMDR_NOBUF
  let d := if cmdUnit c.opcode = some 2 then d.keeperCount 0x0D else d
  d.ringReport A.CMDR_BASE

/-- COMMAND_COMPLETION: the first finished command is written back; a next command with an opcode of no unit is taken and finished first. -/
def Dev.cmdComplete (host : Mem) (d : Dev) : Dev :=
  let d := match d.nextCmd host with
    | some c => if cmdUnit c.opcode = none then d.addCmd { c with result := some (0xFFF0, []) } else d
    | none => d
  match d.pcie.cmds.find? fun c => !c.written && !c.stale && c.result.isSome with
  | some c => (match c.result with
    | some (code, out) => if d.dmaOk then d.cmdWrite c code out else d
    | none => d)
  | none => d

/-- The read of the next command's input fails: the command completes with DMA_ERR (R353). -/
def Dev.inputFails (host : Mem) (d : Dev) : Dev :=
  match d.nextCmd host with
  | some c => (d.addCmd { c with result := some (0xFFF2, []), input := [] }).cmdWrite c 0xFFF2 []
  | none => d

/-! ## HOST_TIME and LEDGER_COPY (R351, R352) -/

/-- The host-supplied sample. -/
def Dev.hostTime (d : Dev) (inp : List Byte) : Dev × Option (Nat × List Byte) :=
  let inst := ticks16 (leAt inp 0 8) + leAt inp 8 2
  match (List.range 12).find? fun s => d.get (F.SLOT_CFG_TYPE s) == 8 with
  | none => (d, some (1, []))
  | some s =>
    let oldest (k : Nat) : Bool := ((d.scale k).journal.getLast?).any fun p => inst < ticks16 p.epoch
    let k := if d.rank 0 s = 0 ∧ d.rank 1 s ≠ 0 then 1 else 0
    if oldest k then (d, some (2, []))
    else if inst > ticks16 d.raw then (d, some (3, []))
    else if leAt inp 22 4 > 999999999 then (d, some (4, []))
    else
      let t := joinTime (leAt inp 16 6) (leAt inp 22 4) (leAt inp 26 2)
      let t := if bit (leAt inp 29 1) 0 then d.taiOf t else t
      let d := (d.setSrc s { d.src s with unc := leAt inp 32 4 }).deliverSample s inst t
      (d.setSrc s { d.src s with heard := ticks16 d.raw }, some (0, []))

/-- LEDGER_COPY. -/
def Dev.ledgerCopy (host led : Mem) (bad : List Nat) (d : Dev) (c : CmdRun) : Dev × Option (Nat × List Byte) :=
  let inp := c.input
  let target := leAt inp 0 1
  let dir := leAt inp 2 1
  let len := leAt inp 4 4
  let ofs := leAt inp 8 8
  let (base, size) := d.region target (leAt inp 1 1 % 16)
  if target > 1 ∨ (target = 1 ∧ leAt inp 1 1 > 15) ∨ len = 0 ∨ len > 16777216 ∨ ofs + len > size ∨ (dir = 0 ∧ len > c.outMax) then (d, some (1, []))
  else if dir ≠ 0 ∧ target = 1 then (d, some (2, []))
  else
    let d := d.keeperCount 0x0B ((len + 63) / 64)
    if dir ≠ 0 then (d.lpost (base + ofs) (host.read (leAt inp 16 8) len), some (0, []))
    else
      let ecc := regionBad base size ofs len bad
      let d := if ecc then d.hostEcc else d
      (d, some (if ecc then 3 else 0, regionRead led base size ofs len bad))

/-! ## Commands -/

/-- NOP (R350). -/
def execNop (s : State) : Answer := s.runM fun h _ d => Dev.command h d 0x00 fun d _ => (d, some (0, []))

/-- HOST_TIME (R351). -/
def execHostTime (s : State) : Answer := s.runM fun h _ d => Dev.command h d 0x01 fun d c => d.hostTime c.input

/-- LEDGER_COPY (R352); bad: 64 B blocks of the ledger with an uncorrectable error. -/
def execLedgerCopy (bad : List Nat) (s : State) : Answer :=
  s.runM fun h led d => Dev.command h d 0x02 fun d c => Dev.ledgerCopy h led bad d c

/-- HOST_DMA_ERROR (R337, R353); input: the error met the read of a command's input. -/
def execHostDmaError (r : RingId) (input : Bool) (s : State) : Answer :=
  s.runM fun h _ d => (if r = .cmd ∧ input then Dev.inputFails h d else d).dmaError r

/-- COMMAND_COMPLETION (R348, R349, R353). -/
def execCommandCompletion (s : State) : Answer := s.runM fun h _ d => Dev.cmdComplete h d

end Sys2Proof.Machine
end

