-- ==== Sys2Proof/Machine/Serial.lean ====
section
/-! DEFINITION. The serial memory: boot headers and their registers, settings banks (R396, R397, R408). -/

namespace Sys2Proof.Machine

/-- Index of the newest of two copies and its content. -/
def newestOf {α : Type} (seq : α → Nat) (l : List (Option α)) : Option (Nat × α) :=
  match l with
  | [some a, some b] => if seq a < seq b then some (1, b) else some (0, a)
  | [some a, none] => some (0, a)
  | [none, some b] => some (1, b)
  | _ => none

/-- Index of the copy that the next write takes. -/
def nextCopy {α : Type} (seq : α → Nat) (l : List (Option α)) : Nat :=
  match newestOf seq l with
  | some (i, _) => 1 - i
  | none => 0

/-- Byte offset and size of image bank b (kind 0) or Position slot b (kind 1) (R396). -/
def bankBase (kind b : Nat) : Nat := if kind = 0 then 0x1000000 + b * 0x1800000 else 0x20000 + b * 0x200000
def bankSize (kind : Nat) : Nat := if kind = 0 then 24 * 2 ^ 20 else 2 ^ 21

/-- The valid boot header in force. -/
def Nv.hdr (v : Nv) : Option BootHdr := (newestOf (·.seq) v.hdrs).map (·.2)

/-- The banks of a kind. -/
def BootHdr.recs (h : BootHdr) (kind : Nat) : List BankRec := if kind = 0 then h.banks else h.slots
def BootHdr.rec' (h : BootHdr) (kind b : Nat) : BankRec := ((h.recs kind)[b]?).getD {}
def BootHdr.setRec (h : BootHdr) (kind b : Nat) (r : BankRec) : BootHdr :=
  if kind = 0 then { h with banks := setAt h.banks b r } else { h with slots := setAt h.slots b r }
def BootHdr.activeOf (h : BootHdr) (kind : Nat) : Nat := if kind = 0 then h.active else h.posActive

/-- The registers that show the boot header (UPD_BANK, HDR_SEQ). -/
def Dev.showHdr (d : Dev) : Dev :=
  match d.nv.hdr with
  | none => d
  | some h =>
    let one (d : Dev) (k b : Nat) : Dev :=
      let w := 2 * k + b
      let r := h.rec' k b
      let d := (d.set (F.UPD_BANK_0_STATE w) r.state).setFlag (F.UPD_BANK_0_ACTIVE w) (h.activeOf k == b)
      let d := d.setFlag (F.UPD_BANK_0_DOWNGRADE_OK w) r.dgOk
      ((d.set (F.UPD_BANK_1_GEN w) r.gen).set (F.UPD_BANK_2_ID w) r.id).set (F.UPD_BANK_3_SIZE w) r.size
    (one (one (one (one d 0 0) 0 1) 1 0) 1 1).set F.HDR_SEQ_SEQ h.seq

/-- Writes the boot header: to the copy that is not newest, with SEQ one higher (R397). -/
def Dev.writeHdr (d : Dev) (h : BootHdr) : Dev :=
  let seq := ((d.nv.hdr.map (·.seq)).getD 0) + 1
  let i := nextCopy (·.seq) d.nv.hdrs
  ({ d with nv.hdrs := setAt d.nv.hdrs i (some { h with seq := seq }) } : Dev).showHdr

/-- The boot header, or an empty one. -/
def Dev.hdr (d : Dev) : BootHdr := d.nv.hdr.getD {}

/-- The bank of the running image. -/
def Dev.imageBank (d : Dev) : Nat := d.get F.BOOT_STATUS_IMAGE_BANK

/-! ## Settings (R408) -/

/-- Newest valid copy of a settings bank. -/
def Dev.settings (d : Dev) (bank : Nat) : Option SetCopy :=
  (newestOf (·.seq) ((d.nv.sets[bank]?).getD [])).map (·.2)

/-- Writes a copy of a settings bank: the copies are written alternately. -/
def Dev.writeSettings (d : Dev) (bank : Nat) (c : SetCopy) : Dev :=
  let l := (d.nv.sets[bank]?).getD [none, none]
  let seq := (((newestOf (·.seq) l).map (·.2.seq)).getD 0) + 1
  { d with nv.sets := setAt d.nv.sets bank (setAt l (nextCopy (·.seq) l) (some { c with seq := seq })) }

/-- Value of a record of the running image's settings. -/
def Dev.setting (d : Dev) (tag sub : Nat) : Option (List Byte) :=
  (d.settings d.imageBank).bind fun c => (c.recs.find? (·.1 = (tag, sub))).map (·.2)

/-- Writes or removes a record of the running image's settings. -/
def Dev.putSetting (d : Dev) (tag sub : Nat) (v : Option (List Byte)) : Dev :=
  let c := (d.settings d.imageBank).getD {}
  let rest := c.recs.filter (·.1 ≠ (tag, sub))
  d.writeSettings d.imageBank { c with recs := match v with
    | some b => rest ++ [((tag, sub), b)]
    | none => rest }

/-- Removes every key record of both settings banks (R383). -/
def Dev.dropKeyRecords (d : Dev) : Dev :=
  let f (c : Option SetCopy) : Option SetCopy := c.map fun c => { c with recs := c.recs.filter (·.1.1 ≠ 0x10) }
  { d with nv.sets := d.nv.sets.map (·.map f) }

end Sys2Proof.Machine
end

