-- ==== Sys2Proof/Machine/Engine.lean ====
section
/-! DEFINITION. The big-number engine: operand memory, validation, results and durations of the operations 0x0020 to 0x002C (R362 to R371). -/

namespace Sys2Proof.Machine

/-! ## Operand memory (R362, R363) -/

/-- Bits of a slot, by SLOT_LEN. -/
def slotBits (len : Nat) : Nat := ([256, 384, 512, 1024, 2048, 4096][len]?).getD 256

/-- Number of slots, by SLOT_LEN. -/
def slotCount (len : Nat) : Nat := 262144 / slotBits len

def Dev.slotLen (d : Dev) : Nat := slotBits (d.get F.BN_CFG_SLOT_LEN)

/-- The low bits of an operand slot. -/
def Dev.operand (d : Dev) (s len : Nat) : Nat := d.wide (A.BN_WINDOW 0 + s * (d.slotLen / 8)) (d.slotLen / 32) % 2 ^ len

/-- Writes a whole operand slot. -/
def Dev.setOperand (d : Dev) (s v : Nat) : Dev := d.setWide (A.BN_WINDOW 0 + s * (d.slotLen / 8)) (d.slotLen / 32) v

/-- The whole operand memory is zeroed (R372). -/
def Dev.wipeOperands (d : Dev) : Dev :=
  { d with bus.regs := d.bus.regs.filter fun p => decide (p.1 < A.BN_WINDOW 0 ∨ A.BN_WINDOW 0 + 0x8000 ≤ p.1) }

/-! ## Header (R365) -/

/-- Header of an operation command; its reserved bits and bytes are ignored (R9). -/
structure BnHdr where
  len : Nat
  secret : Bool
  key : Bool
  curve : Nat
  sha384 : Bool
  kslot : Nat
  sa : Nat
  sb : Nat
  sc : Nat
  sm : Nat
  sr : Nat
deriving DecidableEq, Repr

def bnHdr (b : List Byte) : BnHdr :=
  let f := leAt b 2 1
  { len := leAt b 0 2, secret := bit f 0, key := bit f 1, curve := f / 4 % 4, sha384 := bit f 4
    kslot := leAt b 3 1, sa := leAt b 4 2, sb := leAt b 6 2, sc := leAt b 8 2, sm := leAt b 10 2, sr := leAt b 12 2 }

/-- What a command comes to: code, operand slots written at the end, output, duration in ticks, other effect. -/
structure Work where
  code : Nat := 0
  writes : List (Nat × Nat) := []
  out : List Byte := []
  dur : Nat := 0
  fx : KeyFx := .none
deriving DecidableEq, Repr

/-- A refusal completes 2 µs after the command is taken and zeroes the result slots (R369). -/
def refuse (code : Nat) (zero : List Nat) : Work := { code := code, writes := zero.map (·, 0), dur := 2 * usTicks }

/-- First failing check. -/
def firstFail (l : List (Bool × Nat)) : Option Nat := (l.find? (·.1)).map (·.2)

/-- Duration of the preparation phase, 5 µs. -/
abbrev prepTicks : Nat := 4000

/-- Time of one Montgomery product at a length, in ticks (R367). -/
def tMul (l : Nat) : Nat :=
  if l ≤ 256 then 120 else if l ≤ 384 then 240 else if l ≤ 512 then 384 else if l ≤ 1024 then 1488
  else if l ≤ 1536 then 3360 else if l ≤ 2048 then 5896 else if l ≤ 3072 then 12400 else 23040

/-- Checked operation: slot numbers, then the checks in order, then the work (R365, R368, R369). -/
def checked (d : Dev) (slots : List Nat) (minBits : Nat) (lenOk : Bool) (zero : List Nat) (checks : List (Bool × Nat)) (w : Work) : Work :=
  if slots.any (slotCount (d.get F.BN_CFG_SLOT_LEN) ≤ ·) ∨ d.slotLen < minBits ∨ !lenOk then refuse 7 []
  else match firstFail checks with
    | some c => refuse c zero
    | none => w

/-- LEN of a modular operation is in range (R365). -/
def BnHdr.lenOk (h : BnHdr) (d : Dev) : Bool := h.len % 64 == 0 && decide (256 ≤ h.len ∧ h.len ≤ d.slotLen)

/-- A code reported at the end of the full duration, with the result slots zeroed (R370). -/
def failEnd (code dur : Nat) (zero : List Nat) : Work := { code := code, writes := zero.map (·, 0), dur := dur }

/-! ## Modular operations (R366 to R368) -/

/-- MODADD and MODSUB. -/
def opAddSub (d : Dev) (h : BnHdr) (sub : Bool) : Work :=
  let v (s : Nat) := d.operand s h.len
  let (a, b, m) := (v h.sa, v h.sb, v h.sm)
  checked d [h.sa, h.sb, h.sm, h.sr] 0 (h.lenOk d) [h.sr]
    [(a == 0 || b == 0 || m == 0, 2), (m == 1, 3), (decide (a ≥ m ∨ b ≥ m), 4)]
    { writes := [(h.sr, if sub then subMod a b m else (a + b) % m)], dur := 4400 }

/-- MODMUL. -/
def opMul (d : Dev) (h : BnHdr) : Work :=
  let v (s : Nat) := d.operand s h.len
  let (a, b, m) := (v h.sa, v h.sb, v h.sm)
  checked d [h.sa, h.sb, h.sm, h.sr] 0 (h.lenOk d) [h.sr]
    [(a == 0 || b == 0 || m == 0, 2), (m == 1, 3), (decide (a ≥ m ∨ b ≥ m), 4), (m % 2 == 0, 14)]
    { writes := [(h.sr, a * b % m)], dur := prepTicks + tMul h.len }

/-- MODEXP. -/
def opExp (d : Dev) (h : BnHdr) : Work :=
  let v (s : Nat) := d.operand s h.len
  let (a, e, m) := (v h.sa, v h.sb, v h.sm)
  let n := if h.secret then h.len + h.len / 4 + 16 else bitLen e + popCount 4096 e
  checked d [h.sa, h.sb, h.sm, h.sr] 0 (h.lenOk d) [h.sr]
    [(a == 0 || e == 0 || m == 0, 2), (a == 1 || e == 1 || m == 1, 3), (decide (a ≥ m), 4), (m % 2 == 0, 14)]
    { writes := [(h.sr, powMod m 4097 a e)], dur := prepTicks + n * tMul h.len }

/-- MODEXP_CRT. -/
def opCrt (d : Dev) (h : BnHdr) : Work :=
  let half (s : Nat) := d.operand s (h.len / 2)
  let (dp, dq, qinv, p, q) := (half h.sa, half (h.sa + 1), half h.sb, half h.sm, half (h.sm + 1))
  let c := d.operand h.sc h.len
  let six := [dp, dq, qinv, c, p, q]
  let m1 := powMod p 4097 (c % p) dp
  let m2 := powMod q 4097 (c % q) dq
  let r := m2 + qinv * subMod m1 m2 p % p * q
  checked d [h.sa, h.sa + 1, h.sb, h.sc, h.sm, h.sm + 1, h.sr] 0 (h.lenOk d) [h.sr]
    [(six.contains 0, 2), (six.contains 1, 3), (decide (dp ≥ p ∨ dq ≥ q ∨ qinv ≥ p ∨ c ≥ p * q), 4), (p % 2 == 0 || q % 2 == 0, 14)]
    { writes := [(h.sr, r)], dur := prepTicks + (h.len + h.len / 4 + 32) * tMul (h.len / 2) + tMul (h.len / 2) + tMul h.len }

/-- MODINV. -/
def opInv (d : Dev) (h : BnHdr) : Work :=
  let v (s : Nat) := d.operand s h.len
  let (a, m) := (v h.sa, v h.sm)
  let dur := prepTicks + h.len * 96
  checked d [h.sa, h.sm, h.sr] 0 (h.lenOk d) [h.sr]
    [(a == 0 || m == 0, 2), (m == 1, 3), (decide (a ≥ m), 4)]
    (match invMod a m with
      | some x => { writes := [(h.sr, x)], dur := dur }
      | none => failEnd 13 dur [h.sr])

/-! ## Curve operations -/

def curveOf (c : Nat) : Curve := if c = 1 then p384 else p256

/-- Private input of a command: the operand slot's value as bytes, or a key slot's material; codes of R368 for a key slot. -/
def Dev.secretIn (d : Dev) (h : BnHdr) (ty pol bytes : Nat) (bigEndian : Bool) : Option Nat × List Byte :=
  if !h.key then
    let v := d.operand h.sa (8 * bytes)
    (none, if bigEndian then beBytes bytes v else leBytes bytes v)
  else match (d.keys.slots[h.kslot]?).join with
    | none => (some (if h.kslot < 16 then 8 else 23), zeros bytes)
    | some k => (if k.ty ≠ ty then some 9 else if !bit k.policy pol then some 10 else none, k.material)

/-- The key-slot check before the checks of R368. -/
def keyCheck (c : Option Nat) : List (Bool × Nat) := [(c.isSome, c.getD 0)]

/-- Operand slots of a private input. -/
def BnHdr.saSlots (h : BnHdr) : List Nat := if h.key then [] else [h.sa]

/-- ECDSA_SIGN. -/
def opEcdsaSign (d : Dev) (h : BnHdr) (rnd : List Byte) : Work :=
  let c := curveOf h.curve
  let (kc, mat) := d.secretIn h (2 + h.curve) 0 c.size true
  let x := beNat mat
  let z := [h.sr, h.sr + 1]
  let (r, s) := c.sign x (d.operand h.sb (8 * c.size)) rnd
  checked d (h.saSlots ++ [h.sb, h.sr, h.sr + 1]) (8 * c.size) (decide (h.curve < 2)) z
    (keyCheck kc ++ [(x == 0, 2), (x == 1, 3), (decide (x ≥ c.n), 4)])
    { writes := [(h.sr, r), (h.sr + 1, s)], dur := if h.curve = 1 then 1120000 else 480000 }

/-- The curve checks of a point: NOT_ON_CURVE, INFINITY (the pair 0, 0). -/
def pointChecks (c : Curve) (x y : Nat) : List (Bool × Nat) :=
  [(!(x == 0 && y == 0) && !c.on x y, 5), (x == 0 && y == 0, 6)]

/-- ECDSA_VERIFY. -/
def opEcdsaVerify (d : Dev) (h : BnHdr) : Work :=
  let c := curveOf h.curve
  let v (s : Nat) := d.operand s (8 * c.size)
  let (x, y, e, r, s) := (v h.sa, v (h.sa + 1), v h.sb, v h.sc, v (h.sc + 1))
  checked d [h.sa, h.sa + 1, h.sb, h.sc, h.sc + 1] (8 * c.size) (decide (h.curve < 2)) []
    ([(r == 0 || s == 0, 2), (decide (r ≥ c.n ∨ s ≥ c.n ∨ x ≥ c.p ∨ y ≥ c.p), 4)] ++ pointChecks c x y)
    { code := if c.verify (some (x, y)) e r s then 0 else 11, dur := if h.curve = 1 then 1680000 else 720000 }

/-- Additional time for a message beyond 256 B (R367). -/
def msgTicks (n : Nat) : Nat := (n - 256 + 127) / 128 * 200

/-- ED25519_SIGN. -/
def opEdSign (d : Dev) (h : BnHdr) (msg : List Byte) : Work :=
  let (kc, seed) := d.secretIn h 4 0 32 false
  let sig := edSign seed msg
  checked d (h.saSlots ++ [h.sr, h.sr + 1]) 256 true [h.sr, h.sr + 1]
    (keyCheck kc ++ [(leNat seed == 0, 2)])
    { writes := [(h.sr, leNat (sig.take 32)), (h.sr + 1, leNat (sig.drop 32))], dur := 280000 + msgTicks msg.length }

/-- ED25519_VERIFY. -/
def opEdVerify (d : Dev) (h : BnHdr) (msg : List Byte) : Work :=
  let v (s : Nat) := leBytes 32 (d.operand s 256)
  let (ab, rb, s) := (v h.sa, v h.sc, d.operand (h.sc + 1) 256)
  let ok := match edDecode ab, edDecode rb with
    | some a, some r => edVerify a r ab rb s msg
    | _, _ => false
  let inf := (edDecode ab).any fun a => a.same edZero
  checked d [h.sa, h.sc, h.sc + 1] 256 true []
    [(s == 0, 2), (decide (s ≥ edL), 4), ((edDecode ab).isNone || (edDecode rb).isNone, 5), (inf, 6)]
    { code := if ok then 0 else 11, dur := 640000 + msgTicks msg.length }

/-- X25519. -/
def opX (d : Dev) (h : BnHdr) : Work :=
  let (kc, k) := d.secretIn h 5 2 32 false
  let u := d.operand h.sb 256
  let r := x25519 k u
  checked d (h.saSlots ++ [h.sb, h.sr]) 256 true [h.sr]
    (keyCheck kc ++ [(leNat k == 0 || u == 0, 2), (u == 1, 3), (decide (u ≥ p25519), 4)])
    (if r = 0 then failEnd 15 240000 [h.sr] else { writes := [(h.sr, r)], dur := 240000 })

/-- PMUL. -/
def opPmul (d : Dev) (h : BnHdr) : Work :=
  let c := curveOf h.curve
  let (kc, mat) := d.secretIn h (2 + h.curve) 2 c.size true
  let k := beNat mat
  let (x, y) := (d.operand h.sb (8 * c.size), d.operand (h.sb + 1) (8 * c.size))
  let (rx, ry) := (c.times k (some (x, y))).getD (0, 0)
  checked d (h.saSlots ++ [h.sb, h.sb + 1, h.sr, h.sr + 1]) (8 * c.size) (decide (h.curve < 2)) [h.sr, h.sr + 1]
    (keyCheck kc ++ [(k == 0, 2), (k == 1, 3), (decide (k ≥ c.n ∨ x ≥ c.p ∨ y ≥ c.p), 4)] ++ pointChecks c x y)
    { writes := [(h.sr, rx), (h.sr + 1, ry)], dur := if h.curve = 1 then 1040000 else 440000 }

/-- SHA. -/
def opSha (h : BnHdr) (msg : List Byte) : Work :=
  if h.sha384 then { out := sha384 msg, dur := prepTicks + (msg.length + 17 + 127) / 128 * 200 }
  else { out := sha256 msg, dur := prepTicks + (msg.length + 9 + 63) / 64 * 160 }

/-- Draws n bytes from the device's random source. -/
def Dev.randomBytes (d : Dev) (n : Nat) : List Byte × Dev :=
  let (i, d) := d.draw
  (beBytes n (Config.random i), d)

/-- The big-number operation of an opcode; a reserved CURVE is BAD_INPUT, reserved FLAGS bits are ignored (R9). -/
def Dev.bnWork (d : Dev) (op : Nat) (inp rnd : List Byte) : Work :=
  let h := bnHdr inp
  let msg := inp.drop 16
  match op with
  | 0x20 => opAddSub d h false
  | 0x21 => opAddSub d h true
  | 0x22 => opMul d h
  | 0x23 => opExp d h
  | 0x24 => opCrt d h
  | 0x25 => opInv d h
  | 0x26 => if h.curve > 1 then refuse 23 [] else opEcdsaSign d h rnd
  | 0x27 => if h.curve > 1 then refuse 23 [] else opEcdsaVerify d h
  | 0x28 => opEdSign d h msg
  | 0x29 => opEdVerify d h msg
  | 0x2A => opX d h
  | 0x2B => if h.curve > 1 then refuse 23 [] else opPmul d h
  | _ => opSha h msg

end Sys2Proof.Machine
end

