-- ==== Sys2Proof/Machine/KeyStore.lean ====
section
/-! DEFINITION. The key store, fuses, debug unlock and identity key, the big-number engine's queue, shutdown and completion, TLS signatures, the cookie minter, the NTS keyring's changes (R300 to R304, R364, R369 to R383). -/

namespace Sys2Proof.Machine

/-! ## Keys (R374, R375) -/

/-- Length of a type's material. -/
def matLen (ty : Nat) : Nat := if ty = 3 then 48 else 32

/-- Policy bits that a type may carry (R374). -/
def allowedPolicy (ty : Nat) : Nat :=
  match ty with
  | 1 => 0x38
  | 2 | 3 => 0x37
  | 4 => 0x33
  | 5 => 0x34
  | _ => 0

/-- Public key of a type's material. -/
def pubOf (ty : Nat) (mat : List Byte) : List Byte :=
  match ty with
  | 2 => p256.pubBytes (beNat mat)
  | 3 => p384.pubBytes (beNat mat)
  | 4 => edPub mat
  | 5 => xPub mat
  | _ => []

/-- The material passes the checks of R368 for its type (R376). -/
def matOk (ty : Nat) (mat : List Byte) : Bool :=
  let x := beNat mat
  match ty with
  | 2 => decide (1 < x ∧ x < p256.n)
  | 3 => decide (1 < x ∧ x < p384.n)
  | 4 | 5 => x != 0
  | _ => true

/-- Time of a public key, as in KEY_GEN (R375). -/
def pubTicks (ty : Nat) : Nat :=
  match ty with
  | 2 => 480000
  | 3 => 1120000
  | 4 | 5 => 240000
  | _ => 0

def Dev.keySlot (d : Dev) (k : Nat) : Option KeySlot := (d.keys.slots[k]?).join

/-- A valid keyring entry names the slot. -/
def Dev.ntsUses (d : Dev) (k : Nat) : Bool :=
  (List.range 4).any fun e => d.flag (F.NTS_KEY_1_VALID e) && d.get (F.NTS_KEY_1_SLOT e) == k

/-- The registers that show the key slots. -/
def Dev.showKeys (d : Dev) : Dev :=
  (List.range 16).foldl (fun d k =>
    let (ty, pol) := match d.keySlot k with
      | some s => (s.ty, s.policy)
      | none => (0, 0)
    ((d.set (F.KS_SLOT_TYPE k) ty).set (F.KS_SLOT_POLICY k) pol).setFlag (F.KS_SLOT_NTS_IN_USE k) (d.ntsUses k)) d

/-- Sets a bit of KS_ALERT: "Key store alert". -/
def Dev.keyAlert (d : Dev) (f : Fld) : Dev := (d.setFlag f true).raise 37 A.KS_ALERT

/-- Sealed record of a PERSIST slot: slot, TYPE, POLICY, then tag and sealed material, 128 B (R378). -/
def keyRecord (k : Nat) (s : KeySlot) : List Byte :=
  let ad := [byte k, byte s.ty, byte s.policy]
  let (tag, c) := sivSeal Config.storageKey [ad] s.material
  slice (ad ++ [0] ++ tag ++ c) 0 128

/-- The slot that a record holds, if it unseals (R378). -/
def openRecord (r : List Byte) : Option (Nat × KeySlot) :=
  let ty := leAt r 1 1
  (sivOpen Config.storageKey [r.take 3] (slice r 4 16) (slice r 20 (matLen ty))).map fun m =>
    (leAt r 0 1, { ty := ty, policy := leAt r 2 1, material := m, pub := pubOf ty m })

/-- Fills or empties a slot, with its stored record. -/
def Dev.setKey (d : Dev) (k : Nat) (s : Option KeySlot) : Dev :=
  let had := (d.keySlot k).any fun s => bit s.policy 5
  let d := { d with keys.slots := setAt d.keys.slots k s }
  let d := match s with
    | some s => if bit s.policy 5 then d.putSetting 0x10 k (some (keyRecord k s)) else d
    | none => if had then d.putSetting 0x10 k none else d
  d.showKeys

/-- Every key slot is emptied, stored records apart (R82, R443). -/
def Dev.zeroiseVolatile (d : Dev) : Dev :=
  let f (s : Option KeySlot) : Option KeySlot := s.filter fun s => bit s.policy 5
  ({ d with keys.slots := d.keys.slots.map f, keys.session := none, keys.challenge := none } : Dev).showKeys

/-- The refusals of a slot that a command would fill (R374, R375). -/
def Dev.fillCode (d : Dev) (k ty pol : Nat) : Option Nat :=
  if k > 15 ∨ ty = 0 ∨ ty > 5 ∨ pol > 63 then some 23
  else if pol &&& allowedPolicy ty ≠ pol then some 10
  else if (d.keySlot k).isSome ∨ d.ntsUses k then some 17
  else none

/-- KEY_GEN. -/
def Dev.keyGen (d : Dev) (inp : List Byte) : Work × Dev :=
  let (k, ty, pol) := (leAt inp 0 1, leAt inp 1 1, leAt inp 2 1)
  match d.fillCode k ty pol with
  | some c => (refuse c [], d)
  | none =>
    let (r, d) := d.randomBytes (matLen ty)
    let m := match ty with
      | 2 => beBytes 32 (2 + beNat r % (p256.n - 2))
      | 3 => beBytes 48 (2 + beNat r % (p384.n - 2))
      | 4 | 5 => if beNat r = 0 then leBytes 32 1 else r
      | _ => r
    let pub := pubOf ty m
    ({ out := pub, dur := if ty = 1 then 16000 else pubTicks ty, fx := .put k { ty := ty, policy := pol, material := m, pub := pub } }, d)

/-- KEY_IMPORT_BEGIN: an ephemeral pair and a session id. -/
def Dev.importBegin (d : Dev) : Work × Dev :=
  let (id, d) := d.randomBytes 8
  let (k, d) := d.randomBytes 32
  ({ out := id ++ xPub k, dur := 240000, fx := .session id k }, d)

/-- Key-encryption key of R376. -/
def importKek (id ud uh shared : List Byte) : List Byte :=
  hkdf256 id shared ([0x55, 0x54, 0x34, 0x38, 0x37, 0x30, 0x20, 0x6B, 0x65, 0x79, 0x20, 0x69, 0x6D, 0x70, 0x6F, 0x72, 0x74] ++ ud ++ uh)

/-- KEY_IMPORT (R376): session id, slot, TYPE, POLICY, reserved, U_h, tag, sealed material. -/
def Dev.keyImport (d : Dev) (inp : List Byte) : Work × Dev :=
  let (k, ty, pol) := (leAt inp 8 1, leAt inp 9 1, leAt inp 10 1)
  match d.keys.session with
  | none => (refuse 18 [], d)
  | some (id, scalar, _) =>
    if id ≠ slice inp 0 8 then (refuse 18 [], d) else
    match d.fillCode k ty pol with
    | some c => (refuse c [], d)
    | none =>
      if inp.length ≠ 60 + matLen ty then (refuse 0xFFF1 [], d) else
      let uh := slice inp 12 32
      let kek := importKek id (xPub scalar) uh (leBytes 32 (x25519 scalar (leNat uh)))
      let d := { d with keys.session := none }
      match sivOpen kek [slice inp 8 3] (slice inp 44 16) (inp.drop 60) with
      | none => ({ refuse 16 [] with fx := .alert }, d)
      | some m =>
        if !matOk ty m then ({ refuse 16 [] with fx := .alert }, d)
        else
          let pub := pubOf ty m
          ({ out := pub, dur := 320000 + pubTicks ty, fx := .put k { ty := ty, policy := pol, material := m, pub := pub } }, d)

/-- KEY_EXPORT (R377): slot, reserved, the peer's session id and U_d. -/
def Dev.keyExport (d : Dev) (inp : List Byte) : Work × Dev :=
  let k := leAt inp 0 1
  if k > 15 then (refuse 23 [], d) else
  match d.keySlot k with
  | none => (refuse 8 [], d)
  | some s =>
    if !bit s.policy 4 then (refuse 10 [], d) else
    let (e, d) := d.randomBytes 32
    let id := slice inp 4 8
    let ud := slice inp 12 32
    let uh := xPub e
    let kek := importKek id ud uh (leBytes 32 (x25519 e (leNat ud)))
    let ad := [byte k, byte s.ty, byte s.policy]
    let (tag, c) := sivSeal kek [ad] s.material
    ({ out := id ++ ad ++ [0] ++ uh ++ tag ++ c, dur := 560000 }, d)

/-- KEY_ERASE. -/
def Dev.keyErase (d : Dev) (inp : List Byte) : Work :=
  let k := leAt inp 0 1
  if k > 15 then refuse 23 []
  else if d.ntsUses k then refuse 17 []
  else { dur := 16000, fx := .erase k }

/-- Scalar of the device identity key (R379). -/
def idScalar : Nat := 2 + Config.identityKey % (p384.n - 2)

/-- KEY_INFO. -/
def Dev.keyInfo (d : Dev) (inp : List Byte) : Work :=
  let k := leAt inp 0 1
  if k = 0xFF then { out := [3, 0, 0, 0] ++ p384.pubBytes idScalar, dur := 8000 }
  else if k > 15 then refuse 23 []
  else match d.keySlot k with
    | some s => { out := [byte s.ty, byte s.policy, 0, 0] ++ s.pub, dur := 8000 }
    | none => { out := zeros 4, dur := 8000 }

/-- Debug is unlocked (R382). -/
def Dev.debugOpen (d : Dev) : Bool := d.flag F.FUSE_STATE_DEBUG_OPEN

/-- ID_SIGN (R379). -/
def Dev.idSign (d : Dev) (inp rnd : List Byte) : Work :=
  if d.debugOpen then refuse 19 [] else
  let e := sha384 ([0x55, 0x54, 0x34, 0x38, 0x37, 0x30, 0x2D, 0x49, 0x44] ++ inp)
  let (r, s) := p384.sign idScalar (beNat e) rnd
  { out := beBytes 48 r ++ beBytes 48 s, dur := 1120000 }

/-! ## Fuses and debug (R380 to R383) -/

/-- Bytes of a fuse hash. -/
def Dev.fuseHash (d : Dev) (a : Nat) : List Byte := leBytes 48 (d.wide a 12)

/-- Root of trust of Positions and tokens: the customer's hash, or the vendor's while that is blank. -/
def Dev.rootHash (d : Dev) : List Byte :=
  if d.flag F.FUSE_STATE_CUST_BLANK then d.fuseHash (A.FUSE_VENDOR_HASH 0) else d.fuseHash (A.FUSE_CUSTOMER_HASH 0)

/-- FUSE_PROG (R381). -/
def Dev.fuseProg (flash : Mem) (d : Dev) (inp : List Byte) : Work :=
  if d.mode = .trial then refuse 22 [] else
  if slice inp 4 4 ≠ leBytes 4 0x46555345 then refuse 20 [] else
  let arg := inp.drop 8
  match leAt inp 0 1 with
  | 0 =>
    if inp.length ≠ 56 then refuse 0xFFF1 [] else
    let s := 1 - d.hdr.posActive
    let signer := flash.read (bankBase 1 s + 0x50) 96
    if d.flag F.FUSE_STATE_CUST_BLANK && (d.hdr.rec' 1 s).state == 2 && sha384 signer == arg then { fx := .customer arg }
    else refuse 20 []
  | 1 =>
    if inp.length ≠ 8 then refuse 0xFFF1 []
    else if d.get F.FUSE_STATE_DEBUG_LOCK < 2 then { fx := .lock } else refuse 20 []
  | 2 =>
    if inp.length ≠ 12 then refuse 0xFFF1 [] else
    let g := leAt arg 0 4
    if g ≤ 256 ∧ g ≤ (d.reg A.IMAGE_GEN).toNat ∧ !d.flag F.MODE_STATUS_ON_TRIAL then { fx := .minGen g } else refuse 20 []
  | _ => refuse 20 []

/-- Bytes 0 to 87 of a token pass (R382). -/
def Dev.tokenHead (d : Dev) (t : List Byte) : Bool :=
  slice t 0 4 == [0x55, 0x54, 0x44, 0x54] && slice t 4 48 == sha384 (p384.pubBytes idScalar) &&
    (d.keys.challenge.any fun c => c.1 == slice t 52 32) && decide (leAt t 84 4 < 4)

/-- The signer and the signature pass. -/
def Dev.tokenSigned (d : Dev) (t : List Byte) : Bool :=
  let key := slice t 88 96
  sha384 key == d.rootHash && p384.verifyBytes key (slice t 184 96) (sha384 (t.take 184))

/-- DEBUG_UNLOCK (R382); the challenge is consumed. -/
def Dev.debugUnlock (d : Dev) (t : List Byte) : Work × Dev :=
  let ok := match d.get F.FUSE_STATE_DEBUG_LOCK with
    | 0 => d.tokenHead t
    | 1 => d.priv 8 && d.tokenHead t && d.tokenSigned t
    | _ => false
  let d := { d with keys.challenge := none }
  (if ok then { fx := .unlock (leAt t 84 4) } else refuse 21 [], d)

/-! ## TLS signatures (R304) -/

/-- DER integer. -/
def derInt (n : Nat) : List Byte :=
  let b := beBytes (bitLen n / 8 + 1) n
  [2, byte b.length] ++ b

/-- DER signature. -/
def derSig (r s : Nat) : List Byte :=
  let b := derInt r ++ derInt s
  [0x30, byte b.length] ++ b

/-- TLS_SIGN: slot, scheme, length, content. -/
def Dev.tlsSign (d : Dev) (inp rnd : List Byte) : Work :=
  let (k, scheme, n) := (leAt inp 0 1, leAt inp 1 1, leAt inp 2 2)
  let content := inp.drop 4
  if content.length ≠ n then refuse 0xFFF1 []
  else if k > 15 ∨ scheme > 2 then refuse 23 [] else
  match d.keySlot k with
  | none => refuse 8 []
  | some s =>
    if s.ty ≠ 2 + scheme then refuse 9 []
    else if !bit s.policy 1 then refuse 10 []
    else match scheme with
      | 0 =>
        let (r, t) := p256.sign (beNat s.material) (beNat (sha256 content)) rnd
        { out := derSig r t, dur := 480000 }
      | 1 =>
        let (r, t) := p384.sign (beNat s.material) (beNat (sha384 content)) rnd
        { out := derSig r t, dur := 1120000 }
      | _ => { out := edSign s.material content, dur := 280000 }

/-! ## The engine's queue (R364, R367, R372) -/

/-- R49 state of the engine. -/
def Dev.bnSt (d : Dev) : Nat := d.get F.BN_CTRL_STATE

/-- What a command of the engine comes to. -/
def Dev.engineWork (flash : Mem) (d : Dev) (c : CmdRun) : Work × Dev :=
  let (rnd, d) := if c.opcode = 0x26 ∨ c.opcode = 0x36 ∨ c.opcode = 0x41 then d.randomBytes 32 else ([], d)
  match c.opcode with
  | 0x30 => d.keyGen c.input
  | 0x31 => d.importBegin
  | 0x32 => d.keyImport c.input
  | 0x33 => d.keyExport c.input
  | 0x34 => (d.keyErase c.input, d)
  | 0x35 => (d.keyInfo c.input, d)
  | 0x36 => (d.idSign c.input rnd, d)
  | 0x38 => let (r, d) := d.randomBytes 32
            ({ out := r, fx := .challenge r }, d)
  | 0x39 => d.debugUnlock c.input
  | 0x3A => (Dev.fuseProg flash d c.input, d)
  | 0x41 => (d.tlsSign c.input rnd, d)
  | op => (d.bnWork op c.input rnd, d)

/-- Slots that an operation names: all of them, and its results. -/
def opSlots (op : Nat) (inp : List Byte) : List Nat × List Nat :=
  let h := bnHdr inp
  let one := ([h.sr] : List Nat)
  let two := [h.sr, h.sr + 1]
  match op with
  | 0x20 | 0x21 | 0x22 | 0x23 => ([h.sa, h.sb, h.sm] ++ one, one)
  | 0x24 => ([h.sa, h.sa + 1, h.sb, h.sc, h.sm, h.sm + 1] ++ one, one)
  | 0x25 => ([h.sa, h.sm] ++ one, one)
  | 0x26 => (h.saSlots ++ [h.sb] ++ two, two)
  | 0x27 => ([h.sa, h.sa + 1, h.sb, h.sc, h.sc + 1], [])
  | 0x28 => (h.saSlots ++ two, two)
  | 0x29 => ([h.sa, h.sc, h.sc + 1], [])
  | 0x2A => (h.saSlots ++ [h.sb] ++ one, one)
  | 0x2B => (h.saSlots ++ [h.sb, h.sb + 1] ++ two, two)
  | _ => ([], [])

/-- The result slots of an operation, zeroed by a refusal (R369). -/
def Dev.resultZeros (d : Dev) (c : CmdRun) : List (Nat × Nat) :=
  ((opSlots c.opcode c.input).2.filter (· < slotCount (d.get F.BN_CFG_SLOT_LEN))).map (·, 0)

/-- The engine takes the oldest command that waits for it, if it is idle and RUNNING; while STOPPED it completes it with DISABLED. -/
def Dev.bnStart (flash : Mem) (d : Dev) : Dev :=
  if d.bn.isSome ∨ d.bnSt = stStopping ∨ d.bnSt = stStarting then d else
  match d.pcie.cmds.find? fun c => c.result == none && cmdUnit c.opcode == some 2 with
  | none => d
  | some c =>
    if d.bnSt = stStopped then
      { d with bn := some { desc := c.desc, opcode := c.opcode, start := d.raw, due := d.raw + 2 * usTicks, code := 12, writes := d.resultZeros c } }
    else
      let (w, d) := Dev.engineWork flash d c
      -- output longer than its room: nothing executed (R353)
      let w := if w.out.length > c.outMax then refuse 0xFFF1 [] else w
      let d := (d.setFlag F.BN_OP_BUSY true).set F.BN_OP_OPCODE (c.opcode % 256)
      { d with bn := some { desc := c.desc, opcode := c.opcode, start := d.raw, due := d.raw + w.dur, code := w.code, out := w.out, writes := w.writes, fx := w.fx } }

/-- A command of the engine is taken from the ring; it may wait behind others. -/
def Dev.bnTake (host flash : Mem) (d : Dev) (op : Nat) : Dev :=
  match d.nextCmd host with
  | none => d
  | some c =>
    if c.opcode ≠ op then d
    else match Dev.cmdRefusal host d c with
      | some code => d.addCmd { c with result := some (code, []) }
      | none => Dev.bnStart flash (d.addCmd c)

/-- A slot is named by a queued or running operation (R364). -/
def Dev.slotNamed (d : Dev) (s : Nat) : Bool :=
  d.pcie.cmds.any fun c => c.result == none && (opSlots c.opcode c.input).1.contains s

/-- A slot is a result of the running operation (R364). -/
def Dev.slotPending (d : Dev) (s : Nat) : Bool :=
  d.bn.any fun j => d.pcie.cmds.any fun c => c.desc == j.desc && c.result == none && (opSlots c.opcode c.input).2.contains s

/-- The other effect of a command, at its completion (R375, R376, R381, R383). -/
def Dev.keyEffect (d : Dev) (fx : KeyFx) : Dev :=
  match fx with
  | .none => d
  | .put k s => d.setKey k (some s)
  | .erase k => d.setKey k none
  | .alert => d.keyAlert F.KS_ALERT_UNWRAP
  | .session id k => { d with keys.session := some (id, k, d.raw) }
  | .challenge c => { d with keys.challenge := some (c, d.raw) }
  | .customer h => (d.setWide (A.FUSE_CUSTOMER_HASH 0) 12 (leNat h)).setFlag F.FUSE_STATE_CUST_BLANK false
  | .lock => d.set F.FUSE_STATE_DEBUG_LOCK (d.get F.FUSE_STATE_DEBUG_LOCK + 1)
  | .minGen g =>
    if g ≤ d.get F.FUSE_STATE_MIN_GEN then d
    else (d.setWide (A.FUSE_MIN_GEN 0) 8 (2 ^ g - 1)).set F.FUSE_STATE_MIN_GEN g
  | .unlock p =>
    let d := ({ d with keys.slots := List.replicate 16 none } : Dev).dropKeyRecords.showKeys
    let d := { d with lposted := d.lposted ++ [MemOp.wipe] }
    ({ d.wipeOperands with md.unlockNext := some p } : Dev).askReset 8

/-- BIG_NUMBER_OPERATION_COMPLETE: the running command's duration has passed (R367, R369, R370). -/
def Dev.bnComplete (flash : Mem) (d : Dev) : Dev :=
  match d.bn with
  | none => d
  | some j =>
    if d.raw < j.due then d else
    let d := j.writes.foldl (fun d p => d.setOperand p.1 p.2) { d with bn := none }
    let d := d.keyEffect j.fx
    let d := ((d.setFlag F.BN_OP_BUSY false).set F.BN_OP_LAST_CODE (j.code % 256)).setFlag F.BN_OP_DONE true
    let d := (d.raise 36 A.BN_OP).cmdFinish j.desc j.code j.out
    Dev.bnStart flash d

/-! ## Shutdown, abort, start-up (R372, R373) -/

/-- The running command and those that wait complete with ABORTED; the wipe begins. -/
def Dev.bnStop (d : Dev) : Dev :=
  let ds := (d.pcie.cmds.filter fun c => c.result == none && cmdUnit c.opcode == some 2).map (·.desc)
  let d := ds.foldl (fun d a => d.cmdFinish a 1 []) { d with bn := none }
  let d := if ds = [] then d else (d.setFlag F.BN_OP_DONE true).raise 36 A.BN_OP
  let d := (d.setFlag F.BN_OP_BUSY false).setFlag F.BN_OP_WIPING true
  (d.wipeOperands).set F.BN_CTRL_STATE stStopping

def Dev.bnAct (d : Dev) (a : EnAct) : Dev :=
  match a with
  | .nothing => d
  | .start => d.set F.BN_CTRL_STATE stStarting
  | .stop => d.bnStop

/-- A write of BN_CTRL.ENABLE. -/
def Dev.bnEnable (d : Dev) (want : Bool) : Dev :=
  let x := enableReq d.bnSt want
  ((d.setFlag F.BN_CTRL_ENABLE want).setFlag F.BN_CTRL_LATCHED x.latched).bnAct x.act

/-- WIPE_COMPLETE. -/
def Dev.bnWiped (flash : Mem) (d : Dev) : Dev :=
  if d.bnSt ≠ stStopping then d else
  let again := d.flag F.BN_CTRL_LATCHED
  let d := ((d.setFlag F.BN_OP_WIPING false).set F.BN_OP_LAST_CODE 1).setFlag F.BN_CTRL_LATCHED false
  let d := d.set F.BN_CTRL_STATE stStopped
  if again then d.bnAct .start else Dev.bnStart flash d

/-- BN_START_UP_COMPLETE. -/
def Dev.bnStarted (flash : Mem) (d : Dev) : Dev :=
  if d.bnSt ≠ stStarting then d else
  let again := d.flag F.BN_CTRL_LATCHED
  let d := (d.setFlag F.BN_CTRL_LATCHED false).set F.BN_CTRL_STATE stRunning
  if again then d.bnAct .stop else Dev.bnStart flash d

/-! ## The keyring (R300, R301) -/

/-- NTS_ROT_CTRL.GO (R300; bounds of R68, order of R462). -/
def Dev.ntsRotGo (d : Dev) : Dev :=
  let e := d.get64 A.NTS_ROT_EPOCH
  let code := if d.flag F.NTS_STATUS_ROT_PENDING then 3 else if tooSoon d.raw e then 1 else if tooFar d.raw e then 2 else 0
  let d := d.set F.NTS_STATUS_LAST_CODE code
  if code = 0 then d.setFlag F.NTS_STATUS_ROT_PENDING true else d

/-- NTS_ROT_CTRL.CANCEL (R300). -/
def Dev.ntsRotCancel (d : Dev) : Dev :=
  if !d.flag F.NTS_STATUS_ROT_PENDING then d.set F.NTS_STATUS_LAST_CODE 6
  else if d.raw + leadTicks > d.get64 A.NTS_ROT_EPOCH then d.set F.NTS_STATUS_LAST_CODE 5
  else (d.set F.NTS_STATUS_LAST_CODE 4).setFlag F.NTS_STATUS_ROT_PENDING false

/-- The roles rotate at an epoch (R300, item 2). -/
def Dev.rotateRoles (d : Dev) (e : Nat) : Dev :=
  let (p, c, n, s) := (d.ntsHolder 0, d.ntsHolder 1, d.ntsHolder 2, d.ntsHolder 3)
  let d := [A.NTS_ROLES, A.NTS_KEY_1 p, A.NTS_PREV_UNTIL, A.NTS_PREV_UNTIL_HI].foldl (·.keepFrom e) d
  let d := d.setFlag (F.NTS_KEY_1_VALID p) false
  let d := d.setReg A.NTS_ROLES (BitVec.ofNat 32 (c + 4 * n + 16 * s + 64 * p))
  (d.set64 A.NTS_PREV_UNTIL (e + d.get F.NTS_OVERLAP_S * secTicks)).showKeys

/-- NTS_KEY_ROTATION. -/
def Dev.ntsRotate (d : Dev) : Dev :=
  let e := d.get64 A.NTS_ROT_EPOCH
  if !d.flag F.NTS_STATUS_ROT_PENDING ∨ d.raw < e then d else
  let d := if d.flag (F.NTS_KEY_1_VALID (d.ntsHolder 2)) then d.rotateRoles e else d.setFlag F.NTS_STATUS_ROT_SKIP true
  let d := (d.setFlag F.NTS_STATUS_DONE true).raise 38 A.NTS_STATUS
  let p := d.get F.NTS_ROT_PERIOD_S
  if p = 0 then d.setFlag F.NTS_STATUS_ROT_PENDING false
  else d.set64 A.NTS_ROT_EPOCH ((e + p * secTicks) % 2 ^ 64)

/-- Refusal of a committed keyring write: 7 BAD_SLOT, 8 DUP_ID, 9 ROLE (checked in ascending order of code, after which 0 accepts). -/
def Dev.ntsWriteCode (d : Dev) (k id slot : Nat) (valid : Bool) : Nat :=
  if !valid then 0
  else if !((d.keySlot slot).any fun s => s.ty == 1 && bit s.policy 3) then 7
  else if (List.range 4).any fun e => e != k && d.flag (F.NTS_KEY_1_VALID e) && (d.reg (A.NTS_KEY e)).toNat == id then 8
  else if d.flag (F.NTS_KEY_1_VALID k) && d.ntsRole k != 3 then 9
  else 0

/-- A committed write of keyring entry k: KEY_ID and word 1; a rotation due at the same epoch applies first. -/
def Dev.ntsWrite (d : Dev) (k : Nat) (id w1 : Word) : Dev :=
  let d := d.ntsRotate
  let valid := bit w1.toNat 8
  let code := d.ntsWriteCode k id.toNat (bits 3 0 w1) valid
  let d := d.set F.NTS_STATUS_LAST_CODE code
  if code ≠ 0 then d.setFlag F.NTS_STATUS_WRITE_ERR true
  else
    let d := (d.keep (A.NTS_KEY k)).keep (A.NTS_KEY_1 k)
    let d := if valid ∧ !d.flag (F.NTS_KEY_1_VALID k) then d.setReg (A.NTS_KEY_2 k) 0 else d
    let d := ((d.setReg (A.NTS_KEY k) id).set (F.NTS_KEY_1_SLOT k) (bits 3 0 w1)).setFlag (F.NTS_KEY_1_VALID k) valid
    d.showKeys

/-! ## The cookie minter (R303) -/

/-- Cookies of one NTS_MINT command. -/
def mintCookies (id : Nat) (m c2s s2c : List Byte) : Nat → Dev → List Byte × Dev
  | 0, d => ([], d)
  | n + 1, d =>
    let (r, d) := d.randomBytes 16
    let (l, d) := mintCookies id m c2s s2c n d
    (cookie id m r c2s s2c ++ l, d)

/-- NTS_MINT; a rotation due at the same tick applies first (R305). -/
def Dev.ntsMint (d : Dev) (c : CmdRun) : Dev × Option (Nat × List Byte) :=
  let d := d.ntsRotate
  let n := leAt c.input 2 1
  if beAt c.input 0 2 ≠ 15 then (d, some (2, []))
  else if n = 0 ∨ n > 8 then (d, some (3, []))
  else if 8 + 104 * n > c.outMax then (d, some (0xFFF1, []))
  else match (if d.bnSt = stStopped then none else d.ntsMints) with
    | none => (d, some (1, []))
    | some (k, id, m) =>
      let (l, d) := mintCookies id m (slice c.input 4 32) (slice c.input 36 32) n d
      (d.count32 (A.NTS_KEY_2 k) n, some (0, beBytes 4 id ++ [byte n, 0, 0, 0] ++ l))

/-! ## Commands -/

/-- MODADD (R366). -/
def execModadd (s : State) : Answer := s.runF fun h _ fl d => Dev.bnTake h fl d 0x20
/-- MODSUB (R366). -/
def execModsub (s : State) : Answer := s.runF fun h _ fl d => Dev.bnTake h fl d 0x21
/-- MODMUL (R366). -/
def execModmul (s : State) : Answer := s.runF fun h _ fl d => Dev.bnTake h fl d 0x22
/-- MODEXP (R366). -/
def execModexp (s : State) : Answer := s.runF fun h _ fl d => Dev.bnTake h fl d 0x23
/-- MODEXP_CRT (R366). -/
def execModexpCrt (s : State) : Answer := s.runF fun h _ fl d => Dev.bnTake h fl d 0x24
/-- MODINV (R366). -/
def execModinv (s : State) : Answer := s.runF fun h _ fl d => Dev.bnTake h fl d 0x25
/-- ECDSA_SIGN (R366). -/
def execEcdsaSign (s : State) : Answer := s.runF fun h _ fl d => Dev.bnTake h fl d 0x26
/-- ECDSA_VERIFY (R366). -/
def execEcdsaVerify (s : State) : Answer := s.runF fun h _ fl d => Dev.bnTake h fl d 0x27
/-- ED25519_SIGN (R366). -/
def execEd25519Sign (s : State) : Answer := s.runF fun h _ fl d => Dev.bnTake h fl d 0x28
/-- ED25519_VERIFY (R366). -/
def execEd25519Verify (s : State) : Answer := s.runF fun h _ fl d => Dev.bnTake h fl d 0x29
/-- X25519 (R366). -/
def execX25519 (s : State) : Answer := s.runF fun h _ fl d => Dev.bnTake h fl d 0x2A
/-- PMUL (R366). -/
def execPmul (s : State) : Answer := s.runF fun h _ fl d => Dev.bnTake h fl d 0x2B
/-- SHA (R366). -/
def execSha (s : State) : Answer := s.runF fun h _ fl d => Dev.bnTake h fl d 0x2C
/-- KEY_GEN (R375). -/
def execKeyGen (s : State) : Answer := s.runF fun h _ fl d => Dev.bnTake h fl d 0x30
/-- KEY_IMPORT_BEGIN (R376). -/
def execKeyImportBegin (s : State) : Answer := s.runF fun h _ fl d => Dev.bnTake h fl d 0x31
/-- KEY_IMPORT (R376). -/
def execKeyImport (s : State) : Answer := s.runF fun h _ fl d => Dev.bnTake h fl d 0x32
/-- KEY_EXPORT (R377). -/
def execKeyExport (s : State) : Answer := s.runF fun h _ fl d => Dev.bnTake h fl d 0x33
/-- KEY_ERASE (R375). -/
def execKeyErase (s : State) : Answer := s.runF fun h _ fl d => Dev.bnTake h fl d 0x34
/-- KEY_INFO (R375). -/
def execKeyInfo (s : State) : Answer := s.runF fun h _ fl d => Dev.bnTake h fl d 0x35
/-- ID_SIGN (R379). -/
def execIdSign (s : State) : Answer := s.runF fun h _ fl d => Dev.bnTake h fl d 0x36
/-- DEBUG_CHALLENGE (R382). -/
def execDebugChallenge (s : State) : Answer := s.runF fun h _ fl d => Dev.bnTake h fl d 0x38
/-- DEBUG_UNLOCK (R382, R383). -/
def execDebugUnlock (s : State) : Answer := s.runF fun h _ fl d => Dev.bnTake h fl d 0x39
/-- FUSE_PROG (R381). -/
def execFuseProg (s : State) : Answer := s.runF fun h _ fl d => Dev.bnTake h fl d 0x3A
/-- TLS_SIGN (R304). -/
def execTlsSign (s : State) : Answer := s.runF fun h _ fl d => Dev.bnTake h fl d 0x41

/-- BIG_NUMBER_OPERATION_COMPLETE (R367, R369, R370). -/
def execBigNumberOperationComplete (s : State) : Answer := s.runF fun _ _ fl d => Dev.bnComplete fl d

/-- IMPORT_SESSION_EXPIRY (R376): the session has been held for 60 s. -/
def execImportSessionExpiry (s : State) : Answer :=
  s.run fun d => if d.keys.session.any fun x => x.2.2 + 60 * secTicks ≤ d.raw then { d with keys.session := none } else d

/-- CHALLENGE_EXPIRY (R382). -/
def execChallengeExpiry (s : State) : Answer :=
  s.run fun d => if d.keys.challenge.any fun x => x.2 + 60 * secTicks ≤ d.raw then { d with keys.challenge := none } else d

/-- NTS_MINT (R303). -/
def execNtsMint (s : State) : Answer := s.runM fun h _ d => Dev.command h d 0x40 fun d c => d.ntsMint c

/-- BN_CTRL_ENABLE (R372). -/
def execBnCtrlEnable (want : Bool) (s : State) : Answer :=
  s.run (·.whenUp fun d => d.limitedBit A.BN_CTRL want (·.bnEnable want))

/-- ABORT (R373): a shutdown and a latched re-enable in one cycle. -/
def execAbort (s : State) : Answer := s.run (·.whenUp fun d => (d.bnEnable false).bnEnable true)

/-- WIPE_COMPLETE (R372). -/
def execWipeComplete (s : State) : Answer := s.runF fun _ _ fl d => Dev.bnWiped fl d

/-- BN_START_UP_COMPLETE (R372). -/
def execBnStartUpComplete (s : State) : Answer := s.runF fun _ _ fl d => Dev.bnStarted fl d

/-- NTS_ROT_GO (R300). -/
def execNtsRotGo (s : State) : Answer := s.run (·.ntsRotGo)

/-- NTS_ROT_CANCEL (R300). -/
def execNtsRotCancel (s : State) : Answer := s.run (·.ntsRotCancel)

/-- NTS_KEY_ROTATION (R300). -/
def execNtsKeyRotation (s : State) : Answer := s.run (·.ntsRotate)

end Sys2Proof.Machine
end

