-- ==== Sys2Proof/Machine/Ring.lean ====
section
/-! DEFINITION. The Goeri ring: frames, ports, neighbour time comparison, events (R385 to R393). -/

namespace Sys2Proof.Machine

/-! ## Frames (R386) -/

/-- A ring message. -/
structure Msg where
  ty : Nat
  hops : Nat
  reply : Bool
  origin : List Byte
  seq : Nat
  payload : List Byte
deriving DecidableEq, Repr

/-- This device's ORIGIN prefix. -/
def selfId : List Byte := (sha384 (p384.pubBytes idScalar)).take 8

def Msg.bytes (m : Msg) : List Byte :=
  let b := [byte m.ty, byte m.hops, byte (boolNat m.reply), 0] ++ m.origin ++ beBytes 4 m.seq ++
    beBytes 2 m.payload.length ++ [0, 0] ++ m.payload
  b ++ beBytes 4 (crc32c b)

/-- The message of a frame; none for a wrong CRC or length. -/
def parseMsg (f : List Byte) : Option Msg :=
  let n := beAt f 16 2
  if n > 2048 ∨ f.length ≠ n + 24 then none
  else if beAt f (20 + n) 4 ≠ crc32c (f.take (20 + n)) then none
  else some { ty := beAt f 0 1, hops := beAt f 1 1, reply := bit (beAt f 2 1) 0, origin := slice f 4 8
              seq := beAt f 12 4, payload := slice f 20 n }

/-- Message types of R387. -/
def msgTypes : List Nat := [0x01, 0x02, 0x03, 0x04, 0x05, 0x10, 0x11, 0x12, 0x13, 0x14]

/-! ## Ports (R385, R389) -/

/-- A port has trained: its link is up. -/
def Dev.portLink (d : Dev) (p : Nat) : Bool := d.flag (F.GR_PSTATUS_LINK_UP p)

/-- The ring ports are powered: not in BYPASS, nor with the TB-PLL off (R92, R95). -/
def Dev.ringPowered (d : Dev) : Bool := d.mode ≠ .bypass && !d.coarse

/-- The ring bypass is closed: in BYPASS, with the TB-PLL off, and in LOAD until both ports have trained (R92, R95). -/
def Dev.bypassClosed (d : Dev) : Bool := !d.ringPowered || (d.mode == .load && !d.ring.opened)

/-- Ring messages pass through a port: its link is up and the bypass is open. -/
def Dev.portUp (d : Dev) (p : Nat) : Bool := d.portLink p && !d.bypassClosed

/-- Ticks that a frame of n bytes occupies with its control blocks and the idle behind it, at 0.8 ns per byte. -/
def ringTicks (n : Nat) : Nat := ((n + 24) * 16 + 24) / 25

/-- First COMPARE instant of a port at or after a tick (R389). -/
def compareAt (p t : Nat) : Nat :=
  let o := p * 400000
  if t ≤ o then o else (t - o + 799999) / 800000 * 800000 + o

/-- Start of a frame of n bytes on a port: after the frames before it, and not so that its end would pass a COMPARE instant. -/
def Dev.ringSlot (d : Dev) (p n : Nat) : Nat :=
  let t := max d.raw (d.rport p).busy
  if !d.flag (F.GR_PCFG_CMP_EN p) ∨ d.mode = .safe then t
  else
    let c := compareAt p t
    if t + ringTicks n > c then c + ringTicks 88 else t

/-- Sends a message out of a port. -/
def Dev.ringSend (d : Dev) (p : Nat) (m : Msg) : Dev :=
  if !d.portUp p then d else
  let b := m.bytes
  let t := d.ringSlot p b.length
  let d := d.setRPort p { d.rport p with busy := t + ringTicks b.length }
  (d.keeperCount 0x1B).emit (.ringFrame p t b)

/-- Number of the next message that this device originates. -/
def Dev.nextMsg (d : Dev) : Nat × Dev := (d.ring.seq, { d with ring.seq := (d.ring.seq + 1) % 2 ^ 32 })

/-- A message that travels around the ring is forwarded out of the opposite port (R387). -/
def Dev.ringForward (d : Dev) (p : Nat) (m : Msg) : Dev :=
  if m.origin = selfId ∨ m.hops ≥ 15 then d else d.ringSend (1 - p) { m with hops := m.hops + 1 }

/-- A frame arrives: dropped and counted when it is bad or of an unknown type; else the message, if it is of the given type. -/
def Dev.ringTake (d : Dev) (p ty : Nat) (f : List Byte) : Dev × Option Msg :=
  if !d.portUp p then (d, none) else
  let d := d.keeperCount 0x1C
  match parseMsg f with
  | none => (d.count32 (A.GR_ERR p), none)
  | some m =>
    if !msgTypes.contains m.ty then (d.count32 (A.GR_ERR p), none)
    else (d, if m.ty = ty then some m else none)

/-- LINK_UP changes: event "Goeri ring link change". -/
def Dev.portChange (d : Dev) (p : Nat) (up : Bool) : Dev :=
  if d.portLink p = up then d else
  let d := ((d.setFlag (F.GR_PSTATUS_LINK_UP p) up).setFlag (F.GR_PSTATUS_LINK_CHG p) true).raise 43 (A.GR_PSTATUS p) p
  if up then d else
  (d.slotsOf 7 p).foldl (fun d s => d.signalLost s) (d.peerLost p)

/-- A port comes up. In LOAD the bypass opens once both have trained (R95). -/
def Dev.portRise (d : Dev) (p : Nat) : Dev :=
  if !(d.ringPowered && d.flag (F.GR_PCFG_ENABLE p)) then d else
  let d := d.portChange p true
  if d.mode = .load ∧ d.portLink 0 ∧ d.portLink 1 then { d with ring.opened := true } else d

/-! ## Neighbour time comparison (R389 to R392) -/

/-- Scale code that a port offers: 0 A, 1 B, 2 served. -/
def Dev.offer (d : Dev) (p : Nat) : Nat := if d.get (F.GR_PCFG_OFFER p) = 3 then 2 else d.get (F.GR_PCFG_OFFER p)

/-- Slot that the offered scale follows. -/
def Dev.followed (d : Dev) (p : Nat) : Option Nat :=
  let k := d.codeScale (d.offer p) (ticks16 d.raw)
  if d.selSt k = 1 ∨ d.selSt k = 2 then some (d.get (F.SEL_STATUS_SELECTED k)) else none

/-- STEPS and FOLLOWER of a COMPARE (R390). -/
def Dev.steps (d : Dev) (p : Nat) : Nat × Bool :=
  match d.followed p with
  | none => (0, false)
  | some s =>
    if d.get (F.SLOT_CFG_TYPE s) ≠ 7 then (0, false)
    else
      let q := d.get (F.SLOT_CFG_BIND s)
      ((d.rport q).steps + 1, q == p)

/-- COMPARE payload at a launch instant (R390). -/
def Dev.comparePayload (d : Dev) (p a1 : Nat) : List Byte :=
  let code := d.offer p
  let (t2, sq) := match (d.rport p).rx with
    | some (q, a2) => (d.stampRecord code a2, q)
    | none => (zeros 16, 0)
  let (st, fol) := d.steps p
  d.stampRecord code a1 ++ t2 ++ beBytes 4 sq ++ beBytes 4 (min ((d.boundOf code a1).getD 0xFFFFFFFF) 0xFFFFFFFF) ++
    [byte (d.selSt (d.codeScale code a1)), byte (min st 255), byte (boolNat fol)] ++ zeros 21

/-- COMPARE_SEND at its fixed raw tick. -/
def Dev.compareSend (d : Dev) (p : Nat) : Dev :=
  if !d.portUp p ∨ !d.flag (F.GR_PCFG_CMP_EN p) ∨ d.mode = .safe ∨ d.raw % 800000 ≠ p * 400000 then d else
  let a1 := ticks16 d.raw
  let (q, d) := d.nextMsg
  let m : Msg := { ty := 0x01, hops := 0, reply := false, origin := selfId, seq := q, payload := d.comparePayload p a1 }
  let x := d.rport p
  let d := d.setRPort p { x with sent := ((q, a1) :: x.sent).take 64, busy := max x.busy (d.raw + ringTicks 88) }
  (d.keeperCount 0x1B).emit (.ringFrame p d.raw m.bytes)

/-- Arrival at the balls in 2^-16 tick of a frame whose first bit is seen at an instant (R235, R389). -/
def Dev.ringStamp (d : Dev) (p at16 : Nat) : Nat :=
  ((5 * (at16 : Int) - 4 * (40 * 65536 + toSigned 32 (d.get (F.GR_RX_ASYM_ASYM p)))) / 5).toNat

/-- Time of an R7 record carried in a COMPARE. -/
def recTime (r : List Byte) : Int := joinTime (leAt r 0 6) (leAt r 6 4) (leAt r 10 2)

/-- What a COMPARE says of the peer. -/
def Dev.peerSays (d : Dev) (p : Nat) (m : Msg) (b2 : Nat) : Dev :=
  let st := beAt m.payload 40 1
  let steps := beAt m.payload 41 1
  let changed := (d.rport p).origin.any (· ≠ m.origin)
  let d := if changed then
      (d.slotsOf 7 p).foldl (fun d s => (d.signalLost s).setSrc s { (d.src s).lost with skip := true }) (d.peerLost p)
    else d
  let d := d.setRPort p { d.rport p with rx := some (m.seq, b2), steps := steps, origin := some m.origin }
  let d := (d.set (F.GR_PSTATUS_PEER_STATE p) st).setFlag (F.GR_PSTATUS_PEER_FOLLOWER p) (bit (beAt m.payload 42 1) 0)
  (d.set (F.GR_PSTATUS_PEER_STEPS p) (min steps 15)).set64 (A.GR_PEER_ID p) (leNat m.origin)

/-- 2θ and 2d against a local scale, in 2^-16 ns (R391): a2 and a1 as the peer read them, b1 and b2 local. -/
def Dev.exchange (d : Dev) (k : Nat) (ta2 ta1 : Int) (b1 b2 : Nat) : Option (Int × Int) :=
  match d.ts.time16 k b1, d.ts.time16 k b2 with
  | some x1, some x2 =>
    let df := ta2 - x1
    let dr := x2 - ta1
    some (df - dr, df + dr)
  | _, _ => none

/-- The slots bound to a port take the mean θ (R391, R392). -/
def Dev.peerSample (d : Dev) (p : Nat) (m : Msg) (b2 : Nat) : Dev :=
  let e := beAt m.payload 36 4
  let st := beAt m.payload 40 1
  let bad := st == 0 || st == 4 || e == 0xFFFFFFFF || bit (beAt m.payload 42 1) 0 || beAt m.payload 41 1 ≥ 15
  let unc := cdiv (e * 1000 + d.get (F.GR_CMP_UNC_PS p)) 1000
  (d.slotsOf 7 p).foldl (fun d s =>
    let d := d.setSrc s { d.src s with unc := unc, suspect := bad }
    match d.ts.time16 0 b2 with
    | some x => if (d.rport p).pairs ≥ 16 then d.deliverSample s b2 (x + d.peerTheta 0 p) else d
    | none => d) d

/-- COMPARE: pairs the frame with this device's own frame that it names. -/
def Dev.compare (d : Dev) (p at16 : Nat) (f : List Byte) : Dev :=
  match d.ringTake p 0x01 f with
  | (d, none) => d
  | (d, some m) =>
    if m.payload.length ≠ 64 then d.count32 (A.GR_ERR p) else
    let b2 := d.ringStamp p at16
    let own := (d.rport p).sent.find? (·.1 = beAt m.payload 32 4)
    let d := d.peerSays p m b2
    match own with
    | none => d
    | some (_, b1) =>
      let ta1 := recTime (slice m.payload 0 16)
      let ta2 := recTime (slice m.payload 16 16)
      match d.exchange 0 ta2 ta1 b1 b2, d.exchange 1 ta2 ta1 b1 b2 with
      | some (a, dd), b =>
        let x := d.rport p
        let thB := match b with
          | some (b, _) => (b :: x.thB).take 16
          | none => []
        let d := d.setRPort p { x with thA := (a :: x.thA).take 16, thB := thB, pairs := min (x.pairs + 1) 16, lastPair := some d.raw }
        let d := d.set64 (A.GR_OFS p) (ofSigned 64 (d.peerTheta 0 p))
        let d := (d.set64 (A.GR_DELAY p) (ofSigned 64 (dd / 2))).setFlag (F.GR_PSTATUS_PEER_VALID p) (decide (x.pairs + 1 ≥ 16))
        d.peerSample p m b2
      | none, _ => d

/-! ## Events (R393) -/

/-- RING_EVENT: port, 3 reserved bytes, payload. -/
def Dev.sendEvent (d : Dev) (inp : List Byte) : Dev × Option (Nat × List Byte) :=
  let p := leAt inp 0 1
  if p > 1 ∨ !d.portUp p then (d, some (14, []))
  else
    let (q, d) := d.nextMsg
    (d.ringSend p { ty := 0x02, hops := 0, reply := false, origin := selfId, seq := q, payload := inp.drop 4 }, some (0, []))

/-- EVENT: recorded unless it is this device's own, and forwarded. -/
def Dev.ringEvent (d : Dev) (p : Nat) (f : List Byte) : Dev :=
  match d.ringTake p 0x02 f with
  | (d, none) => d
  | (d, some m) =>
    if m.origin = selfId then d else
    let rec' := m.origin ++ leBytes 8 d.raw ++ slice m.payload 0 16
    let d := if d.ring.evq.length < 32 then
        ({ d with ring.evq := d.ring.evq ++ [rec'] } : Dev).set F.GR_EVQ_STATUS_LEVEL (d.ring.evq.length + 1)
      else d.setFlag F.GR_EVQ_STATUS_OVF true
    (d.raise 45 A.GR_EVQ_STATUS).ringForward p m

/-! ## Commands -/

/-- RING_PORT_UP (R385): 0 RING_L, 1 RING_R. -/
def execRingPortUp (p : Fin 2) (s : State) : Answer := s.run (·.portRise p)

/-- RING_PORT_DOWN (R385, R392). -/
def execRingPortDown (p : Fin 2) (s : State) : Answer := s.run (·.portChange p false)

/-- COMPARE_SEND (R389, R390). -/
def execCompareSend (p : Fin 2) (s : State) : Answer := s.run (·.compareSend p)

/-- COMPARE (R390 to R392): instant in 2^-16 tick at which the port sees the frame, and its bytes. -/
def execCompare (p : Fin 2) (at16 : Nat) (f : List Byte) (s : State) : Answer := s.run (·.compare p at16 f)

/-- RING_EVENT (R393). -/
def execRingEvent (s : State) : Answer := s.runM fun h _ d => Dev.command h d 0x57 fun d c => d.sendEvent c.input

/-- EVENT (R387, R393). -/
def execEvent (p : Fin 2) (f : List Byte) (s : State) : Answer := s.run (·.ringEvent p f)

end Sys2Proof.Machine
end

