-- ==== Sys2Proof/Machine/Update.lean ====
section
/-! DEFINITION. Update sessions, forwarding, trials, settings commands (R398 to R408). -/

namespace Sys2Proof.Machine

/-! ## Codes of R401 -/

abbrev ucOk : Nat := 0
abbrev ucBusy : Nat := 1
abbrev ucDowngrade : Nat := 2
abbrev ucBelowFuse : Nat := 3
abbrev ucTooLarge : Nat := 4
abbrev ucOnTrial : Nat := 5
abbrev ucBadCrc : Nat := 6
abbrev ucBadIndex : Nat := 7
abbrev ucNoSession : Nat := 8
abbrev ucMismatch : Nat := 9
abbrev ucFlash : Nat := 10
abbrev ucAborted : Nat := 11
abbrev ucHeld : Nat := 12
abbrev ucNotOnTrial : Nat := 13
abbrev ucRingDown : Nat := 14
abbrev ucTimeout : Nat := 15
abbrev ucLooped : Nat := 16
abbrev ucBadTag : Nat := 17

/-! ## Opening (R400) -/

/-- What an OPEN names: KIND, IMAGE_ID, GENERATION, SIZE, DIGEST. -/
structure OpenReq where
  kind : Nat
  id : Nat
  gen : Nat
  size : Nat
  digest : List Byte
deriving DecidableEq, Repr

/-- The image in force of a kind: generation that R400 compares with. -/
def Dev.genInForce (d : Dev) (kind : Nat) : Nat :=
  if kind = 0 then (d.hdr.rec' 0 d.hdr.active).gen else (d.reg A.POS_GEN).toNat

/-- A generation below the one in force, outside SAFE (R400 row 5). -/
def Dev.lowerGen (d : Dev) (r : OpenReq) : Bool := d.mode ≠ .safe && decide (r.gen < d.genInForce r.kind)

/-- The code of an OPEN: the first row of R400 that applies; a KIND that does not exist holds nothing (TOO_LARGE). -/
def Dev.openCode (d : Dev) (r : OpenReq) : Nat :=
  if d.upd.isSome then ucBusy
  else if d.flag F.MODE_STATUS_ON_TRIAL then ucOnTrial
  else if r.kind > 1 ∨ r.size = 0 ∨ r.size > bankSize r.kind then ucTooLarge
  else if r.kind = 0 ∧ r.gen < d.get F.FUSE_STATE_MIN_GEN then ucBelowFuse
  else if d.lowerGen r ∧ !d.priv (6 + r.kind) then ucDowngrade
  else if [0, 1].any (fun b =>
      let x := d.hdr.rec' r.kind b
      (b == d.hdr.activeOf r.kind || x.state == 2) && x.digest == r.digest) then ucHeld
  else ucOk

/-- Number of blocks of a session, and the length of one (R398). -/
def blockCount (size : Nat) : Nat := (size + 65535) / 65536
def blockLen (size i : Nat) : Nat := min 65536 (size - 65536 * i)

/-- The registers that show the session. -/
def Dev.showUpd (d : Dev) : Dev :=
  match d.upd with
  | none =>
    let d := ((d.set F.UPD_SESSION_STATE 0).set F.UPD_SESSION_SOURCE 0).set F.UPD_SESSION_KIND 0
    ((d.setFlag F.UPD_SESSION_HELD false).setFlag F.UPD_FWD_ACTIVE false).set F.UPD_FWD_PORT 0
  | some u =>
    let closing := u.fwd.any (·.closing)
    let d := ((d.set F.UPD_SESSION_STATE (if closing then 2 else 1)).set F.UPD_SESSION_SOURCE u.source).set F.UPD_SESSION_KIND u.kind
    let d := (d.setFlag F.UPD_SESSION_HELD u.held).set F.UPD_SESSION_BLOCKS u.stored.length
    match u.fwd with
    | none => (d.setFlag F.UPD_FWD_ACTIVE false).set F.UPD_FWD_PORT 0
    | some w => ((d.setFlag F.UPD_FWD_ACTIVE true).set F.UPD_FWD_PORT (2 - w.port)).set F.UPD_FWD_ACKED w.acked.length

def Dev.setUpd (d : Dev) (u : Option Upd) : Dev := ({ d with upd := u } : Dev).showUpd

/-- "Update session" (R402). -/
def Dev.updEvent (d : Dev) : Dev := d.raise 40 A.UPD_SESSION

/-- An accepted OPEN: the target becomes STAGING (R400 row 7), the session stands. -/
def Dev.openSession (d : Dev) (r : OpenReq) (source : Nat) (origin : List Byte) (seq : Nat) (held : Bool) (fwd : Option Fwd) : Dev :=
  let h := d.hdr
  let t := 1 - h.activeOf r.kind
  let dg := d.lowerGen r
  let d := if held then d else d.writeHdr (h.setRec r.kind t { state := 1, gen := r.gen, id := r.id, size := r.size, digest := r.digest })
  let u : Upd := { source := source, kind := r.kind, held := held, id := r.id, gen := r.gen, size := r.size, digest := r.digest
                   origin := origin, seq := seq, target := t, dg := dg, last := d.raw, fwd := fwd }
  let d := ((d.setUpd (some u)).set F.UPD_SESSION_BLOCKS 0).set F.UPD_FWD_ACKED 0
  d.updEvent

/-! ## Messages of a session (R399) -/

/-- An OPEN's payload. -/
def openPayload (u : Upd) : List Byte :=
  [byte u.kind, 0, 0, 0] ++ beBytes 4 u.id ++ beBytes 4 u.gen ++ beBytes 4 u.size ++ u.digest

/-- A session message sent downstream. -/
def Dev.sendDown (d : Dev) (u : Upd) (w : Fwd) (ty : Nat) (payload : List Byte) : Dev :=
  d.ringSend w.port { ty := ty, hops := w.hops, reply := false, origin := u.origin, seq := u.seq, payload := payload }

/-- An UPD_REPLY out of a port. -/
def Dev.sendReply (d : Dev) (p : Nat) (origin : List Byte) (seq ty code index : Nat) : Dev :=
  d.ringSend p { ty := 0x14, hops := 0, reply := true, origin := origin, seq := seq
                 payload := [byte ty, byte code, 0, 0] ++ beBytes 4 index }

/-- Answers a session's source, if it is a ring neighbour. -/
def Dev.answerUp (d : Dev) (u : Upd) (ty code index : Nat) : Dev :=
  if u.source = 0 then d else d.sendReply (u.source - 1) u.origin u.seq ty code index

/-! ## Forwarding (R404, R405) -/

/-- A block's bytes: kept by a device that answered HELD, else read back from the bank. -/
def Dev.blockBytes (flash : Mem) (d : Dev) (u : Upd) (i : Nat) : List Byte :=
  match u.keep.find? (·.1 = i) with
  | some (_, b) => b
  | none => (flash.ops d.fposted).read (bankBase u.kind u.target + 65536 * i) (blockLen u.size i)

/-- Sends a block in its parts. -/
def Dev.sendBlock (flash : Mem) (d : Dev) (u : Upd) (w : Fwd) (i : Nat) : Dev :=
  let b := Dev.blockBytes flash d u i
  let crc := crc32c b
  let n := (b.length + 1023) / 1024
  let d := if u.keep.any (·.1 = i) then d else d.keeperCount 0x1A ((b.length + 255) / 256)
  (List.range n).foldl (fun d k =>
    d.sendDown u w 0x11 (beBytes 4 i ++ beBytes 4 crc ++ [byte k, byte n, 0, 0] ++ (b.drop (1024 * k)).take 1024)) d

/-- Sends what may be sent: at most two blocks unacknowledged, and the CLOSE once every block is acknowledged. -/
def Dev.pump (flash : Mem) (d : Dev) : Nat → Dev
  | 0 => d
  | fuel + 1 =>
    match d.upd with
    | none => d
    | some u =>
      match u.fwd with
      | none => d
      | some w =>
        if !w.opened then d else
        match w.queue with
        | i :: rest =>
          if w.sent.length ≥ 2 then d else
          let w := { w with queue := rest, sent := w.sent ++ [{ index := i, at' := d.raw }] }
          Dev.pump flash ((Dev.sendBlock flash d u w i).setUpd (some { u with fwd := some w })) fuel
        | [] =>
          if w.closing && !w.closed && w.sent.isEmpty then
            (d.sendDown u w 0x12 []).setUpd (some { u with fwd := some { w with closed := true } })
          else d

/-- The session ends. -/
def Dev.endSession (d : Dev) (code : Nat) : Dev :=
  ((d.set F.UPD_SESSION_LAST_CODE code).setUpd none).updEvent

/-- The blocks that a HELD device still owes its source are acknowledged when its forwarding has ended. -/
def Dev.settleHeld (d : Dev) (u : Upd) : Dev :=
  if u.held then u.keep.foldl (fun d k => d.answerUp u 0x11 ucOk k.1) d else d

/-- Forwarding ends with a code; split: a downstream refusal or TIMEOUT (R405). A session that only waited to close ends. -/
def Dev.endForward (d : Dev) (u : Upd) (w : Fwd) (code : Nat) (split : Bool) : Dev :=
  let d := d.set F.UPD_FWD_CODE code
  let d := if split then (d.setFlag F.UPD_FWD_SPLIT true).raise 44 A.UPD_FWD else d
  let d := d.settleHeld u
  if w.closing then (d.setUpd (some { u with fwd := none })).endSession (d.get F.UPD_SESSION_LAST_CODE)
  else d.setUpd (some { u with fwd := none, keep := [] })

/-- Forwarding of an accepted session out of a port starts with its OPEN. -/
def Dev.startForward (d : Dev) : Dev :=
  match d.upd with
  | none => d
  | some u =>
    match u.fwd with
    | none => d
    | some w => if d.portUp w.port then d.sendDown u w 0x10 (openPayload u) else d.endForward u w ucRingDown false

/-- A block has been stored or passed: it is queued for forwarding. -/
def Dev.queueBlock (flash : Mem) (d : Dev) (u : Upd) (i : Nat) (data : List Byte) : Dev :=
  let u := { u with stored := u.stored ++ [i], last := d.raw }
  match u.fwd with
  | none => d.setUpd (some u)
  | some w =>
    let u := if u.held then { u with keep := u.keep ++ [(i, data)] } else u
    Dev.pump flash (d.setUpd (some { u with fwd := some { w with queue := w.queue ++ [i] } })) 4

/-! ## Blocks and closing (R402) -/

/-- The target leaves STAGING without being sealed. -/
def Dev.dropTarget (d : Dev) (u : Upd) : Dev :=
  if u.held then d else d.writeHdr (d.hdr.setRec u.kind u.target {})

/-- A session ends with ABORTED or a failure: the target is left EMPTY, and the neighbour downstream is told. -/
def Dev.abortSession (d : Dev) (code : Nat) : Dev :=
  match d.upd with
  | none => d
  | some u =>
    let d := match u.fwd with
      | some w => d.sendDown u w 0x13 [byte code, 0, 0, 0]
      | none => d
    (d.dropTarget u).endSession code

/-- A whole block of a session: its code and the device after it (R402). -/
def Dev.takeBlock (flash : Mem) (d : Dev) (u : Upd) (i crc : Nat) (data : List Byte) (flashOk : Bool) : Nat × Dev :=
  if crc32c data ≠ crc then (ucBadCrc, d)
  else if i ≥ blockCount u.size ∨ u.stored.contains i ∨ data.length ≠ blockLen u.size i then (ucBadIndex, d)
  else if u.held then (ucOk, Dev.queueBlock flash d u i data)
  else if !flashOk then (ucFlash, d.abortSession ucFlash)
  else (ucOk, Dev.queueBlock flash (d.fpost (bankBase u.kind u.target + 65536 * i) data) u i data)

/-- CLOSE of the local session: its code and the device after it (R402). -/
def Dev.closeLocal (flash : Mem) (d : Dev) (u : Upd) : Nat × Dev :=
  if u.stored.length < blockCount u.size then (ucBadIndex, d.set F.UPD_SESSION_LAST_CODE ucBadIndex)
  else
    let ok := u.held || sha384 ((flash.ops d.fposted).read (bankBase u.kind u.target) u.size) == u.digest
    let code := if ok then ucOk else ucMismatch
    let r := d.hdr.rec' u.kind u.target
    let d := if u.held then d
      else if ok then d.writeHdr (d.hdr.setRec u.kind u.target { r with state := 2, dgOk := u.dg })
      else d.dropTarget u
    let d := d.keeperCount 0x1A ((u.size + 255) / 256)
    match u.fwd with
    | some w =>
      if ok then
        let d := (d.set F.UPD_SESSION_LAST_CODE code).setUpd (some { u with fwd := some { w with closing := true } })
        (code, Dev.pump flash d.updEvent 4)
      else (code, d.abortSession ucMismatch)
    | none => (code, d.endSession code)

/-! ## Host commands (R398) -/

/-- UPD_OPEN. -/
def Dev.hostOpen (d : Dev) (inp : List Byte) : Dev × Option (Nat × List Byte) :=
  let r : OpenReq := { kind := leAt inp 0 1, id := leAt inp 4 4, gen := leAt inp 8 4, size := leAt inp 12 4, digest := slice inp 16 48 }
  let code := d.openCode r
  let d := d.set F.UPD_SESSION_LAST_CODE code
  if code ≠ ucOk ∧ code ≠ ucHeld then (d, some (code, []))
  else
    let (q, d) := d.nextMsg
    let fwd : Option Fwd := match leAt inp 1 1 with
      | 1 => some { port := 1, hops := 0 }
      | 2 => some { port := 0, hops := 0 }
      | _ => none
    ((d.openSession r 0 selfId q (code == ucHeld) fwd).startForward, some (code, []))

/-- The host's session. -/
def Dev.hostSession (d : Dev) : Option Upd := d.upd.filter fun u => u.source == 0 && !u.fwd.any (·.closing)

/-- UPD_BLOCK. -/
def Dev.hostBlock (flash : Mem) (flashOk : Bool) (d : Dev) (inp : List Byte) : Dev × Option (Nat × List Byte) :=
  match d.hostSession with
  | none => (d, some (ucNoSession, []))
  | some u =>
    let i := leAt inp 0 4
    let data := inp.drop 8
    if i < blockCount u.size ∧ data.length ≠ blockLen u.size i then (d, some (0xFFF1, []))
    else
      let (code, d) := Dev.takeBlock flash d u i (leAt inp 4 4) data flashOk
      (d.set F.UPD_SESSION_LAST_CODE code, some (code, []))

/-- UPD_CLOSE. -/
def Dev.hostClose (flash : Mem) (d : Dev) : Dev × Option (Nat × List Byte) :=
  match d.hostSession with
  | none => (d, some (ucNoSession, []))
  | some u =>
    let (code, d) := Dev.closeLocal flash d u
    (d, some (code, []))

/-- UPD_ABORT. -/
def Dev.hostAbort (d : Dev) : Dev × Option (Nat × List Byte) :=
  match d.hostSession with
  | none => (d, some (ucNoSession, []))
  | some _ => (d.abortSession ucAborted, some (ucOk, []))

/-! ## Trials (R89, R407) -/

/-- TRIAL to SERVE at once (R77): a completed mode transition. -/
def Dev.trialOver (d : Dev) : Dev :=
  let d := d.set F.MODE_STATUS_MODE Mode.serve.code
  let d := if d.md.run.isNone then d.set F.MODE_STATUS_TARGET Mode.serve.code else d
  (d.setFlag F.MODE_STATUS_DONE true).raise 0 A.MODE_STATUS

/-- The trial becomes permanent. -/
def Dev.confirm (d : Dev) : Dev :=
  let f (r : BankRec) : BankRec := if r.state = 3 then { r with state := 4 } else r
  let h := d.hdr
  let d := d.writeHdr { h with banks := h.banks.map f, slots := h.slots.map f }
  let d := ((d.setFlag F.MODE_STATUS_ON_TRIAL false).setFlag F.BOOT_STATUS_POS_TRIAL false).setFlag F.POS_INFO_TRIAL false
  let d := (d.set F.TRIAL_REMAIN_S 0).setFlag F.BOOT_STATUS_IMAGE_TRIAL false
  let d := if d.mode = .trial then d.trialOver else d
  d.raise 41 A.BOOT_STATUS

/-- CONFIRM. -/
def Dev.hostConfirm (d : Dev) : Dev × Option (Nat × List Byte) :=
  if d.flag F.MODE_STATUS_ON_TRIAL then (d.confirm, some (ucOk, [])) else (d, some (ucNotOnTrial, []))

/-- REJECT: an internal reset, after which the boot decision falls back (R406). -/
def Dev.hostReject (d : Dev) : Dev × Option (Nat × List Byte) :=
  if d.flag F.MODE_STATUS_ON_TRIAL then ({ d with md.resetDue := true }, some (ucOk, [])) else (d, some (ucNotOnTrial, []))

/-! ## Settings (R408) -/

/-- SET_READ: a value the settings do not hold reads as its default. -/
def Dev.setRead (d : Dev) (c : CmdRun) : Dev × Option (Nat × List Byte) :=
  let tag := leAt c.input 0 2
  let v : Option (List Byte) := match tag with
    | 0x0001 => some ((d.setting 1 0).getD [4])
    | 0x0002 => some ((d.setting 2 0).getD [1])
    | 0x0010 => some ((List.range 16).flatMap fun k => (d.setting 0x10 k).getD [])
    | 0x0020 | 0x0021 | 0x0022 => some ((d.setting tag 0).getD [])
    | _ => none
  match v with
  | none => (d, some (ucBadTag, []))
  | some b => (d, some (if b.length > c.outMax then (0xFFF1, []) else (ucOk, b)))

/-- SET_WRITE; a key record is kept by its slot. -/
def Dev.setWrite (d : Dev) (c : CmdRun) : Dev × Option (Nat × List Byte) :=
  let tag := leAt c.input 0 2
  let v := c.input.drop 4
  match tag with
  | 0x0001 | 0x0002 => if v.length = 1 then (d.putSetting tag 0 (some v), some (ucOk, [])) else (d, some (0xFFF1, []))
  | 0x0010 => if v.length = 128 then (d.putSetting tag (leAt v 0 1) (some v), some (ucOk, [])) else (d, some (0xFFF1, []))
  | 0x0020 | 0x0021 | 0x0022 => (d.putSetting tag 0 (some v), some (ucOk, []))
  | _ => (d, some (ucBadTag, []))

/-! ## Ring sessions (R399, R403, R404) -/

/-- UPD_OPEN from a neighbour. -/
def Dev.ringOpen (d : Dev) (p : Nat) (f : List Byte) : Dev :=
  match d.ringTake p 0x10 f with
  | (d, none) => d
  | (d, some m) =>
    if m.payload.length ≠ 64 then d.count32 (A.GR_ERR p) else
    if m.origin = selfId then d.sendReply p m.origin m.seq 0x10 ucLooped 0 else
    let b := m.payload
    let r : OpenReq := { kind := beAt b 0 1, id := beAt b 4 4, gen := beAt b 8 4, size := beAt b 12 4, digest := slice b 16 48 }
    let code := d.openCode r
    let d := (d.set F.UPD_SESSION_LAST_CODE code).sendReply p m.origin m.seq 0x10 code 0
    if code ≠ ucOk ∧ code ≠ ucHeld then d.raise 44 A.UPD_FWD
    else
      let fwd : Option Fwd := if m.hops ≥ 15 then none else some { port := 1 - p, hops := m.hops + 1 }
      (d.openSession r (p + 1) m.origin m.seq (code == ucHeld) fwd).startForward

/-- The ring session that a message from a port belongs to. -/
def Dev.ringSession (d : Dev) (p : Nat) (m : Msg) : Option Upd :=
  d.upd.filter fun u => u.source == p + 1 && u.origin == m.origin && u.seq == m.seq

/-- A session message arrives: its session, or NO_SESSION upstream. -/
def Dev.ringTakeSession (d : Dev) (p ty : Nat) (f : List Byte) : Dev × Option (Msg × Upd) :=
  match d.ringTake p ty f with
  | (d, none) => (d, none)
  | (d, some m) =>
    match d.ringSession p m with
    | some u => (d.setUpd (some { u with last := d.raw }), some (m, { u with last := d.raw }))
    | none => (d.sendReply p m.origin m.seq ty ucNoSession (if ty = 0x11 then beAt m.payload 0 4 else 0), none)

/-- Adds a part to the blocks being gathered: a fifth partial block is not held. -/
def gather (l : List PartBlock) (i crc parts part : Nat) (data : List Byte) : List PartBlock :=
  match l.find? (·.index = i) with
  | some b =>
    let b := { b with crc := crc, parts := parts, got := b.got.filter (·.1 ≠ part) ++ [(part, data)] }
    b :: l.filter (·.index ≠ i)
  | none => if l.length ≥ 4 then l else { index := i, crc := crc, parts := parts, got := [(part, data)] } :: l

/-- The data of a block that holds all its parts. -/
def PartBlock.whole (b : PartBlock) : Option (List Byte) :=
  if b.got.length < b.parts then none
  else some ((List.range b.parts).flatMap fun k => ((b.got.find? (·.1 = k)).map (·.2)).getD [])

/-- UPD_DATA: one part (R399). -/
def Dev.ringData (flash : Mem) (flashOk : Bool) (d : Dev) (p : Nat) (f : List Byte) : Dev :=
  match d.ringTakeSession p 0x11 f with
  | (d, none) => d
  | (d, some (m, u)) =>
    let b := m.payload
    let i := beAt b 0 4
    let (part, parts) := (beAt b 8 1, beAt b 9 1)
    if b.length < 13 ∨ b.length > 12 + 1024 ∨ part ≥ parts then d.count32 (A.GR_ERR p) else
    -- a HELD device with four blocks kept takes no further block
    if u.held ∧ u.fwd.isSome ∧ u.keep.length ≥ 4 then d else
    let ps := gather u.parts i (beAt b 4 4) parts part (b.drop 12)
    match ps.find? (·.index = i) with
    | none => d
    | some pb =>
      match pb.whole with
      | none => d.setUpd (some { u with parts := ps })
      | some data =>
        let u := { u with parts := ps.filter (·.index ≠ i) }
        let (code, d) := Dev.takeBlock flash (d.setUpd (some u)) u i pb.crc data flashOk
        let d := d.set F.UPD_SESSION_LAST_CODE code
        if u.held && u.fwd.isSome && code == ucOk then d else d.answerUp u 0x11 code i

/-- UPD_CLOSE from upstream. -/
def Dev.ringClose (flash : Mem) (d : Dev) (p : Nat) (f : List Byte) : Dev :=
  match d.ringTakeSession p 0x12 f with
  | (d, none) => d
  | (d, some (_, u)) =>
    let (code, d) := Dev.closeLocal flash d u
    d.answerUp u 0x12 code 0

/-- UPD_ABORT from upstream. -/
def Dev.ringAbort (d : Dev) (p : Nat) (f : List Byte) : Dev :=
  match d.ringTake p 0x13 f with
  | (d, none) => d
  | (d, some m) => if (d.ringSession p m).isSome then d.abortSession ucAborted else d

/-- UPD_REPLY from downstream (R404, R405). -/
def Dev.ringReply (flash : Mem) (d : Dev) (p : Nat) (f : List Byte) : Dev :=
  match d.ringTake p 0x14 f with
  | (d, none) => d
  | (d, some m) =>
    match d.upd with
    | none => d
    | some u =>
      match u.fwd with
      | none => d
      | some w =>
        if w.port ≠ p ∨ u.origin ≠ m.origin ∨ u.seq ≠ m.seq then d else
        let ty := beAt m.payload 0 1
        let code := beAt m.payload 1 1
        let i := beAt m.payload 4 4
        let d := d.set F.UPD_FWD_CODE code
        if code = ucLooped then d.endForward u w code false
        else if ty = 0x10 then
          if code = ucOk ∨ code = ucHeld then Dev.pump flash (d.setUpd (some { u with fwd := some { w with opened := true } })) 4
          else d.endForward u w code true
        else if ty = 0x11 then
          if code = ucOk ∨ code = ucHeld ∨ code = ucBadIndex then
            let acked := if w.sent.any (·.index = i) then w.acked ++ [i] else w.acked
            let w := { w with sent := w.sent.filter (·.index ≠ i), acked := acked }
            let owed := u.held && u.keep.any (·.1 = i)
            let u := { u with keep := u.keep.filter (·.1 ≠ i), fwd := some w }
            let d := d.setUpd (some u)
            Dev.pump flash (if owed then d.answerUp u 0x11 ucOk i else d) 4
          else if code = ucBadCrc then d
          else d.endForward u w code true
        else if ty = 0x12 ∧ w.closed then d.endForward u w code (code != ucOk)
        else d

/-- BLOCK_RETRY: blocks unacknowledged for 2 s are sent again; after three tries forwarding ends with TIMEOUT (R404). -/
def Dev.blockRetry (flash : Mem) (d : Dev) : Dev :=
  match d.upd with
  | none => d
  | some u =>
    match u.fwd with
    | none => d
    | some w =>
      let due := w.sent.filter fun b => b.at' + 2 * secTicks ≤ d.raw
      if due.any (·.tries ≥ 3) then d.endForward u w ucTimeout true
      else
        let f (b : SentBlock) : SentBlock := if due.any (·.index = b.index) then { b with at' := d.raw, tries := b.tries + 1 } else b
        let w := { w with sent := w.sent.map f }
        due.foldl (fun d b => Dev.sendBlock flash d u w b.index) (d.setUpd (some { u with fwd := some w }))

/-- SESSION_TIMEOUT: a ring session without a message for 10 s (R402). -/
def Dev.updTimeout (d : Dev) : Dev :=
  match d.upd with
  | none => d
  | some u =>
    if u.source ≠ 0 ∧ u.last + 10 * secTicks ≤ d.raw ∧ !u.fwd.any (·.closing) then d.abortSession ucAborted else d

/-! ## Commands -/

/-- UPD_OPEN (R398, R400). -/
def execUpdOpen (s : State) : Answer := s.runF fun h _ _ d => Dev.command h d 0x50 fun d c => d.hostOpen c.input

/-- UPD_BLOCK (R398, R402); flashOk: erase and program succeed. -/
def execUpdBlock (flashOk : Bool) (s : State) : Answer :=
  s.runF fun h _ fl d => Dev.command h d 0x51 fun d c => Dev.hostBlock fl flashOk d c.input

/-- UPD_CLOSE (R398, R402). -/
def execUpdClose (s : State) : Answer := s.runF fun h _ fl d => Dev.command h d 0x52 fun d _ => Dev.hostClose fl d

/-- UPD_ABORT (R398, R402). -/
def execUpdAbort (s : State) : Answer := s.runF fun h _ _ d => Dev.command h d 0x53 fun d _ => d.hostAbort

/-- CONFIRM (R407). -/
def execConfirm (s : State) : Answer := s.runF fun h _ _ d => Dev.command h d 0x54 fun d _ => d.hostConfirm

/-- REJECT (R407). -/
def execReject (s : State) : Answer := s.runF fun h _ _ d => Dev.command h d 0x55 fun d _ => d.hostReject

/-- TRIAL_AUTO_CONFIRM (R407). -/
def execTrialAutoConfirm (s : State) : Answer :=
  s.run fun d =>
    if d.flag F.MODE_STATUS_ON_TRIAL && d.mode == .trial && d.get F.TRIAL_HOLD_S != 0 && d.get F.TRIAL_REMAIN_S == 0 then d.confirm else d

/-- SET_READ (R408). -/
def execSetRead (s : State) : Answer := s.runF fun h _ _ d => Dev.command h d 0x58 fun d c => d.setRead c

/-- SET_WRITE (R408). -/
def execSetWrite (s : State) : Answer := s.runF fun h _ _ d => Dev.command h d 0x59 fun d c => d.setWrite c

/-- UPD_OPEN message (R400, R403, R404). -/
def execUpdOpenMessage (p : Fin 2) (f : List Byte) (s : State) : Answer := s.run (·.ringOpen p f)

/-- UPD_DATA message (R399, R402, R404). -/
def execUpdData (p : Fin 2) (f : List Byte) (flashOk : Bool) (s : State) : Answer :=
  s.runF fun _ _ fl d => Dev.ringData fl flashOk d p f

/-- UPD_CLOSE message (R402, R404). -/
def execUpdCloseMessage (p : Fin 2) (f : List Byte) (s : State) : Answer := s.runF fun _ _ fl d => Dev.ringClose fl d p f

/-- UPD_ABORT message (R402). -/
def execUpdAbortMessage (p : Fin 2) (f : List Byte) (s : State) : Answer := s.run (·.ringAbort p f)

/-- UPD_REPLY message (R404, R405). -/
def execUpdReply (p : Fin 2) (f : List Byte) (s : State) : Answer := s.runF fun _ _ fl d => Dev.ringReply fl d p f

/-- BLOCK_RETRY (R404, R405). -/
def execBlockRetry (s : State) : Answer := s.runF fun _ _ fl d => Dev.blockRetry fl d

/-- SESSION_TIMEOUT (R402). -/
def execSessionTimeout (s : State) : Answer := s.run (·.updTimeout)

end Sys2Proof.Machine
end

