-- ==== Sys2Proof/Machine/Dies.lean ====
section
/-! DEFINITION. Answer dies: sync words and replicas, die links, parking, power, die resets and the faults that force a reset (R22 to R28, R56, R90, R416, R417, R422). -/

namespace Sys2Proof.Machine

/-! ## DIE_CTRL and DIE_STATE -/

def Dev.setDieSt (d : Dev) (n st : Nat) : Dev :=
  d.set F.DIE_STATE_STATE (d.get F.DIE_STATE_STATE - d.dieSt n * 4 ^ n + st * 4 ^ n)

/-- LAST_CODE of die n in DIE_STATE. -/
def dieCodeF (n : Nat) : Fld := ⟨A.DIE_STATE, 16 + 4 * n + 3, 16 + 4 * n⟩
def dieLatchF (n : Nat) : Fld := ⟨A.DIE_STATE, 8 + n, 8 + n⟩
def dieParkF (n : Nat) : Fld := ⟨A.DIE_STATE, 12 + n, 12 + n⟩
def dieEnableF (n : Nat) : Fld := ⟨A.DIE_CTRL, n, n⟩

/-- The Position marks die n present. -/
def Dev.diePresent (d : Dev) (n : Nat) : Bool := bit d.pos.present n

/-- The modes in which answer dies run (R75). -/
def Dev.diesRun (d : Dev) : Bool := d.mode == .warm || d.mode == .serve || d.mode == .trial || d.mode == .test

/-! ## Power (R90, R416) -/

/-- Log registers of a die, which a park keeps. -/
def logReg (n a : Nat) : Bool := (List.range 4).any fun l => a == A.LOG_WR n l || a == A.LOG_RD n l || a == A.LOG_LOST n l

/-- A die's power is removed: its registers, rings, tables' state and requests are lost; keepLog: the log region is kept. -/
def Dev.dieOff (d : Dev) (n : Nat) (keepLog : Bool) : Dev :=
  let d := (List.range 4).foldl (fun d l => d.linkDrop n l) d
  let regs := d.bus.regs.filter fun p => decide (p.1 < dieBase n ∨ dieBase n + 0x100000 ≤ p.1) || (keepLog && logReg n p.1)
  let rings := d.pcie.rings.filter fun r => decide (r.1 < dieBase n ∨ dieBase n + 0x100000 ≤ r.1)
  let fresh : Die := { resets := (d.die n).resets, resetting := (d.die n).resetting }
  ({ d with bus.regs := regs, pcie.rings := rings } : Dev).setDie n fresh

/-- Engines that are present and enabled run. -/
def Dev.enginesUp (d : Dev) (n : Nat) : Dev :=
  (List.range 4).foldl (fun d e =>
    let on := bit (d.get (F.DIE_INFO_ENG_MASK n)) e && d.flag (F.ENG_CTRL_ENABLE n e)
    d.setEngSt n e (if on then stRunning else stStopped)) d

/-- Registers of a die from a list of writes. -/
def Dev.loadRegs (d : Dev) (n : Nat) (l : List (Nat × Word)) : Dev :=
  l.foldl (fun d w => if dieBase n ≤ w.1 ∧ w.1 < dieBase n + 0x100000 then d.setReg w.1 w.2 else d) d

/-- The shadow of a die's registers is restored, but for its host rings, which the host sets up again (R90). -/
def Dev.restoreShadow (d : Dev) (n : Nat) : Dev :=
  d.bus.shadow.reverse.foldl (fun d w =>
    match lookup w.1 with
    | some h => if h.die = some n ∧ h.bank ≠ .rx ∧ h.bank ≠ .tx then d.setReg w.1 (h.row.restore (d.reg w.1) w.2) else d
    | none => d) d

/-- The client and session tables of a die are emptied. -/
def Dev.clearTables (d : Dev) (n : Nat) : Dev :=
  (List.range 4).foldl (fun d l =>
    let ct := MemOp.clear (d.get64 (A.CT_BASE n l)) ((d.reg (A.CT_SIZE n l)).toNat * 4096)
    let st := MemOp.clear (d.get64 (A.ST_BASE n l)) ((d.reg (A.ST_SIZE n l)).toNat * 4096)
    { d with lposted := d.lposted ++ [ct, st] }) d

/-- A die is running: the Position's initial values and the shadow, empty tables, its enabled links start (R90, R416). -/
def Dev.dieUp (d : Dev) (n : Nat) : Dev :=
  let d := ((d.loadRegs n d.pos.init).restoreShadow n).setReg (A.ENG_LIB n) (BitVec.ofNat 32 d.pos.lib)
  let d := (d.clearTables n).enginesUp n
  let d := d.setDieSt n stRunning
  (List.range 4).foldl (fun d l => if d.flag (F.LINK_CTRL_ENABLE n l) then d.linkAct n l .start else d) d

/-- A start-up of a die begins: it is powered, its PLLs start anew and its replica is not yet loaded. -/
def Dev.dieStart (d : Dev) (n : Nat) : Dev :=
  let d := (d.setPll (4 + n) {}).setPll (8 + n) {}
  (d.setDieSt n stStarting).setDie n { d.die n with replica := none, everAligned := false, lastSync := d.raw }

/-- A request for shutdown of one link of a die that is shut down: its ENABLE field keeps what it holds. -/
def Dev.linkDown (d : Dev) (n l : Nat) : Dev :=
  let x := enableReq (d.get (F.LINK_CTRL_STATE n l)) false
  (d.setFlag (F.LINK_CTRL_LATCHED n l) x.latched).linkAct n l x.act

/-- The same of one of its rings. -/
def Dev.ringDown (host : Mem) (d : Dev) (r : RingId) : Dev :=
  let b := ringBank r
  let x := enableReq (d.get (ringState b)) false
  Dev.ringAct host (d.setFlag (ringLatched b) x.latched) r x.act

/-- The same of one of its engines, without the check of R411. -/
def Dev.engDown (d : Dev) (n e : Nat) : Dev :=
  let x := enableReq (d.engSt n e) false
  (d.setFlag (F.ENG_CTRL_LATCHED n e) x.latched).engAct n e x.act

/-- A shutdown of a die begins (R416): each link, ring and engine receives a request for shutdown, latched where it is starting up (R46). -/
def Dev.dieStop (host : Mem) (d : Dev) (n : Fin 4) : Dev :=
  let d := (List.range 4).foldl (fun d l => d.linkDown n l) d
  let d := (List.finRange 8).foldl (fun d r => Dev.ringDown host (Dev.ringDown host d (.rx n r)) (.tx n r)) d
  let d := (List.range 4).foldl (fun d e => d.engDown n e) d
  d.setDieSt n stStopping

/-- An unpark request is decided (R416, R417, R47). -/
def Dev.dieUnpark (d : Dev) (n : Nat) : Dev :=
  if !d.diePresent n then d.set (dieCodeF n) 3
  else if !d.diesRun then (d.setFlag (dieEnableF n) true).set (dieCodeF n) 0
  else
    let x := enableReq (d.dieSt n) true
    let d := ((d.setFlag (dieEnableF n) true).setFlag (dieLatchF n) x.latched).set (dieCodeF n) x.code
    if x.act = .start then d.dieStart n else d

/-- A park request is decided (R416, R417, R46, R47). -/
def Dev.diePark (host : Mem) (d : Dev) (n : Fin 4) : Dev :=
  if !d.diesRun then (d.setFlag (dieEnableF n) false).set (dieCodeF n) 0
  else
    let x := enableReq (d.dieSt n) false
    let d := ((d.setFlag (dieEnableF n) false).setFlag (dieLatchF n) x.latched).set (dieCodeF n) x.code
    if x.act = .stop then Dev.dieStop host d n else d

/-- One die's part of a write of DIE_CTRL.ENABLE. -/
def Dev.dieEnable (host : Mem) (d : Dev) (n : Fin 4) (want : Bool) : Dev :=
  if want then d.dieUnpark n else Dev.diePark host d n

/-- A write of DIE_CTRL. -/
def Dev.dieCtrl (host : Mem) (d : Dev) (v : Nat) : Dev :=
  (List.finRange 4).foldl (fun d n => Dev.dieEnable host d n (bit v n)) d

/-- Every committed frame of a die's links has launched. -/
def Dev.dieDrained (d : Dev) (n : Nat) : Bool := (List.range 4).all fun l => (d.lnk n l).waiting == 0

/-- DIE_TRANSITION_COMPLETE of one die; a latched request is decided as if it had just arrived (R48). -/
def Dev.dieDone (host : Mem) (d : Dev) (n : Fin 4) : Dev :=
  let again := d.flag (dieLatchF n)
  match d.dieSt n with
  | 1 =>
    if !d.dieDrained n then d else
    let d := ((d.dieOff n true).setDieSt n stStopped).setFlag (dieLatchF n) false
    if again then d.dieUnpark n else d
  | 3 =>
    if !(d.flag (F.REPLICA_STATUS_ALIGNED n) && d.flag (pllLocked (4 + n)) && d.flag (pllLocked (8 + n))) then d else
    let d := ((d.dieUp n).publish (2 ^ n.val)).setFlag (dieLatchF n) false
    let d := if (d.die n).resetting then
        let d := d.setDie n { d.die n with resetting := false }
        [0x20, 0x21, 0x22, 0x23].foldl (fun d c => (List.range 16).foldl (fun d i => d.faultEnd c n i) d) d
      else d
    if again then Dev.diePark host d n else d
  | _ => d

/-! ## Resets forced by faults (R422) -/

/-- Requests in flight on a die: those whose reply, or LATE drop, is still to come. -/
def Dev.inFlight (d : Dev) (n : Nat) : Nat := ((d.die n).queries.filter (·.outcome != some ocSilent)).length

/-- A fault that forces a reset of the device: recorded after the next LOAD. -/
def Dev.deviceFault (d : Dev) (code die index status cause : Nat) : Dev :=
  let lost := (List.range 4).foldl (fun a n => a + d.inFlight n) 0
  let fr : FaultRec := { tick := d.raw, aon := d.ret.aon, code := code, die := die, index := index,
                         lost := min lost 65535, detail := (d.reg status).toNat }
  ({ d with openFaults := d.openFaults ++ [{ fr := fr, ended := some d.raw, afterLoad := true }] } : Dev).askReset cause

/-- A fault that forces a reset of one answer die (R422): a running or starting die starts again, the third within 60 s leaves it parked. On a die that is STOPPING the power-cycle completes the shutdown (R45: DESIGN CHOICE, the spec does not say which of R45 and R422 gives way), and a latched unpark is decided (R48). -/
def Dev.dieReset (d : Dev) (n code index status : Nat) : Dev :=
  if d.dieSt n = stStopped then d else
  let again := d.flag (dieLatchF n)
  let lost := d.inFlight n
  let recent := ((d.die n).resets.filter fun t => d.raw < t + 60 * secTicks)
  let park := decide (2 ≤ recent.length)
  let down := park || d.dieSt n == stStopping
  let d := (d.faultBegin code n index status).faultLost n lost
  let d := (d.setDie n { d.die n with resets := d.raw :: recent, resetting := !down }).dieOff n true
  if !down then d.dieStart n else
  let d := ((d.setDieSt n stStopped).setFlag (dieLatchF n) false).faultEnd code n index
  if park then (d.setFlag (dieEnableF n) false).setFlag (dieParkF n) true
  else if again then d.dieUnpark n else d

/-! ## Sync words (R23 to R28) -/

/-- Filtered forward delay: the mean over the last 64 echoes, in 2^-16 tick (R24). DESIGN CHOICE: with fewer than 64 echoes the mean of those present, 0 with none; the mean is rounded toward minus infinity. -/
def Die.filtered (x : Die) : Int := if x.fwds = [] then 0 else x.fwds.foldl (· + ·) 0 / (x.fwds.length : Int)

/-- SYNC_WORD_SEND (R23): the master raw count at the marker, tick count and sub-tick fraction, and the filtered delay. DESIGN CHOICE: the words go out at the raw counts that are multiples of 8,192; the spec gives the period only. -/
def Dev.syncSend (d : Dev) (n : Nat) : Dev :=
  if d.raw % 8192 ≠ 0 ∨ d.dieSt n = stStopped then d
  else d.setDie n { d.die n with sync := some (ticks16 d.raw + d.clk.frac, (d.die n).filtered) }

/-- A number of 2^-16 tick beyond a bound in ps. -/
def beyondPs (u : Int) (ps : Nat) : Bool := decide (u.natAbs * 1250 > ps * 65536)

/-- What a sync word makes of a replica (R25): its value at the marker and its residual after the word's slew, in 2^-16 tick. The first word after power-up loads it; a later one slews it by one unit toward the marker count plus the filtered delay. -/
def Die.replicaAfter (x : Die) (m : Nat) (f : Int) : Int × Int :=
  let v : Int := m + f
  match x.replica with
  | none => (v, 0)
  | some (r, m0) =>
    let r := r + ((m : Int) - m0)
    let r := r + (v - r).sign
    (r, r - v)

/-- The commitment of a request has been dropped as LATE already. -/
def Dev.lateAlready (d : Dev) (n : Nat) (q : Query) : Bool :=
  (d.lnk n q.link).commits.any fun c => c.late && (match c.load with
    | .reply id => id == q.id
    | _ => false)

/-- Every admitted request of a die is dropped and counted as LATE, at its launch instant (R27, R276). -/
def Dev.dropAdmitted (d : Dev) (n : Nat) : Dev :=
  ((d.die n).queries.filter fun q => q.admitted && q.outcome != some ocSilent).foldl (fun d q =>
    let d := if d.lateAlready n q then d else d.lateDrop n q.link true
    d.reachOutcome n (q.ordering ocLate ((q.lam.getD (ticks16 q.orderTick)) / 65536))) d

/-- WITHHOLD is set (R27): the admitted requests are dropped and the die is reset; WITHHOLD stays set until the replica is loaded again. -/
def Dev.withhold (d : Dev) (n : Nat) : Dev :=
  let d := (d.setFlag (F.REPLICA_STATUS_WITHHOLD n) true).dropAdmitted n
  let d := d.dieReset n 0x22 0 (A.REPLICA_STATUS n)
  if d.dieSt n = stStarting then d.setFlag (F.REPLICA_STATUS_WITHHOLD n) true else d

/-- SYNC_WORD_RECEIVE (R25 to R27). Both bounds are held against the residual after the word's slew, the one that REPLICA_RESID shows (DEDUCED). -/
def Dev.syncTake (d : Dev) (n : Nat) : Dev :=
  let x := d.die n
  match x.sync with
  | none => d
  | some (m, f) =>
    if d.dieSt n = stStopped then d else
    let (r, resid) := x.replicaAfter m f
    let bad := beyondPs resid 20
    let d := if x.replica.isNone then d.setFlag (F.REPLICA_STATUS_WITHHOLD n) false else d
    let x := { x with sync := none, lastSync := d.raw, replica := some (r, m)
                      badSync := if bad then x.badSync + 1 else 0, goodSync := if bad then 0 else x.goodSync + 1 }
    let d := (d.setDie n x).set (F.REPLICA_STATUS_MISS_CNT n) 0
    let d := (d.setReg (A.REPLICA_DELAY n) (BitVec.ofNat 32 (ofSigned 32 f))).setReg (A.REPLICA_RESID n) (BitVec.ofNat 32 (ofSigned 32 resid))
    let d := d.setFlag (F.REPLICA_STATUS_SLEWING n) (resid != 0)
    if beyondPs resid 200 then d.withhold n else d

/-- MARKER_ECHO: round trip in 2^-16 tick; the halving rounds toward minus infinity (DESIGN CHOICE). -/
def Dev.echo (d : Dev) (n rtt : Nat) : Dev :=
  if d.dieSt n = stStopped then d else
  let turn := (d.reg (A.FUSE_LINKCAL n)).toNat
  let asym := toSigned 32 (d.reg (A.FUSE_LINKCAL_1 n)).toNat
  let f := ((rtt : Int) - turn + asym) / 2
  d.setDie n { d.die n with fwds := (f :: (d.die n).fwds).take 64 }

/-- ALIGN_LOST. -/
def Dev.alignLost (d : Dev) (n : Nat) : Dev :=
  if (d.die n).badSync < 4 ∨ !d.flag (F.REPLICA_STATUS_ALIGNED n) then d else
  let d := (d.setFlag (F.REPLICA_STATUS_ALIGNED n) false).setFlag (F.REPLICA_STATUS_ALIGN_LOST n) true
  (d.faultBegin 0x04 n 0 (A.REPLICA_STATUS n)).levelCheck (dieSrc n 4)

/-- ALIGNED. -/
def Dev.aligned (d : Dev) (n : Nat) : Dev :=
  if (d.die n).goodSync < 4 ∨ d.flag (F.REPLICA_STATUS_ALIGNED n) then d else
  let d := (d.setFlag (F.REPLICA_STATUS_ALIGNED n) true).setDie n { d.die n with everAligned := true }
  d.faultEnd 0x04 n 0

/-- SYNC_WORD_MISS. -/
def Dev.syncMiss (d : Dev) (n : Nat) : Dev :=
  let x := d.die n
  if d.dieSt n = stStopped ∨ d.raw < x.lastSync + 8192 then d
  else (d.setDie n { x with sync := none, lastSync := d.raw }).countSat (F.REPLICA_STATUS_MISS_CNT n)

/-- CLOCK_PAIR_LOSS. -/
def Dev.pairLoss (d : Dev) (n p : Nat) : Dev :=
  if d.dieSt n = stStopped then d else
  let m := putBit (d.die n).pairsLost p true
  let d := d.setDie n { d.die n with pairsLost := m }
  if m = 3 then d.dieReset n 0x21 p (A.REPLICA_STATUS n)
  else d.setFlag (F.REPLICA_STATUS_CLK_ALT n) (bit m 0)

/-! ## Die links (R22) -/

/-- Status register of a die link: 0 to 3 keeper to answer die, 4 + k ledger link k. -/
def laneReg (k : Nat) : Nat := if k < 4 then A.LINK_STATUS_DL k else A.LMC_LINK (k - 4)

/-- Answer die at an end of a link. -/
def laneDie (k : Nat) : Option Nat := if k < 4 then some k else if k < 6 then none else some ((k - 6) / 2)

/-- LANE_FAILURE: link, direction (up: away from the keeper's or toward the answer's far end as the register names it), lane. -/
def Dev.laneFail (d : Dev) (k : Nat) (up : Bool) (lane : Nat) : Dev :=
  let a := laneReg k
  let spare : Fld := ⟨a, boolNat up, boolNat up⟩
  let which : Fld := if up then ⟨a, 20, 16⟩ else ⟨a, 12, 8⟩
  if (laneDie k).any (d.dieSt · = stStopped) then d else
  let d := d.stick a 24
  if d.flag spare then
    (if k < 4 then d.dieReset k 0x20 lane a else d.deviceFault 0x33 (0x10 + (if k < 6 then k - 4 else (k - 6) % 2)) lane a 5)
  else
    let d := ((d.setFlag spare true).set which lane).stick a 2
    let d := d.faultBegin 0x02 ((laneDie k).getD 0xFF) k a
    if k < 4 then d.raise (dieSrc k 5) a lane else d.raise 47 a (k - 4)

/-- LANE_REMAP_COMPLETE. -/
def Dev.laneDone (d : Dev) (k : Nat) : Dev :=
  (d.setFlag ⟨laneReg k, 2, 2⟩ false).faultEnd 0x02 ((laneDie k).getD 0xFF) k

/-! ## Commands -/

/-- SYNC_WORD_SEND (R23). -/
def execSyncWordSend (n : Fin 4) (s : State) : Answer := s.run (·.syncSend n)

/-- SYNC_WORD_RECEIVE (R25 to R27). -/
def execSyncWordReceive (n : Fin 4) (s : State) : Answer := s.run (·.syncTake n)

/-- MARKER_ECHO (R24): the round trip measured, in 2^-16 tick. -/
def execMarkerEcho (n : Fin 4) (rtt : Nat) (s : State) : Answer := s.run (·.echo n rtt)

/-- ALIGN_LOST (R27). -/
def execAlignLost (n : Fin 4) (s : State) : Answer := s.run (·.alignLost n)

/-- ALIGNED (R27). -/
def execAligned (n : Fin 4) (s : State) : Answer := s.run (·.aligned n)

/-- SYNC_WORD_MISS (R23). -/
def execSyncWordMiss (n : Fin 4) (s : State) : Answer := s.run (·.syncMiss n)

/-- CLOCK_PAIR_LOSS (R28). -/
def execClockPairLoss (n : Fin 4) (p : Fin 2) (s : State) : Answer := s.run (·.pairLoss n p)

/-- LANE_FAILURE (R22). -/
def execLaneFailure (k : Fin 14) (up : Bool) (lane : Fin 16) (s : State) : Answer := s.run (·.laneFail k up lane)

/-- LANE_REMAP_COMPLETE (R22). -/
def execLaneRemapComplete (k : Fin 14) (s : State) : Answer := s.run (·.laneDone k)

/-- DIE_CTRL_ENABLE (R416, R417). -/
def execDieCtrlEnable (v : Fin 16) (s : State) : Answer :=
  s.runM fun h _ d => d.limited A.DIE_CTRL (putBits 3 0 (d.reg A.DIE_CTRL) v) (Dev.dieCtrl h · v)

/-- DIE_TRANSITION_COMPLETE (R416). -/
def execDieTransitionComplete (n : Fin 4) (s : State) : Answer := s.runM fun h _ d => Dev.dieDone h d n

/-- UNCORRECTABLE_ERROR (R422): in the memories of an answer die, or of the keeper. -/
def execUncorrectableError (die : Option (Fin 4)) (s : State) : Answer :=
  s.run fun d => match die with
    | some n => d.dieReset n 0x23 0 (A.CTX_STATUS n)
    | none => d.deviceFault 0x32 0xFF 0 A.GBL_STATUS 5

/-- LEDGER_DIE_LOSS (R422). -/
def execLedgerDieLoss (m : Fin 2) (s : State) : Answer :=
  s.run fun d => if bit (d.get F.LMC_STATUS_TRAINED) m then d.deviceFault 0x33 (0x10 + m) 0 A.LMC_STATUS 5 else d

end Sys2Proof.Machine
end

