-- ==== Sys2Proof/Machine/Faults.lean ====
section
/-! DEFINITION. The fault log, housekeeping-core restarts, watchdog, glitch and thermal faults, counter wraps (R420 to R423, R432, R443, R454). -/

namespace Sys2Proof.Machine

/-! ## Fault log (R423) -/

/-- A fault record as bytes. -/
def FaultRec.bytes (f : FaultRec) : List Byte :=
  leBytes 8 f.tick ++ leBytes 6 f.aon ++ leBytes 2 f.code ++ [byte f.die, byte f.index] ++ leBytes 2 (min f.lost 65535) ++
    leBytes 4 (min f.duration 0xFFFFFFFF) ++ leBytes 4 f.detail ++ leBytes 4 f.seq

/-- Faults that interrupt no answer (R420): recorded at their detection with no duration. -/
def quietFault (code : Nat) : Bool := code == 0x04 || code == 0x0B || code == 0x0C || code == 0x0D

/-- HELD and the newest SEQ follow the retention memory. -/
def Dev.showFaults (d : Dev) : Dev :=
  (d.set F.FAULT_STATUS_HELD d.ret.faults.length).setReg A.FAULT_SEQ
    (BitVec.ofNat 32 ((d.ret.faults.head?.map (·.seq)).getD 0))

/-- One record enters the retention memory, newest first. -/
def Dev.faultStore (d : Dev) (f : FaultRec) : Dev :=
  let f := { f with seq := d.ret.faultSeq }
  let d := { d with ret.faults := (f :: d.ret.faults).take 32, ret.faultSeq := (d.ret.faultSeq + 1) % 2 ^ 32 }
  let d := (d.countSat F.FAULT_STATUS_COUNT).setFlag F.FAULT_STATUS_NEW true
  d.showFaults.raise 7 A.FAULT_STATUS

/-- The record of a fault can be written now. -/
def OpenFault.due (f : OpenFault) (now : Nat) : Bool := quietFault f.fr.code || f.afterLoad || f.ended.any (· ≤ now)

/-- Duration of a fault in ns. -/
def OpenFault.lasted (f : OpenFault) : Nat :=
  if quietFault f.fr.code then 0 else ((f.ended.getD f.fr.tick) - f.fr.tick) * 5 / 4

/-- A fault once recorded: kept while it still holds. -/
def OpenFault.after (f : OpenFault) (now : Nat) : List OpenFault :=
  if f.afterLoad || f.ended.any (· ≤ now) then [] else [{ f with logged := true }]

/-- FAULT_RECORD_WRITE: the record of the earliest fault without one, once it can be written. -/
def Dev.faultWrite (d : Dev) : Dev :=
  let live := d.openFaults.filter fun f => !(f.logged && f.ended.any (· ≤ d.raw))
  let (old, rest) := live.span (·.logged)
  match rest with
  | [] => { d with openFaults := old }
  | f :: rest =>
    if !f.due d.raw ∨ !d.loaded ∨ (f.afterLoad && d.md.resetDue) then { d with openFaults := live }
    else ({ d with openFaults := old ++ f.after d.raw ++ rest } : Dev).faultStore { f.fr with duration := f.lasted }

/-- FAULT_REC: the record that FAULT_SEL selects (R423). -/
def Dev.faultSelected (d : Dev) : List Byte :=
  match d.ret.faults[d.get F.FAULT_SEL_SEL]? with
  | some f => f.bytes
  | none => zeros 32

/-! ## Housekeeping cores (R421, R422) -/

/-- LOCKSTEP_MISMATCH. -/
def Dev.lockstep (d : Dev) : Dev :=
  if d.mode = .bypass ∨ d.md.coresDown.isSome then d
  else if d.md.coresUp.any fun t => d.raw < t + 10 * secTicks then d.deviceFault 0x30 0xFF 0 A.GBL_STATUS 5
  else
    let d := d.faultBegin 0x0D 0xFF 0 A.GBL_STATUS
    { d with md.coresDown := some d.raw }

/-- HOUSEKEEPING_CORE_RESTART. -/
def Dev.coresResume (d : Dev) : Dev :=
  if d.md.coresDown.isNone then d
  else
    let d := d.faultEnd 0x0D 0xFF 0
    ({ d with md.coresDown := none, md.coresUp := some d.raw } : Dev).raise 8

/-- WATCHDOG. -/
def Dev.watchdog (d : Dev) : Dev := if d.mode = .bypass then d else d.deviceFault 0x31 0xFF 0 A.GBL_STATUS 4

/-- GLITCH_DETECT: while PWR_GOOD is high (R443). -/
def Dev.glitch (d : Dev) : Dev :=
  if d.md.powerBad then d else
  let d := (d.deviceFault 0x34 0xFF 0 A.GBL_STATUS 6).zeroiseVolatile
  { d with md.glitch := true }

/-! ## Temperatures (R422, R454), in 0.125 °C -/

/-- A sensor reads a value. -/
def Dev.reading (d : Dev) (k : Nat) (t : Int) : Dev := { d with temps := setAt d.temps k t }

/-- DIE byte of a sensor: keeper, answer dies, ledger dies. -/
def sensorDie (k : Nat) : Nat := if k = 0 then 0xFF else if k ≤ 4 then k - 1 else 0x10 + (k - 5)

/-- THERMAL_SHUTDOWN: 115 °C or more; the device is held in BYPASS. -/
def Dev.thermalOff (d : Dev) (k : Nat) (t : Int) : Dev :=
  if t < 920 ∨ d.mode = .bypass then d.reading k t
  else
    let d := (d.reading k t).deviceFault 0x35 (sensorDie k) 0 A.GBL_STATUS 5
    { d with md.hot := true }

/-- TEMPERATURE_ALARM: above 105 °C; at 115 °C or more the forced reset wins (R454). -/
def Dev.tempAlarm (d : Dev) (k : Nat) (t : Int) : Dev :=
  if 920 ≤ t then d.thermalOff k t else (d.reading k t).levelCheck 9

/-! ## Counters (R430 to R432) -/

/-- A programmable counter at its maximum takes one more event. -/
def Dev.progWrap (d : Dev) (die : Option (Fin 4)) (k : Nat) : Dev :=
  let (cfg, ovf) := match die with
    | some n => (A.D_CNT_CFG n k, A.D_CNT_OVF n)
    | none => (A.K_CNT_CFG k, A.K_CNT_OVF)
  let r := d.reg cfg
  if bit r.toNat 12 ∧ bits 7 0 r ≠ 0 ∧ d.get64 (cfg + 8) = 2 ^ 48 - 1 then
    let (d, ev) := d.bumpProg cfg ovf k 1
    if !ev then d else
    match die with
    | some n => d.raise (dieSrc n 14) (A.D_CNT_BLK_STATUS n)
    | none => d.raise 46 A.K_CNT_BLK_STATUS
  else d

/-- The cycle counter counts n cycles; its wrap sets CNT_OVF.CYCLE (R429). -/
def Dev.addCycles (d : Dev) (cyc ovf n : Nat) : Dev :=
  let v := d.get64 cyc + n
  let d := d.set64 cyc (v % 2 ^ 64)
  if v < 2 ^ 64 then d else d.stick ovf 8

/-- COUNTER_WRAP: counters 0 to 7 (keeper 0 to 3), 8 the cycle counter. -/
def Dev.counterWrap (d : Dev) (die : Option (Fin 4)) (k : Nat) : Dev :=
  let on := match die with
    | some n => d.diePowered n
    | none => k < 4 || k == 8
  if !on then d
  else if k < 8 then d.progWrap die k
  else
    let (cyc, ovf) := match die with
      | some n => (A.D_CYCLE n, A.D_CNT_OVF n)
      | none => (A.K_CYCLE, A.K_CNT_OVF)
    if d.get64 cyc = 2 ^ 64 - 1 then d.addCycles cyc ovf 1 else d

/-! ## Commands -/

/-- FAULT_RECORD_WRITE (R423). -/
def execFaultRecordWrite (s : State) : Answer := s.run Dev.faultWrite

/-- LOCKSTEP_MISMATCH (R421, R422). -/
def execLockstepMismatch (s : State) : Answer := s.run Dev.lockstep

/-- HOUSEKEEPING_CORE_RESTART (R421). -/
def execHousekeepingCoreRestart (s : State) : Answer := s.run Dev.coresResume

/-- WATCHDOG (R422). -/
def execWatchdog (s : State) : Answer := s.run Dev.watchdog

/-- GLITCH_DETECT (R443, R422, R82). -/
def execGlitchDetect (s : State) : Answer := s.run Dev.glitch

/-- TEMPERATURE_ALARM (R454): a sensor (0 keeper, 1 to 4 answer dies, 5 and 6 ledger dies) and its reading in 0.125 °C. -/
def execTemperatureAlarm (k : Fin 7) (t : Int) (s : State) : Answer := s.run (·.tempAlarm k t)

/-- THERMAL_SHUTDOWN (R422, R454). -/
def execThermalShutdown (k : Fin 7) (t : Int) (s : State) : Answer := s.run (·.thermalOff k t)

/-- COUNTER_WRAP (R432). -/
def execCounterWrap (die : Option (Fin 4)) (k : Fin 9) (s : State) : Answer := s.run (·.counterWrap die k)

end Sys2Proof.Machine
end

