-- ==== Sys2Proof/Machine/Snapshot.lean ====
section
/-! DEFINITION. Statistics snapshots, local and ring-wide (R246 to R248, R394, R429, R435). -/

namespace Sys2Proof.Machine

/-! ## The instant S (R246) -/

/-- A scale code's owner of SC_STATUS.INIT. -/
def Dev.codeInit (d : Dev) (code : Nat) : Bool :=
  d.flag (F.SC_STATUS_INIT (if code = 2 then d.ts.servedAt (ticks16 d.raw) else code))

/-- First tick from r0 at which served time reads at or past v, its published sets and switches as they stand. -/
def Ts.servedTick (ts : Ts) (v : Int) : Nat → Nat → Nat
  | 0, r => r
  | fuel + 1, r =>
    match ts.served72 (ticks16 r) with
    | none => r
    | some t =>
      if v ≤ t then r else
      let p := (ts.scale (ts.servedAt (ticks16 r))).setAt (ticks16 r)
      let rate : Int := ((p.map (·.incr)).getD nominalIncr) * 65536 * 10001 / 10000 + 1
      let c := r + max 1 ((v - t) / rate).toNat
      let es := (ts.a.sets ++ ts.b.sets).map (·.epoch) ++ ts.switches.map (·.s)
      let c := (es.filter fun e => r < e ∧ e < c).foldl min c
      Ts.servedTick ts v fuel c

/-- The tick at which a scale code reads at or past a time in 2^-16 ns, by what is published now. -/
def Dev.reachTick (d : Dev) (code : Nat) (t16 : Int) : Nat :=
  if code = 2 then d.ts.servedTick (to72 t16) 256 d.raw else (d.scale code).firstTick (to72 t16) 64 d.raw

/-- A scale code has reached a time. -/
def Dev.reached (d : Dev) (code : Nat) (t16 : Int) : Bool :=
  (d.ts.time16 code (ticks16 d.raw)).any fun x => decide (t16 ≤ x)

/-- S of a pending snapshot as it stands now. -/
def Dev.snapTick (d : Dev) (r : StatRun) : Nat :=
  match r.scale with
  | none => r.value.toNat
  | some c => d.reachTick c r.value

/-! ## Requests (R247, R248, in the order of R462) -/

/-- The code of a request for a snapshot. -/
def Dev.snapCode (d : Dev) (r : StatRun) (ring : Bool) (rawScale : Bool) : Nat :=
  if d.statRun.isSome then 1
  else if tooSoon d.raw (d.snapTick r) then 2
  else if tooFar d.raw (d.snapTick r) then 3
  else if (r.scale.map fun c => !d.codeInit c).getD false then 4
  else if ring && rawScale then 7
  else 0

/-- Takes or refuses a request. -/
def Dev.snapTake (d : Dev) (r : StatRun) (ring rawScale : Bool) : Dev :=
  let c := d.snapCode r ring rawScale
  let d := d.set F.STAT_SNAP_STATUS_LAST_CODE c
  if c ≠ 0 then d else ({ d with statRun := some r } : Dev).setFlag F.STAT_SNAP_STATUS_PENDING true

/-- What STAT_SNAP_CTRL requests (R246). -/
def Dev.snapReq (d : Dev) : StatRun :=
  let seq := ((d.reg A.STAT_SNAP_SEQ).toNat + 1) % 2 ^ 32
  if !d.flag F.STAT_SNAP_CTRL_AT_TIME then { value := d.raw + leadTicks, seq := seq }
  else if d.get F.STAT_SNAP_CTRL_SCALE = 3 then { value := d.get64 A.STAT_SNAP_RAW, seq := seq }
  else { scale := some (d.get F.STAT_SNAP_CTRL_SCALE), value := d.getTime A.STAT_SNAP_TIME, seq := seq }

/-- The port that this device's own ring-wide messages leave by: RING_R, or RING_L while RING_R is down. -/
def Dev.originPort (d : Dev) : Nat := if d.portUp 1 then 1 else 0

/-- STAT_SNAP_CTRL.GO. -/
def Dev.snapGo (d : Dev) : Dev :=
  let r := d.snapReq
  let ring := d.flag F.STAT_SNAP_CTRL_RING
  let k := d.get F.STAT_SNAP_CTRL_SCALE
  let d := d.snapTake r ring (k == 3)
  if !ring ∨ d.get F.STAT_SNAP_STATUS_LAST_CODE ≠ 0 then d else
  -- a ring request by the raw count travels as the time that the named scale reads at S
  let t := match r.scale with
    | some _ => r.value
    | none => (d.ts.time16 k (ticks16 r.value.toNat)).getD 0
  let (q, d) := d.nextMsg
  d.ringSend d.originPort
    { ty := 0x03, hops := 0, reply := false, origin := selfId, seq := q
      payload := beBytes 4 r.seq ++ [byte k, 0, 0, 0] ++ timeRecord t k 0 }

/-- STAT_SNAP_CTRL.CANCEL. -/
def Dev.snapCancel (d : Dev) : Dev :=
  match d.statRun with
  | none => d.set F.STAT_SNAP_STATUS_LAST_CODE 8
  | some r =>
    if r.latched.isSome ∨ tooSoon d.raw (d.snapTick r) then d.set F.STAT_SNAP_STATUS_LAST_CODE 6
    else (({ d with statRun := none } : Dev).setFlag F.STAT_SNAP_STATUS_PENDING false).set F.STAT_SNAP_STATUS_LAST_CODE 5

/-- SNAPSHOT message (R247, R394). -/
def Dev.snapMessage (d : Dev) (p : Nat) (f : List Byte) : Dev :=
  match d.ringTake p 0x03 f with
  | (d, none) => d
  | (d, some m) =>
    if m.payload.length ≠ 24 ∨ beAt m.payload 4 1 > 2 then d.count32 (A.GR_ERR p)
    else if m.origin = selfId then d
    else
      let r : StatRun := { scale := some (beAt m.payload 4 1), value := recTime (slice m.payload 8 16), seq := beAt m.payload 0 4 }
      let d :=
        if !d.loaded then d
        else
          let late := d.reached (beAt m.payload 4 1) r.value
          let d := if late then d.setFlag F.STAT_SNAP_STATUS_MISSED true else d
          if late ∧ d.statRun.isNone then d else d.snapTake r false false
      d.ringForward p m

/-! ## Latching (R246) -/

/-- Copies the registers of a range to the same range further up, in place of what stands there. -/
def Dev.copyUp (d : Dev) (base len up : Nat) : Dev :=
  let old := d.bus.regs.filter fun p => decide (p.1 < base + up ∨ base + up + len ≤ p.1)
  let src := d.bus.regs.filter fun p => decide (base ≤ p.1 ∧ p.1 < base + len)
  src.foldl (fun d p => d.setReg (p.1 + up) p.2) { d with bus.regs := old }

/-- The counters of a powered die are copied. -/
def Dev.latchDie (d : Dev) (n : Nat) : Dev :=
  if !d.diePowered n then d else
  let d := (List.range 4).foldl (fun d l => d.copyUp (A.STAT_LIVE n l 0) 0x200 0x200) d
  let d := d.copyUp (A.CTX_CNT n 0 0) 0x4000 0x4000
  let d := (List.range 8).foldl (fun d k => d.set64 (A.D_CNT_SNAP n k) (d.get64 (A.D_CNT n k))) d
  d.set64 (A.D_CYCLE_SNAP n) (d.get64 (A.D_CYCLE n))

/-- A counter of a host ring. -/
def ringCounter (a : Nat) : Bool :=
  match lookup a with
  | some h => (h.bank == .cr || h.bank == .er || h.bank == .rx || h.bank == .tx) && decide (0x20 ≤ h.row.off)
  | none => false

/-- S of the pending snapshot once it has come. -/
def Dev.snapNow (d : Dev) : Option (StatRun × Nat) :=
  d.statRun.bind fun r =>
    if r.latched.isSome then none else
    match r.scale with
    | none => if r.value ≤ d.raw then some (r, r.value.toNat) else none
    | some c => if d.reached c r.value then some (r, d.raw) else none

/-- At S every counter is copied (R246); the tick that reaches S does so, and what is counted after with an instant before S goes into the copy too. -/
def Dev.snapCopy (d : Dev) : Dev :=
  match d.snapNow with
  | none => d
  | some (r, s) =>
    let d : Dev := { d with statRun := some { r with latched := some s }, ringSnap := d.bus.regs.filter fun p => ringCounter p.1 }
    let d := (List.range 4).foldl Dev.latchDie d
    let d := (List.range 4).foldl (fun d k => d.set64 (A.K_CNT_SNAP k) (d.get64 (A.K_CNT k))) d
    d.set64 A.K_CYCLE_SNAP (d.get64 A.K_CYCLE)

/-- SNAPSHOT_LATCH: S has come, the counters are copied, and the status shows it. -/
def Dev.snapLatch (d : Dev) : Dev :=
  let d := d.snapCopy
  if (d.statRun.bind (·.latched)).isSome && d.flag F.STAT_SNAP_STATUS_PENDING then
    (d.setFlag F.STAT_SNAP_STATUS_PENDING false).setFlag F.STAT_SNAP_STATUS_LATCHING true
  else d

/-- SNAPSHOT_COMPLETE. -/
def Dev.snapDone (d : Dev) : Dev :=
  match d.statRun with
  | none => d
  | some r =>
    match r.latched with
    | none => d
    | some s =>
      if !d.flag F.STAT_SNAP_STATUS_LATCHING then d else
      let seq := BitVec.ofNat 32 r.seq
      let d := (List.range 4).foldl (fun d n =>
        if d.diePowered n then (d.setReg (A.STAT_SNAP_INFO n) seq).set64 (A.STAT_SNAP_S n) s else d) { d with statRun := none }
      let d := (d.setFlag F.STAT_SNAP_STATUS_LATCHING false).setFlag F.STAT_SNAP_STATUS_DONE true
      (d.setReg A.STAT_SNAP_SEQ seq).raise 2 A.STAT_SNAP_STATUS

/-! ## Commands -/

/-- STAT_SNAP_GO (R246 to R248). -/
def execStatSnapGo (s : State) : Answer := s.run (·.whenUp Dev.snapGo)

/-- STAT_SNAP_CANCEL (R248). -/
def execStatSnapCancel (s : State) : Answer := s.run (·.whenUp Dev.snapCancel)

/-- SNAPSHOT_LATCH (R246). -/
def execSnapshotLatch (s : State) : Answer := s.run Dev.snapLatch

/-- SNAPSHOT_COMPLETE (R246). -/
def execSnapshotComplete (s : State) : Answer := s.run Dev.snapDone

/-- SNAPSHOT (R247, R394). -/
def execSnapshot (p : Fin 2) (f : List Byte) (s : State) : Answer := s.run (·.snapMessage p f)

end Sys2Proof.Machine
end

