-- ==== Sys2Proof/Machine/Summary.lean ====
section
/-! DEFINITION. The re-synchronising summary, the SMBus target, ring queries (R360, R361, R395, R424, R425). -/

namespace Sys2Proof.Machine

/-! ## The record (R425) -/

/-- A keeper register's image. -/
def Dev.img4 (d : Dev) (a : Nat) : List Byte := leBytes 4 (d.reg a).toNat
def Dev.img64 (d : Dev) (a : Nat) : List Byte := leBytes 8 (d.get64 a)

/-- Segments at the ranges where they stand; n answers for index i. -/
def segs (n : Nat) (f : Nat → List Byte) : List Byte := ((List.range n).map f).flatten

/-- A list of bytes filled to n with zeros. -/
def padTo (n : Nat) (l : List Byte) : List Byte := l ++ zeros (n - l.length)

/-- Fields of one answer die; zero when it is power-gated. -/
def Dev.sumDie (d : Dev) (n : Nat) : List Byte :=
  if !d.diePowered n then zeros 32 else
  let eng (e : Nat) : List Byte :=
    [byte (d.get (F.ENG_CTRL_STATE n e) + 4 * d.get (F.ENG_CTRL_LATCHED n e) + 16 * d.get (F.ENG_CTRL_LAST_CODE n e))]
  let link (l : Nat) : List Byte :=
    [byte (d.get (F.LINK_CTRL_STATE n l) + 4 * d.get (F.LINK_STATUS_LINK_UP n l) + 8 * d.get (F.LINK_STATUS_GRID_OK n l) +
      16 * d.get (F.CAL_FLAGS_OVF n l))]
  ([A.DIE_INFO n, A.ENG_FAULT n, A.REPLICA_STATUS n, A.LINK_STATUS_DL n, A.DPLL_STATUS n 0, A.DPLL_STATUS n 1].map d.img4).flatten ++
    segs 4 eng ++ segs 4 link

/-- A ring's indices and state. -/
def Dev.sumRing (d : Dev) (b : Nat) : List Byte :=
  leBytes 2 (d.get (ringHead b)) ++ leBytes 2 (d.get (ringTail b)) ++
    [byte (d.get (ringState b) + 4 * d.get (ringLatched b) + 8 * d.get (ringCfgErr b) + 16 * d.get (ringDmaErr b))] ++ zeros 3

/-- The rings of one answer die. -/
def Dev.sumDieRings (d : Dev) (n : Nat) : List Byte :=
  if !d.diePowered n then zeros 128
  else segs 8 (fun r => d.sumRing (A.RXR_BASE n r)) ++ segs 8 (fun t => d.sumRing (A.TXR_BASE n t))

/-- One device link. -/
def Dev.sumLink (d : Dev) (k : Nat) : List Byte :=
  let n := k / 4
  let l := k % 4
  if !d.diePowered n then zeros 32 else
  d.img64 (A.STAT_LIVE n l 0) ++ d.img64 (A.STAT_LIVE n l 0 + 0x100) ++ d.img4 (A.CAL_LATE n l) ++
    d.img4 (A.STAT_LIVE n l 0 + 0xA0) ++ d.img4 (A.STAT_LIVE n l 0 + 0x128) ++ zeros 4

/-- One scale at an instant. -/
def Dev.sumScale (d : Dev) (r16 k : Nat) : List Byte :=
  let p := (d.scale k).setAt r16
  let (s, ns, f) := splitTime (floor16 ((p.map (·.ofs)).getD 0))
  d.stampRecord k r16 ++ d.img4 (A.SC_STATUS k) ++ leBytes 4 ((p.map (·.seq)).getD 0) ++ leBytes 8 ((p.map (·.epoch)).getD 0) ++
    leBytes 8 ((p.map (·.incr)).getD 0) ++ leBytes 16 (f + 2 ^ 32 * ns + 2 ^ 64 * s) ++ zeros 8

/-- Signed bridge at an instant, in 2^-16 ns. -/
def Dev.bridge16 (d : Dev) (r16 : Nat) : Int :=
  ((d.ts.switchAt r16).map fun w => (w.bridge r16).tdiv ((2 ^ 56 : Nat) : Int)).getD 0

/-- Bytes 0x000 to 0x07F: header, its number left out, mode and boot. -/
def Dev.sumHead (d : Dev) (src r16 : Nat) : List Byte :=
  [byte 0x55, byte 0x54, byte 0x53, byte 0x52, 1, 0, byte src, 0] ++ zeros 4 ++ leBytes 4 4096 ++
    rawRecord r16 (8 * boolNat d.coarse) ++ d.img4 A.DEVICE_ID ++ zeros 4 ++ selfId ++ zeros 16 ++
    ([A.MODE_STATUS, A.BOOT_STATUS, A.POS_INFO, A.POS_GEN, A.RESET_CAUSE, A.UPD_SESSION, A.UPD_FWD, A.TRIAL_REMAIN, A.IMAGE_GEN,
      A.HDR_SEQ, A.SET_STATUS, A.EU_STATUS, A.CASTLE_STATUS, A.DIE_STATE, A.FAULT_SEQ].map d.img4).flatten ++ zeros 4

/-- Bytes 0x080 to 0x13F: dies, engine, GNSS, clocks, inputs and outputs, ring ports. -/
def Dev.sumBlocks (d : Dev) : List Byte :=
  segs 4 d.sumDie ++ ([A.BN_CTRL, A.BN_OP, A.GN_CTRL, A.GN_STATE, A.OSC_STATUS].map d.img4).flatten ++
    segs 4 (fun p => d.img4 (A.PLL_STATUS p)) ++ segs 4 (fun n => [byte ((d.reg (A.OUT_CTRL n)).toNat % 16)]) ++
    segs 8 (fun n => [byte ((d.reg (A.IN_CTRL n)).toNat % 16)]) ++ segs 2 (fun p => d.img4 (A.GR_PSTATUS p)) ++ zeros 8

/-- Bytes 0x140 to 0x2FF: slots, selectors, scales. -/
def Dev.sumTime (d : Dev) (r16 : Nat) : List Byte :=
  segs 12 (fun s => d.img4 (A.SLOT_STATE s) ++ d.img4 (A.SLOT_WTR_REMAIN s) ++ d.img4 (A.SLOT_FREQ s) ++ zeros 4) ++
    segs 2 (fun k => d.img4 (A.SEL_STATUS k) ++ d.img4 (A.HOLD_REMAIN k) ++ d.img4 (A.E_NOW k) ++ d.img4 (A.E_RATE k) ++
      d.img64 (A.HOLD_FREQ k) ++ zeros 40) ++ segs 2 (d.sumScale r16)

/-- Bytes 0x300 to 0x57F: served time, rings, event table. -/
def Dev.sumServed (d : Dev) (r16 : Nat) : List Byte :=
  d.stampRecord 2 r16 ++ leBytes 8 (ofSigned 64 (d.bridge16 r16)) ++ d.img4 A.UTC_STATUS ++ zeros 36 ++
    segs 4 d.sumDieRings ++ d.sumRing A.CMDR_BASE ++ d.sumRing A.EVR_BASE ++ zeros 16 ++
    segs 4 (fun w => d.img4 (A.EV_STATUS w)) ++ segs 4 (fun w => d.img4 (A.EV_ENABLE w))

/-- Fault records, newest first. -/
def Dev.sumFaults (d : Dev) : List Byte := segs 16 fun i => ((d.ret.faults[i]?).map (·.bytes)).getD (zeros 32)

/-- Bytes 0x000 to 0xFFB of the record as the device stands, for a tick S (R424, R425): in SAFE, header, mode and boot, slots, selectors, scales and faults only. -/
def Dev.sumBody (d : Dev) (src s : Nat) : List Byte :=
  let r16 := ticks16 s
  let safe := d.mode == .safe
  let part (n : Nat) (l : List Byte) : List Byte := if safe then zeros n else padTo n l
  padTo 0xFFC (d.sumHead src r16 ++ part 0xC0 d.sumBlocks ++ d.sumTime r16 ++ part 0x280 (d.sumServed r16) ++ d.sumFaults ++
    part 0x200 (segs 16 d.sumLink))

/-- The 4 KiB record: its number and CRC are entered. -/
def sumFinish (b : List Byte) (seq : Nat) : List Byte :=
  let b := patch b 8 (leBytes 4 seq)
  b ++ leBytes 4 (crc32c b)

/-- The registers that are computed at a read show the present tick. -/
def Dev.sumShown (d : Dev) : Dev := (d.showUtc.showENow 0).showENow 1

/-- The record at S, or, where the cores could not take it then (R421), at the present tick. -/
def Dev.sumImage (d : Dev) (src s : Nat) : List Byte := d.sumShown.sumBody src (if d.raw < s + 80 then s else d.raw)

/-- Every field is held at S (R424, R425): the tick that reaches S does so; those that the cores take wait for them (R421). -/
def Dev.sumCopy (d : Dev) : Dev :=
  let one (src : Nat) (r : SumRun) : SumRun :=
    if r.s ≤ d.raw ∧ r.data.isNone ∧ r.image.isNone then { r with image := some (d.sumImage src r.s) } else r
  let d' : Dev := { d with sums.host := d.sums.host.map (one 0) }
  if d.md.coresDown.isSome then d' else
  { d' with sums.smb := d.sums.smb.map (one 1)
            ring.sums := d.ring.sums.map fun q => if q.s ≤ d.raw ∧ q.image.isNone then { q with image := some (d.sumImage 2 q.s) } else q }

/-! ## Host summary (R424) -/

/-- SUMMARY_GO.GO. -/
def Dev.summaryGo (d : Dev) : Dev :=
  let code := if d.sums.host.isSome then 1 else if !d.pcie.perstN ∨ !d.dmaOk then 2 else if !d.loaded then 3 else 0
  let d := d.set F.SUMMARY_STATUS_LAST_CODE code
  if code ≠ 0 then d
  else ({ d with sums.host := some { s := d.raw + leadTicks, addr := d.get64 A.SUMMARY_ADDR / 64 * 64 } } : Dev).setFlag F.SUMMARY_STATUS_BUSY true

/-- A summary is taken: its number, and the record as it stood at S. -/
def Dev.sumMake (d : Dev) (src s : Nat) (image : Option (List Byte)) : Dev × List Byte :=
  let seq := (d.sums.taken + 1) % 2 ^ 32
  let b := sumFinish (image.getD (d.sumImage src s)) seq
  ((({ d with sums.taken := seq } : Dev).setReg A.SUMMARY_SEQ (BitVec.ofNat 32 seq)).sumShown, b)

/-- A part of a summary travels back to its origin (R395): KIND, part, number of parts, bytes. -/
def Dev.sendParts (d : Dev) (q : RingSum) (b : List Byte) : Dev :=
  (List.range 4).foldl (fun d k =>
    d.ringSend q.port { ty := 0x05, hops := 0, reply := true, origin := q.origin, seq := q.seq
                        payload := [1, byte k, 4, 0] ++ (b.drop (1024 * k)).take 1024 }) d

/-- SUMMARY_LATCH of one buffer: 0 host, 1 SMBus, 2 ring. -/
def Dev.sumLatch (d : Dev) (src : Nat) : Dev :=
  if src = 0 then
    match d.sums.host with
    | some r =>
      if r.data.isSome ∨ d.raw < r.s then d else
      let (d, b) := d.sumMake 0 r.s r.image
      { d with sums.host := some { r with data := some b } }
    | none => d
  else if d.md.coresDown.isSome then d
  else if src = 1 then
    match d.sums.smb with
    | some r =>
      if d.raw < r.s then d else
      let (d, b) := d.sumMake 1 r.s r.image
      { d with sums.smb := none, sums.smbBuf := some b }
    | none => d
  else
    match d.ring.sums with
    | q :: rest =>
      if d.raw < q.s then d else
      let (d, b) := d.sumMake 2 q.s q.image
      ({ d with ring.sums := rest, sums.ringBuf := some b } : Dev).sendParts q b
    | [] => d

/-- Every source whose status and enable are 1 is delivered once more (R424 step 2). -/
def Dev.redeliverAll (d : Dev) : Dev :=
  (List.range 128).foldl (fun d s => if d.get (evStatus s) = 1 ∧ d.get (evEnable s) = 1 then d.redeliver s true else d) d

/-- SUMMARY_WRITTEN: fail: the DMA fails. -/
def Dev.sumWritten (d : Dev) (fail : Bool) : Dev :=
  match d.sums.host with
  | none => d
  | some r =>
    match r.data with
    | none => d
    | some b =>
      let d := ({ d with sums.host := none } : Dev).setFlag F.SUMMARY_STATUS_BUSY false
      if fail ∨ !d.dmaOk then d.set F.SUMMARY_STATUS_LAST_CODE 4
      else (((d.post r.addr b).setFlag F.SUMMARY_STATUS_DONE true).raise 3 A.SUMMARY_STATUS).redeliverAll

/-! ## SMBus (R360, R361) -/

/-- CRC-8 of SMBus packet error checking. -/
def crc8 (bs : List Byte) : Nat :=
  bs.foldl (fun c b => (List.range 8).foldl (fun c _ => if c < 128 then c * 2 else (c * 2) % 256 ^^^ 7) (c ^^^ b.toNat)) 0

/-- The target answers: not in BYPASS. -/
def Dev.smbOn (d : Dev) : Bool := d.mode ≠ .bypass

/-- A read of a command code: the data and PEC. -/
def Dev.smbRead (d : Dev) (code : Nat) (data : List Byte) : Dev :=
  if !d.smbOn then d.emit (.smbus none)
  else d.emit (.smbus (some (data ++ [byte (crc8 ([byte 0x94, byte code, byte 0x95] ++ data))])))

/-- A write: acknowledged unless its PEC is bad. -/
def Dev.smbWrite (d : Dev) (pecBad : Bool) (f : Dev → Dev) : Dev :=
  if !d.smbOn ∨ pecBad then d.emit (.smbus none) else (f d).emit (.smbus (some []))

/-- A sensor's die is power-gated. -/
def Dev.sensorOff (d : Dev) (k : Nat) : Bool := decide (1 ≤ k ∧ k ≤ 4) && !d.diePowered (k - 1) || decide (5 ≤ k) && (d.mode == .standby || d.mode == .safe)

/-- TEMP: the sensor's reading, or 0x8000. -/
def Dev.smbTemp (d : Dev) (k : Nat) (t : Int) : Dev :=
  if d.sensorOff k then d.smbRead (8 + k) (leBytes 2 0x8000) else (d.reading k t).smbRead (8 + k) (leBytes 2 (ofSigned 16 t))

/-- SUM_STATE: 0 none, 1 taking, 2 ready. -/
def Dev.smbSumState (d : Dev) : Nat := if d.sums.smb.isSome then 1 else if d.sums.smbBuf.isSome then 2 else 0

/-- SUM_READ. -/
def Dev.smbSumRead (d : Dev) : Dev :=
  if !d.smbOn then d.emit (.smbus none) else
  let p := d.sums.smbPtr
  let b := slice (d.sums.smbBuf.getD []) p 32
  ({ d with sums.smbPtr := if p ≥ 4064 then 0 else p + 32 } : Dev).smbRead 0x13 (byte 32 :: b)

/-! ## Ring queries (R395) -/

/-- This device's status record. -/
def Dev.statusRecord (d : Dev) : List Byte :=
  let h := d.hdr
  let sealed' := ((List.range 2).find? fun b => (h.rec' 0 b).state == 2).map fun b => slice (h.rec' 0 b).digest 0 8
  selfId ++ [byte (d.get F.MODE_STATUS_MODE),
    byte (d.get F.MODE_STATUS_ON_TRIAL + 2 * boolNat (d.mode == .safe) + 4 * d.imageBank),
    byte ((d.reg A.UPD_SESSION).toNat % 16), byte (d.get F.UPD_SESSION_LAST_CODE)] ++
    beBytes 4 (h.rec' 0 h.active).gen ++ slice (h.rec' 0 h.active).digest 0 8 ++ sealed'.getD (zeros 8)

/-- RING_QUERY. -/
def Dev.ringQuery (d : Dev) (desc : Nat) (inp : List Byte) : Dev × Option (Nat × List Byte) :=
  let kind := leAt inp 0 1
  let p := leAt inp 1 1
  let t := leAt inp 2 1
  if kind > 1 then (d, some (ucTooLarge, []))
  else if kind = 1 ∧ (t = 0 ∨ t > 15) then (d, some (ucBadIndex, []))
  else if p > 1 ∨ !d.portUp p then (d, some (ucRingDown, []))
  else
    let (q, d) := d.nextMsg
    let d : Dev := { d with ring.query := some { desc := desc, kind := kind, seq := q, since := d.raw } }
    (d.ringSend p { ty := 0x04, hops := 0, reply := false, origin := selfId, seq := q, payload := [byte kind, byte t, 0, 0] }, none)

/-- The outstanding query ends. -/
def Dev.queryEnd (d : Dev) (q : RingQ) (code : Nat) : Dev :=
  ({ d with ring.query := none } : Dev).cmdFinish q.desc code q.recs.flatten

/-- QUERY. -/
def Dev.query' (d : Dev) (p : Nat) (f : List Byte) : Dev :=
  match d.ringTake p 0x04 f with
  | (d, none) => d
  | (d, some m) =>
    if m.payload.length < 4 ∨ beAt m.payload 0 1 > 1 then d.count32 (A.GR_ERR p)
    else if m.origin = selfId then
      match d.ring.query with
      | some q => if q.seq = m.seq ∧ q.kind = 0 then d.queryEnd { q with recs := [m.payload.drop 4] } 0 else d
      | none => d
    else if beAt m.payload 0 1 = 0 then
      let m := { m with payload := m.payload ++ d.statusRecord }
      if m.hops ≥ 15 ∨ !d.portUp (1 - p) then
        -- it can go no further: what it holds travels back
        d.ringSend p { ty := 0x05, hops := 0, reply := true, origin := m.origin, seq := m.seq, payload := [0, 0, 1, 0] ++ m.payload.drop 4 }
      else d.ringForward p m
    else if m.hops + 1 = beAt m.payload 1 1 then
      { d with ring.sums := d.ring.sums ++ [{ port := p, origin := m.origin, seq := m.seq, hops := m.hops, s := d.raw + leadTicks }] }
    else d.ringForward p m

/-- QUERY_REPLY. -/
def Dev.queryReply (d : Dev) (p : Nat) (f : List Byte) : Dev :=
  match d.ringTake p 0x05 f with
  | (d, none) => d
  | (d, some m) =>
    if m.payload.length < 4 then d.count32 (A.GR_ERR p)
    else if m.origin ≠ selfId then d.ringForward p m
    else match d.ring.query with
      | none => d
      | some q =>
        if q.seq ≠ m.seq ∨ q.kind ≠ beAt m.payload 0 1 then d else
        let q := { q with recs := q.recs ++ [m.payload.drop 4] }
        if q.kind = 1 ∧ q.recs.length ≥ 4 then d.queryEnd q 0 else { d with ring.query := some q }

/-- QUERY_TIMEOUT. -/
def Dev.queryTimeout (d : Dev) : Dev :=
  match d.ring.query with
  | some q => if d.raw < q.since + 50 * msTicks then d else d.queryEnd q ucTimeout
  | none => d

/-! ## Commands -/

/-- SUMMARY_GO (R424). -/
def execSummaryGo (s : State) : Answer := s.run Dev.summaryGo

/-- SUMMARY_LATCH (R424, R425): 0 host, 1 SMBus, 2 ring. -/
def execSummaryLatch (src : Fin 3) (s : State) : Answer := s.run (·.sumLatch src)

/-- SUMMARY_WRITTEN (R424). -/
def execSummaryWritten (fail : Bool) (s : State) : Answer := s.run (·.sumWritten fail)

/-- SMBUS_ID (R360). -/
def execSmbusId (s : State) : Answer := s.run (·.smbRead 0x00 (leBytes 2 0x4870))

/-- SMBUS_MODE (R360). -/
def execSmbusMode (s : State) : Answer := s.run fun d => d.smbRead 0x01 (leBytes 2 ((d.reg A.MODE_STATUS).toNat % 1024))

/-- SMBUS_SEL (R360). -/
def execSmbusSel (s : State) : Answer :=
  s.run fun d => d.smbRead 0x02 (leBytes 2 (d.selSt 0 + 16 * d.selSt 1 + 256 * d.ts.servedAt (ticks16 d.raw)))

/-- TEMP (R360): the sensor, and what it reads in 0.125 °C. -/
def execTemp (k : Fin 7) (t : Int) (s : State) : Answer := s.run (·.smbTemp k t)

/-- SUM_TAKE (R360, R361). -/
def execSumTake (pecBad : Bool) (s : State) : Answer :=
  s.run (·.smbWrite pecBad fun d =>
    if d.sums.smb.isSome then d else { d with sums.smb := some { s := d.raw + leadTicks }, sums.smbBuf := none })

/-- SUM_STATE (R360). -/
def execSumState (s : State) : Answer := s.run fun d => d.smbRead 0x11 [byte d.smbSumState]

/-- SUM_PTR (R360). -/
def execSumPtr (v : Nat) (pecBad : Bool) (s : State) : Answer :=
  s.run (·.smbWrite pecBad fun d => if v % 32 = 0 ∧ v ≤ 4064 then { d with sums.smbPtr := v } else d)

/-- SUM_READ (R360). -/
def execSumRead (s : State) : Answer := s.run Dev.smbSumRead

/-- RESET_REQ (R360, R82). -/
def execResetReq (v : Nat) (pecBad : Bool) (s : State) : Answer :=
  s.run (·.smbWrite pecBad fun d => if v = 0xA55A then d.askReset 3 else d)

/-- SMBUS_TIMEOUT (R451): both lines are released; no transaction outlives a command of the target. -/
def execSmbusTimeout (s : State) : Answer := s.run (·.emit (.smbus none))

/-- RING_QUERY (R395). -/
def execRingQuery (s : State) : Answer := s.runM fun h _ d => Dev.command h d 0x56 fun d c => d.ringQuery c.desc c.input

/-- QUERY (R395). -/
def execQuery (p : Fin 2) (f : List Byte) (s : State) : Answer := s.run (·.query' p f)

/-- QUERY_REPLY (R395). -/
def execQueryReply (p : Fin 2) (f : List Byte) (s : State) : Answer := s.run (·.queryReply p f)

/-- QUERY_TIMEOUT (R395). -/
def execQueryTimeout (s : State) : Answer := s.run Dev.queryTimeout

end Sys2Proof.Machine
end

