-- ==== Sys2Proof/Machine/BusCore.lean ====
section
/-! DEFINITION. Committing register writes: access codes, ranges and reserved encodings, LIMITS, multiword staging, guards (R5, R12 to R20, R61, R461, R458, R459). -/

namespace Sys2Proof.Machine

/-! ## The register addressed -/

/-- Place of the word within its multiword group (R14). -/
def Hit.pos (h : Hit) : Nat := (h.row.gpos + h.row.gstep * h.w) % h.row.gwords

/-- Offset of the lowest word of the group of offset a. -/
def Hit.low (h : Hit) (a : Nat) : Nat := a - 4 * h.pos

/-- The word is the highest of its group: its write commits (R16). -/
def Hit.commits (h : Hit) : Bool := h.pos + 1 == h.row.gwords

def RegRow.has (r : RegRow) (c : Acc) : Bool := r.fields.any (·.acc == c)

/-- A register with a field that a write can change. -/
def RegRow.writable (r : RegRow) : Bool := r.fields.any fun f => f.acc != .ro

/-- A register that needs arming (R18). -/
def Hit.guarded (h : Hit) : Bool := h.row.has .rwg

/-- A register after a write, by its access codes (R12): W1C clears where 1 is written; RO, WO and SC store nothing. -/
def RegRow.merge (r : RegRow) (old v : Word) : Word :=
  r.fields.foldl (fun w f =>
    match f.acc with
    | .rw | .rwl | .rwg => putBits f.hi f.lo w (bits f.hi f.lo v)
    | .w1c => putBits f.hi f.lo w (bits f.hi f.lo (old &&& ~~~v))
    | .ro | .wo | .sc => w) old

/-- What a register reads as: WO and SC fields read zero (R12). -/
def RegRow.show (r : RegRow) (v : Word) : Word :=
  r.fields.foldl (fun w f =>
    match f.acc with
    | .wo | .sc => w
    | _ => putBits f.hi f.lo w (bits f.hi f.lo v)) 0

/-- Bits of word k of a context image that requester req can change (R256, R259, R286, R293, R330); proto: PROTO of the context. -/
def ctxMask (proto : Nat) (req : Req) (k : Nat) : Nat :=
  if k < 16 then
    match k with
    | 0 => 0xFF00F37D
    | 1 => 0xFFFF
    | 2 => 0x1FFFF
    | 3 => if req = .host then 0 else 0xFFFF
    | 5 => 0xFFFF
    | 7 => 0x3FFFFFFF
    | 9 => 0xFFFFF
    | 10 => 0xFFFF
    | 11 => 0
    | _ => 0xFFFFFFFF
  else match proto with
    | 0 | 1 =>
      match k with
      | 16 => if proto = 0 then 0x3F else 0x3B
      | 17 | 18 => 0x03FF03FF
      | 19 => 0x3FF
      | 20 | 21 | 22 => 0xFFFFFFFF
      | 23 => 0xFFFFFF
      | 41 => 0xFF
      | 44 => if proto = 1 then 0x1FFFFF else 0
      | k => if 24 ≤ k ∧ k ≤ 40 then 0xFFFFFFFF else 0
    | 2 =>
      match k with
      | 16 => 0x0FFF1FFF
      | 18 => 0xFFFFFF1F
      | 19 => 0xFFFFFF
      | 23 => 0xFFFF
      | 33 => 0x1F1F1F
      | 35 => 0xFFFF
      | k => if k ≤ 51 then 0xFFFFFFFF else 0
    | 3 =>
      match k with
      | 16 => 0x7FF
      | 17 => 0xFFFFFF
      | 18 => 0xFFFFFFFF
      | _ => 0
    | _ => if k = 16 then 3 else 0

/-- The stored value of one word of a write. -/
def Dev.merged (d : Dev) (req : Req) (h : Hit) (a : Nat) (v : Word) : Word :=
  let old := d.reg a
  if h.bank = .ctx then
    let m : Word := BitVec.ofNat 32 (ctxMask (bits 19 16 (d.reg (a - 4 * h.w))) req h.w)
    (old &&& ~~~m) ||| (v &&& m)
  else h.row.merge old v

/-! ## Ranges and reserved encodings (R461 and the register tables) -/

/-- Fields of a register with the values they accept: [hi:lo], least and greatest; signed where the least is negative. -/
def rangesOf (b : BankId) (off : Nat) : List (Nat × Nat × Int × Int) :=
  match b, off with
  | .gbl, 0x418 => [(21, 0, 8, 2097152)]
  | .ts, 0x108 => [(19, 0, 0, 1000000)]
  | .ts, 0x300 => [(1, 0, 0, 2)]
  | .sc, 0x08 => [(15, 0, 0, 60000)]
  | .sc, 0x38 => [(16, 0, 1, 100000)]
  | .rf, 0x14 => [(19, 0, 0, 1000000)]
  | .slot, 0x08 => [(11, 0, 0, 3600)]
  | .slot, 0x0C => [(19, 0, 1, 1000000)]
  | .slot, 0x10 => [(19, 0, 1, 1000000)]
  | .sel, 0x0C => [(15, 0, 1, 65535)]
  | .sel, 0x10 => [(23, 0, 1, 16777215)]
  | .sel, 0x18 => [(9, 0, 0, 1000)]
  | .tin, 0x00 => [(1, 0, 0, 2), (3, 2, 0, 2), (5, 4, 0, 1)]
  | .tin, 0x04 => [(9, 0, 0, 1000)]
  | .tin, 0x24 => [(19, 0, 1, 1000000)]
  | .tin, 0x28 => [(24, 0, 1, 16777216)]
  | .gn, 0x10 => [(12, 11, 0, 2), (10, 9, 0, 2)]
  | .gn, 0x1C => [(15, 12, 1, 15), (31, 16, 1, 3600)]
  | .gn, 0x34 => [(5, 0, 0, 60)]
  | .gn, 0x38 => [(15, 0, 60, 65535)]
  | .gn, 0x48 => [(15, 0, 60, 65535), (31, 16, 10, 3600)]
  | .gn, 0x300 => [(6, 0, 0, 95)]
  | .band, 0x00 => [(15, 0, -20000, 20000)]
  | .kpll, 0x04 => [(9, 0, 1, 1000), (25, 16, 1, 1000)]
  | .dpll, 0x04 => [(9, 0, 1, 1000), (25, 16, 1, 1000)]
  | .kpll, 0x08 => [(1, 0, 0, 2)]
  | .dpll, 0x08 => [(1, 0, 0, 2)]
  | .opll, 0x00 => [(1, 0, 0, 2)]
  | .tout, 0x00 => [(5, 4, 0, 2)]
  | .tout, 0x08 => [(18, 0, 1, 500000)]
  | .tout, 0x0C => [(23, 0, 1, 10000000)]
  | .tout, 0x14 => [(14, 8, -31, 31)]
  | .bn, 0x10 => [(2, 0, 0, 5)]
  | .cr, 0x18 => [(15, 8, 1, 255)]
  | .er, 0x18 => [(15, 8, 1, 255)]
  | .rx, 0x18 => [(15, 8, 1, 255)]
  | .tx, 0x18 => [(15, 8, 1, 255)]
  | .lnk, 0x30 => [(1, 0, 0, 2), (4, 2, 0, 4)]
  | .cal, 0xC0 => [(2, 0, 0, 6)]
  | _, _ => []

/-- A field value, signed where the least value of its range is negative (R2). -/
def fieldValue (hi lo : Nat) (least : Int) (w : Word) : Int :=
  if least < 0 then toSigned (hi + 1 - lo) (bits hi lo w) else bits hi lo w

def inRanges (l : List (Nat × Nat × Int × Int)) (w : Word) : Bool :=
  l.all fun (hi, lo, least, most) =>
    let v := fieldValue hi lo least w
    decide (least ≤ v ∧ v ≤ most)

/-! ## Conditions of the chapters -/

/-- What becomes of a committed write. -/
inductive Verdict where
  | store
  /-- Discarded without a flag. -/
  | drop
  /-- Discarded with WRITE_ERR. -/
  | writeErr
  /-- Discarded with LIMIT_ERR (R61). -/
  | limitErr
  /-- Discarded with OWNER_ERR (R109). -/
  | ownerErr
deriving DecidableEq, Repr

def Verdict.need (b : Bool) : Verdict := if b then .store else .writeErr

/-- A scale's registers: the owner (R109), the range of INCR (R110). -/
def Dev.scVerdict (d d' : Dev) (req : Req) (k off : Nat) : Verdict :=
  let owned := off == 0x14 || off == 0x1C || off == 0x34 || off == 0x38
  if owned ∧ req = .host ∧ !d.flag (F.SC_CTRL_DISCIPLINE k) then .ownerErr
  else if off = 0x14 then
    let dev := (d'.get64 (A.INCR k) : Int) - nominalIncr
    Verdict.need (decide (dev.natAbs * 1000 ≤ nominalIncr))
  else .store

/-- A slot with nonzero rank is bound to PTP stream m (R330). -/
def Dev.strBound (d : Dev) (m : Nat) : Bool :=
  (d.slotsOf 5 m).any fun s => d.rank 0 s != 0 || d.rank 1 s != 0

/-- A timing input that a slot binds (R171). -/
def Dev.inBound (d : Dev) (n : Nat) : Bool :=
  (List.range 12).any fun s => [1, 2, 3].contains (d.get (F.SLOT_CFG_TYPE s)) && d.get (F.SLOT_CFG_BIND s) == n

/-- A timing input: fixed while armed, GATE only where no slot binds it (R171). -/
def Dev.tinVerdict (d d' : Dev) (n off : Nat) : Verdict :=
  let fixed := off == 0 || off == 4 || decide (0x20 ≤ off ∧ off ≤ 0x34)
  let gateSel := d'.get (F.MEAS_CFG_GATE_SEL n)
  if fixed ∧ d.flag (F.MEAS_STATUS_ARMED n) then .writeErr
  else if off = 0 ∧ d'.get (F.IN_CFG_ROLE n) = 1 ∧ d.inBound n then .writeErr
  else if off = 0x20 then Verdict.need (decide (gateSel ≤ 8 ∨ gateSel = 15))
  else .store

/-- PLL_TOL and PLL_SSC of a PLL bank (R200, R209); ssc: the PLL has spread spectrum. -/
def pllVerdict (d' : Dev) (bank off : Nat) (ssc : Bool) : Verdict :=
  if off = 4 then Verdict.need (bits 9 0 (d'.reg (bank + 4)) ≤ bits 25 16 (d'.reg (bank + 4)))
  else if off = 8 then
    let w := d'.reg (bank + 8)
    Verdict.need (ssc && decide (bits 8 4 w ≤ if bits 1 0 w = 2 then 10 else 20))
  else .store

/-- Every output sourced from OPLL k is STOPPED (R214). -/
def Dev.opllFree (d : Dev) (k : Nat) : Bool :=
  (List.range 4).all fun n => d.get (F.OUT_CFG_SRC n) != k || d.get (F.OUT_CTRL_STATE n) == stStopped

/-- A timing output (R218, R221). -/
def Dev.outVerdict (d d' : Dev) (n off : Nat) : Verdict :=
  let stopped := d.get (F.OUT_CTRL_STATE n) == stStopped
  if off = 0 then
    Verdict.need (stopped || (d.get (F.OUT_CFG_SRC n) == d'.get (F.OUT_CFG_SRC n) && d.get (F.OUT_CFG_STD n) == d'.get (F.OUT_CFG_STD n)))
  else if off = 0x10 then Verdict.need stopped
  else if off = 0x14 then
    let c := d'.get (F.OUT_IRIG_CODE n)
    Verdict.need (!d'.flag (F.OUT_IRIG_EXT n) || c == 4 || c == 5)
  else .store

/-- The operand window: a slot in use is refused; the part beyond the last whole slot, and the whole window while it is wiped, discard (R363, R364, R372). -/
def Dev.windowVerdict (d : Dev) (w : Nat) : Verdict :=
  let s := 32 * w / d.slotLen
  if d.get F.BN_CTRL_STATE = stStopping ∨ d.flag F.BN_OP_WIPING then .drop
  else Verdict.need (!d.slotNamed s)

/-- Events of the keeper's table (R430); its other numbers are reserved. -/
def keeperEvent (ev : Nat) : Bool := decide (ev ≤ 0x0E ∨ (0x10 ≤ ev ∧ ev ≤ 0x1C) ∨ (0xF0 ≤ ev ∧ ev ≤ 0xFE))

/-- A programmable counter (R431); cfg: offset of its CNT_CFG. A reserved event of the keeper is discarded (R461); on an answer die one counts nothing, as its table says. -/
def Dev.cntVerdict (d d' : Dev) (cfg off : Nat) (keeper : Bool) : Verdict :=
  let w := d.reg cfg
  let w' := d'.reg cfg
  let on := bit w.toNat 12
  if off = 0x100 then
    let changed := bits 9 0 w != bits 9 0 w'
    Verdict.need (!(on && changed) && (bits 9 8 w' == 0 || decide (0xF0 ≤ bits 7 0 w')) && (!keeper || keeperEvent (bits 7 0 w')))
  else if off = 0x10C then Verdict.need (!on)
  else .store

/-- A parse node: result kind 3 is reserved (R253). -/
def nodeVerdict (d' : Dev) (n l j : Nat) : Verdict :=
  Verdict.need (d'.get (F.NODE_1_DEF_KIND n l j) != 3 &&
    (List.range 4).all fun k => !d'.flag (F.NODE_R_MVALID n l j k) || bits 9 8 (d'.reg (A.NODE_R n l j k)) != 3)

/-- Number of links of a mask. -/
def linkCount (m : Nat) : Nat := ((List.range 4).filter (bit m)).length

/-- The profile table of R322 on a context image. -/
def profileOk (m : Img) : Bool :=
  let tr := Img.f m 0x40 4 3
  let dreq := Img.b m 0x40 5
  let pdreq := Img.b m 0x40 6
  let dom := Img.f m 0x40 23 16
  let sync := toSigned 8 (Img.f m 0x44 7 0)
  let ann := toSigned 8 (Img.f m 0x44 15 8)
  let resp := toSigned 8 (Img.f m 0x44 23 16)
  let pd := toSigned 8 (Img.f m 0x4C 23 16)
  let mac := Img.bytes m 0x58 6
  let within (v lo hi : Int) : Bool := decide (lo ≤ v ∧ v ≤ hi)
  match Img.f m 0x40 12 10 with
  | 0 => dreq && decide (dom ≤ 127) && within sync (-7) 4 && within ann (-3) 4 && within resp (-7) 5
  | 1 => tr == 0 && pdreq && !dreq && decide (dom ≤ 127) && sync == 0 && ann == 0 && pd == 0
  | 2 => tr == 0 && pdreq && !dreq && sync == 0 && ann == 0 && pd == 0 && Img.f m 0x8C 15 8 != 0
  | 3 => tr == 0 && dreq && !pdreq && decide (24 ≤ dom ∧ dom ≤ 43) && sync == -4 && ann == -3 && resp == -4 &&
      (mac == [0x01, 0x1B, 0x19, 0, 0, 0] || mac == [0x01, 0x80, 0xC2, 0, 0, 0x0E])
  | 4 => (tr == 1 || tr == 2) && Img.b m 0x40 7 && !Img.b m 0x40 8 && dreq && !pdreq && decide (44 ≤ dom ∧ dom ≤ 63)
  | _ => false

/-- A master instance stands on one link only (R307). -/
def oneLink (m : Img) : Bool :=
  !(Img.b m 0 0 && (Img.b m 0x40 7 || Img.b m 0x40 8)) || decide (linkCount (Img.f m 0 15 12) ≤ 1)

/-- STRATUM of a MAP entry (R286, R293). -/
def stratumOk (e : Nat) : Bool := decide (1 ≤ e % 256 ∧ e % 256 ≤ 16)

/-- A committed line of a context (R256, R257, R293, R307, R322, R330, R461); line: its number, m: the image it gives, old: the image before, host: the host writes it. -/
def ctxOk (host : Bool) (old m : Img) (line : Nat) : Bool :=
  let p := Img.proto m
  let generic :=
    match line with
    | 0 =>
      let least := if Img.engine m then 640 else if Img.b m 0 2 then 384 else 36
      Img.scale m != 3 && decide (least ≤ Img.tTurn m) && decide (1 ≤ Img.f m 8 16 0 ∧ Img.f m 8 16 0 ≤ 86400) &&
        (p != 2 || oneLink m)
    | 1 => Img.f m 0x14 15 0 != 0 && Img.f m 0x18 31 0 != 0 && Img.f m 0x1C 15 0 != 0 &&
        decide (1 ≤ Img.f m 0x1C 23 16 ∧ Img.f m 0x1C 23 16 ≤ 128) && decide (1 ≤ Img.f m 0x1C 29 24 ∧ Img.f m 0x1C 29 24 ≤ 32)
    | 2 => Img.f m 0x28 7 0 != 0
    | _ => true
  let ntp :=
    match line with
    | 4 => decide (Img.f m 0x40 1 0 ≤ 1) &&
        [Img.f m 0x44 15 0, Img.f m 0x44 31 16, Img.f m 0x48 15 0, Img.f m 0x48 31 16, Img.f m 0x4C 15 0].all stratumOk
    | 5 => decide (toSigned 8 (Img.f m 0x5C 7 0) ≤ toSigned 8 (Img.f m 0x5C 15 8))
    | 10 => (List.range 4).all fun k => decide (Img.f m 0xA0 (8 * k + 7) (8 * k) ≤ if Img.b m 0xA4 (4 + k) then 128 else 32)
    | 11 => p != 1 || (decide (232 ≤ Img.f m 0xB0 15 0 ∧ Img.f m 0xB0 15 0 ≤ 1472) && decide (1 ≤ Img.f m 0xB0 19 16 ∧ Img.f m 0xB0 19 16 ≤ 8))
    | _ => true
  let ptp :=
    let st := Img.f m 0x48 3 0
    match line with
    | 4 => decide (Img.f m 0x40 1 0 ≤ 1) && Img.f m 0x40 4 3 != 3 && oneLink m && profileOk m && (st == 3 || st == 4 || st == 6 || st == 7) &&
        !(host && Img.b old 0x48 4 && Img.f old 0x48 3 0 != st)
    | 5 | 8 => profileOk m && decide (Img.f m 0x8C 7 0 ≤ 64)
    | _ => true
  let general :=
    match line with
    | 4 => decide (Img.f m 0x40 10 9 ≤ 1) && decide (1 ≤ Img.f m 0x48 31 0 ∧ Img.f m 0x48 31 0 ≤ 86400)
    | _ => true
  generic && (match p with | 0 | 1 => ntp | 2 => ptp | 3 => general | _ => true)

/-- The profile of the instance of a PROTO 3 context is G.8275.2 (R330). -/
def Dev.pairTelecom (d : Dev) (n : Nat) (m : Img) : Bool :=
  Img.proto m == 3 && Img.f (d.img n (Img.f m 0x40 7 0)) 0x40 12 10 == 4

/-- The ranges of a PROTO 3 line under G.8275.2: the duration of R330 and the grant intervals of R322. -/
def telecomOk (m : Img) : Bool :=
  let dur := Img.f m 0x48 31 0
  let least (h l : Nat) (lo : Int) : Bool := let v := toSigned 8 (Img.f m 0x44 h l); decide (lo ≤ v ∧ v ≤ 0)
  decide (60 ≤ dur ∧ dur ≤ 1000) && least 7 0 (-7) && least 15 8 (-3) && least 23 16 (-7)

def Dev.ctxVerdict (d d' : Dev) (req : Req) (n c line : Nat) : Verdict :=
  let m := d'.img n c
  Verdict.need (ctxOk (req == .host) (d.img n c) m line && (line != 4 || !d'.pairTelecom n m || telecomOk m))

/-- Octets of the longest frame of a role, FCS included (R314). -/
def Dev.roleFrame (d : Dev) (n l : Nat) (use : Nat) : Nat :=
  let c := use / 256 % 256
  let own (m : Img) (ev : Bool) (k : Nat) : Nat := (m.ownFrame ev (zeros k)).length + 4
  let ann (m : Img) : Nat := own m false (64 + Img.f m 0x8C 7 0)
  match use % 8 with
  | 1 => own (d.img n c) true 44
  | 2 => own (d.img n c) false 44
  | 3 => ann (d.img n c)
  | 4 => own (d.img n c) true 54
  | 5 => ((List.range 256).filter fun c => d.ctxEnabled n l c && Img.proto (d.img n c) == 2 && Img.b (d.img n c) 0x40 7).foldl
      (fun a c => max a (ann (d.img n c))) 0
  | 6 => own (d.img n (d.get (F.STR_CFG_CONTEXT (c % 16)))) true 54
  | _ => 0

/-- A reserved slot is long enough for its role (R314). -/
def Dev.useOk (d' : Dev) (n l k : Nat) : Bool :=
  let u := (d'.reg (A.CAL_USE n l k)).toNat
  u % 8 == 0 || (match (d'.roleFrame n l u) with
    | 0 => true
    | f =>
      let gr := { d'.grid n l with mark := none }
      let s := d'.get (F.CAL_RSV_0_START n l k)
      decide ((gr.after s f 0).1 + 1 ≤ s + d'.get (F.CAL_RSV_1_LEN n l k)))

/-- A keeper-block register of the NTS keyring (R300). -/
def Dev.gblVerdict (d d' : Dev) (a : Nat) : Verdict :=
  if a = A.NTS_OVERLAP then
    let p := d.get F.NTS_ROT_PERIOD_S
    Verdict.need (p == 0 || decide (d'.get F.NTS_OVERLAP_S ≤ p))
  else if a = A.NTS_ROT_EPOCH_HI then Verdict.need (!d.flag F.NTS_STATUS_ROT_PENDING)
  else .store

/-- The conditions that a chapter sets on a write of one register; d' is the device with the write made. -/
def Dev.chapter (d d' : Dev) (req : Req) (h : Hit) (a : Nat) : Verdict :=
  let n := h.die.getD 0
  let off := h.row.off
  match h.bank with
  | .gbl => d.gblVerdict d' a
  | .sc => d.scVerdict d' req h.i off
  | .str => if off = 0x1C ∨ off = 0x24 then .store else Verdict.need (!d.strBound h.i)
  | .tin => d.tinVerdict d' h.i off
  | .kpll => pllVerdict d' (a - off) off (h.i == 1)
  | .dpll => pllVerdict d' (a - off) off (h.i == 0)
  | .frac => Verdict.need ((List.range 4).all fun l => d.get (F.LINK_CTRL_STATE h.i l) == stStopped)
  | .opll => if off = 0 ∧ bits 1 0 (d.reg a) ≠ bits 1 0 (d'.reg a) then Verdict.need (d.opllFree h.i) else .store
  | .tout => d.outVerdict d' h.i off
  | .bn => if off = 0x10 then Verdict.need (d.get F.BN_CTRL_STATE == stStopped)
           else if off = 0x8000 then d.windowVerdict h.w else .store
  | .gr => if off = 0 then Verdict.need (d'.get (F.GR_PCFG_OFFER h.i) != 2) else .store
  | .cr | .er | .rx | .tx =>
    if off = 4 ∨ off = 8 then Verdict.need (bits 2 1 (d.reg (a - off + 0xC)) == stStopped) else .store
  | .kcnt => d.cntVerdict d' (A.K_CNT_CFG h.w) off true
  | .dcnt => d.cntVerdict d' (A.D_CNT_CFG n h.w) off false
  | .lnk =>
    if off = 0x1C then Verdict.need (d.get (F.LINK_CTRL_STATE n h.i) == stStopped)
    else if off = 0x30 then Verdict.need (d.mode == .test) else .store
  | .node => nodeVerdict d' n h.i h.j
  | .ctx => d.ctxVerdict d' req n (h.i + 1) (h.w / 4)
  | .lv =>
    if off = 0x48 then Verdict.need (decide (d'.get (F.LOG_RD_RD n h.i) < (d.reg (A.LOG_SIZE n h.i)).toNat * 256)) else .store
  | .cal =>
    if off = 8 ∨ off = 0x44 then Verdict.need ((d'.calRegs n h.i).ok (d.linkMode n h.i))
    else if off = 0xC0 then Verdict.need (d'.useOk n h.i h.w) else .store
  | _ => .store

/-- Nanoseconds of a committed time value exceed 999,999,999 (R5); low: its lowest word. -/
def Dev.badTime (d' : Dev) (h : Hit) (low : Nat) : Bool :=
  h.row.time && decide ((d'.reg (low + 4)).toNat > 999999999)

/-- What a committed write of the words ws meets. -/
def Dev.verdict (d : Dev) (req : Req) (h : Hit) (a : Nat) (ws : List (Nat × Word)) : Verdict :=
  let d' := ws.foldl (fun d w => d.setReg w.1 w.2) d
  if d'.badTime h (h.low a) then .writeErr
  else if !inRanges (rangesOf h.bank h.row.off) (d'.reg a) then .writeErr
  else match d.chapter d' req h a with
    | .store => if d.limitOk ws then .store else .limitErr
    | v => v

/-! ## Storing -/

/-- Register that reports a discarded write (R459): the NTS and event registers have their own; bad tolerances and spread of any PLL show in CK_STATUS (R200, R209). -/
def Hit.errReg (h : Hit) (a : Nat) : Nat :=
  if h.bank = .dpll then A.CK_STATUS
  else if h.bank = .gbl ∧ 0x800 ≤ a ∧ a < 0x900 then A.NTS_STATUS
  else if h.bank = .gbl ∧ 0x1000 ≤ a ∧ a < 0x1300 then A.EV_BLK_STATUS
  else h.status

/-- Stores one word; what replies read keeps its earlier value for earlier requests (R70), a word of a die enters the shadow (R90). -/
def Dev.storeWord (d : Dev) (h : Hit) (w : Nat × Word) : Dev :=
  let d := if h.row.sched then d.keep w.1 else d
  let d := d.setReg w.1 w.2
  if h.die.isSome then d.keepShadow w.1 else d

/-- The PLL of a bank (R199): 0 to 3 of the keeper, 4 to 7 ENG, 8 to 11 SerDes. -/
def Hit.pll (h : Hit) : Nat := if h.bank = .kpll then h.i else 4 + 4 * h.i + h.die.getD 0

/-- What must happen before a word is stored: settings of a running output are staged (R218), a ramp of spread spectrum starts from where it stands (R209). -/
def Dev.before (d : Dev) (h : Hit) : Dev :=
  match h.bank with
  | .tout => if h.row.off ≠ 4 ∧ h.row.off ≠ 0x10 ∧ h.row.writable then d.outStage h.i else d
  | .kpll | .dpll => if h.row.off = 8 then d.spreadRebase h.pll else d
  | _ => d

/-- A committed FREQ_ADJ beyond 200 ppm is clamped (R110). -/
def Dev.clampFreq (d : Dev) (k : Nat) : Dev :=
  let f := toSigned 64 (d.get64 (A.FREQ_ADJ k))
  let most : Int := 13107200000000
  let c := if f > most then most else if f < -most then -most else f
  if c = f then d else (d.set64 (A.FREQ_ADJ k) (ofSigned 64 c)).setFlag (F.SC_STATUS_CLAMPED k) true

/-- A write of GN_CTRL: channels of a signal no longer enabled stop (R172), a unit asleep wakes where no duty cycle is called for any more (R193). -/
def Dev.gnCtrlAfter (d : Dev) : Dev :=
  let d := d.dropDisabled
  if d.dutyRuns then d else d.gnAwake

/-- A context's BURST has been written (R261); while its die is in fallback it takes effect at the return epoch (R419). -/
def Dev.newBurst (old d : Dev) (n c : Nat) : Dev :=
  if d.onFallback n c then d else d.capBuckets n c (old.burstOf n c) (d.burstOf n c)

/-- What follows from a stored register at once; old: the device before the store. -/
def Dev.after (old d : Dev) (h : Hit) : Dev :=
  let n := h.die.getD 0
  match h.bank with
  | .sc => if h.row.off = 0x1C then d.clampFreq h.i else d
  | .band => if h.row.off = 0x0C then d.showJam h.i else d
  | .kpll | .dpll =>
    if h.row.off = 8 then d.spreadShow h.pll else d
  | .gn => if h.row.off = 0x10 then d.gnCtrlAfter else d
  | .frac => d.fracTarget h.i
  | .opll => if h.row.off = 0 then d.showOpll h.i else d
  | .bn => if h.row.off = 0x10 then d.set F.BN_SLOTS_COUNT (slotCount (d.get F.BN_CFG_SLOT_LEN)) else d
  | .gr => if h.row.off = 0 ∧ !d.flag (F.GR_PCFG_ENABLE h.i) then d.portChange h.i false else d
  | .lnk =>
    if h.row.off = 0x30 ∧ d.flag (F.LINK_TEST_CHECK n h.i) then
      (List.range 4).foldl (fun d w => d.setReg (A.PRBS_ERR n h.i w) 0) d
    else d
  | .ctx => if h.w / 4 = 1 then Dev.newBurst old d n (h.i + 1) else d
  | .cal => if h.row.writable then d.setLnk n h.i { d.lnk n h.i with calNew := true } else d
  | _ => d

/-- Stores the words of one register or group, with what comes before and after. -/
def Dev.store (d : Dev) (h : Hit) (ws : List (Nat × Word)) : Dev :=
  Dev.after d (ws.foldl (fun d w => d.storeWord h w) (d.before h)) h

/-- Commits the words of one register or group: the device, and whether they were stored. -/
def Dev.commit (d : Dev) (req : Req) (h : Hit) (a : Nat) (ws : List (Nat × Word)) : Dev × Bool :=
  match d.verdict req h a ws with
  | .store => (d.store h ws, true)
  | .drop => (d, false)
  | .writeErr => (d.stick (h.errReg a) 0, false)
  | .limitErr => (d.stick h.status 2, false)
  | .ownerErr => (d.stick A.TS_STATUS 3, false)

/-- The words a write of v to the highest word of a group commits, and the staging emptied (R16). DESIGN CHOICE: a commit that is then discarded (WRITE_ERR, LIMIT_ERR, OWNER_ERR) empties the requester's staging of the group too; the spec does not say. -/
def Dev.gather (d : Dev) (req : Req) (h : Hit) (a : Nat) (v : Word) : List (Nat × Word) × Dev :=
  let low := h.low a
  let word (k : Nat) : Nat × Word :=
    let b := low + 4 * k
    let x := if b = a then v else ((d.bus.staged.find? fun s => s.1 == (req, b)).map (·.2)).getD (d.reg b)
    match lookup b with
    | some hb => (b, d.merged req hb b x)
    | none => (b, x)
  ((List.range h.row.gwords).map word,
    { d with bus.staged := d.bus.staged.filter fun s => !(s.1.1 == req && decide (low ≤ s.1.2 ∧ s.1.2 < low + 4 * h.row.gwords)) })

/-- Holds a lower word in the requester's staging (R16, R17). -/
def Dev.stage (d : Dev) (req : Req) (a : Nat) (v : Word) : Dev :=
  { d with bus.staged := ((req, a), v) :: d.bus.staged.filter fun s => s.1 != (req, a) }

/-- A write to a register: staged, or committed; true once stored. -/
def Dev.put (d : Dev) (req : Req) (h : Hit) (a : Nat) (v : Word) : Dev × Bool :=
  if !h.row.writable then (d, false)
  else if h.row.gwords = 1 then d.commit req h a [(a, d.merged req h a v)]
  else if !h.commits then (d.stage req a v, false)
  else
    let (ws, d) := d.gather req h a v
    d.commit req h a ws

/-! ## Guards (R18 to R20) -/

/-- The GUARD register of the block of an offset. -/
def guardOf (a : Nat) : Option Nat :=
  if a < 0x10000 then some A.GUARD
  else if a < 0x20000 then some A.TS_GUARD
  else if 0x50000 ≤ a ∧ a < 0x60000 then some A.CK_GUARD
  else none

/-- Status register of a block with a GUARD. -/
def guardStatus (g : Nat) : Nat := if g = A.GUARD then A.GBL_STATUS else if g = A.TS_GUARD then A.TS_STATUS else A.CK_STATUS

/-- An RWG register of a GUARD's block by the low 16 bits of its offset. -/
def guardTarget (g low : Nat) : Bool :=
  match lookup (g / 0x10000 * 0x10000 + low) with
  | some h => h.guarded
  | none => false

/-- The arming that requester req holds in a block. -/
def Dev.armOf (d : Dev) (req : Req) (g : Nat) : Option Arm := (d.bus.arms.find? fun x => x.1 == g && x.2.req == req).map (·.2)

def Dev.disarmOf (d : Dev) (req : Req) (g : Nat) : Dev :=
  { d with bus.arms := d.bus.arms.filter fun x => !(x.1 == g && x.2.req == req) }

/-- A write to a GUARD register arms, arms anew or clears the arming (R18). -/
def Dev.guardWrite (d : Dev) (req : Req) (g : Nat) (v : Word) : Dev :=
  let d := d.disarmOf req g
  if bits 31 16 v = 0x5A5A ∧ guardTarget g (bits 15 0 v) then
    { d with bus.arms := (g, { req := req, target := bits 15 0 v, since := d.raw }) :: d.bus.arms }
  else d

/-- A write to a register that is not guarded: an arming its requester holds in the block is cleared, with GUARD_FAIL (R19). -/
def Dev.guardTouch (d : Dev) (req : Req) (a : Nat) : Dev :=
  match guardOf a with
  | none => d
  | some g => if (d.armOf req g).isSome then (d.disarmOf req g).stick (guardStatus g) 1 else d

/-- A write to a guarded register: true when it may take effect (R18); otherwise GUARD_FAIL (R19). Armings of this register by the other requester are cleared. -/
def Dev.guardPass (d : Dev) (req : Req) (a : Nat) : Dev × Bool :=
  match guardOf a with
  | none => (d, true)
  | some g =>
    let ok := (d.armOf req g).any fun x => x.target == a % 0x10000 && decide (d.raw < x.since + 8000)
    let d := d.disarmOf req g
    let d := { d with bus.arms := d.bus.arms.filter fun x => !(x.1 == g && x.2.target == a % 0x10000) }
    (if ok then d else d.stick (guardStatus g) 1, ok)

end Sys2Proof.Machine
end

