-- ==== Sys2Proof/Machine/Position.lean ====
section
/-! DEFINITION. The Position bitstream and its checks (R51 to R59), epoch-scheduled patches and register batches (R66 to R74, R462). -/

namespace Sys2Proof.Machine

/-! ## Header and section table (R51 to R54) -/

/-- One entry of the section table (R53). -/
structure SecEntry where
  ty : Nat
  flags : Nat
  ofs : Nat
  len : Nat
  crc : Nat
deriving DecidableEq, Repr

def posKind (p : List Byte) : Nat := leAt p 6 1
def posLen (p : List Byte) : Nat := leAt p 8 4
def posId (p : List Byte) : Nat := leAt p 0x0C 4
def posGen (p : List Byte) : Nat := leAt p 0x10 4

def posTable (p : List Byte) : List SecEntry :=
  (List.range (leAt p 7 1)).map fun i =>
    let o := 0xC0 + 16 * i
    { ty := leAt p o 2, flags := leAt p (o + 2) 2, ofs := leAt p (o + 4) 4, len := leAt p (o + 8) 4, crc := leAt p (o + 12) 4 }

def SecEntry.body (e : SecEntry) (p : List Byte) : List Byte := slice p e.ofs e.len

/-- Body of a section by type. -/
def posSection (p : List Byte) (ty : Nat) : Option (List Byte) := ((posTable p).find? (·.ty == ty)).map (·.body p)

/-- MAGIC, KIND, FORMAT and TOTAL_LEN (R59 check 1); format 3 is the one this manual describes. -/
def posHeadOk (p : List Byte) (kind : Nat) : Bool :=
  p.take 4 == [0x55, 0x54, 0x50, 0x53] && posKind p == kind && leAt p 4 2 == 3 &&
    decide (posLen p ≤ 2097152 ∧ posLen p ≤ p.length)

/-- No two entries name one type or overlap. -/
def secsApart : List SecEntry → Bool
  | [] => true
  | e :: r => r.all (fun x => x.ty != e.ty && apart e.ofs e.len x.ofs x.len) && secsApart r

/-- The section table and every section's CRC (R53). -/
def posTableOk (p : List Byte) : Bool :=
  let t := posTable p
  decide (1 ≤ t.length ∧ t.length ≤ 16) && secsApart t &&
    t.all fun e => e.flags == 0 && e.ofs % 16 == 0 && decide (0xC0 + 16 * t.length ≤ e.ofs ∧ e.ofs + e.len + 96 ≤ posLen p) &&
      e.crc == crc32c (e.body p)

/-- Required sections (R55); FALLBACK and MICROCODE are required with an engine-path context. -/
def posComplete (p : List Byte) : Bool :=
  let has (ty : Nat) : Bool := (posSection p ty).isSome
  let regs := (posSection p 4).elim [] (Config.sectionRegs 4)
  let engine := regs.any fun (a, w) =>
    (match lookup a with | some h => h.bank == .ctx && h.w == 0 | none => false) && bit w.toNat 1
  [1, 2, 3, 4, 6, 7, 8, 10].all has && (!engine || (has 5 && has 12))

/-- Registers that the sections of a Position or patch give (R60). -/
def posRegs (p : List Byte) : List (Nat × Word) :=
  ((posTable p).map fun e => if e.ty = 5 ∨ e.ty = 10 ∨ e.ty = 11 then [] else Config.sectionRegs e.ty (e.body p)).flatten

/-- The line 0 words of the contexts of die n that a list of registers gives. -/
def ctxWords (regs : List (Nat × Word)) (n : Nat) : List Nat :=
  regs.filterMap fun (a, w) => match lookup a with
    | some h => if h.bank == .ctx && h.w == 0 && h.die == some n then some w.toNat else none
    | none => none

/-- E_MIN of a present die lies between 0 and the number of engines in its mask, and is at least 1 with an engine-path context (R57). -/
def minEngines (p : List Byte) (n : Nat) : Bool :=
  let regs := posRegs p
  let info := ((regs.find? (·.1 == A.DIE_INFO n)).map (·.2)).getD 0
  let least := bits 6 4 info
  !bit (Config.diesPresent ((posSection p 1).getD [])) n ||
    (decide (least ≤ popCount 4 (bits 3 0 info)) && (decide (1 ≤ least) || (ctxWords regs n).all fun w => !bit w 1))

/-- Every section lies within the structural limits of its chapter; E_MIN of R57; PRIV bits [31:9] are zero (R58). -/
def posStructure (p : List Byte) : Bool :=
  (posTable p).all (fun e => Config.sectionOk e.ty (e.body p)) && (List.range 4).all (minEngines p) &&
    decide (leNat ((posSection p 10).getD []) < 512)

/-- The signer's key is the root of trust and its signature holds (R54). -/
def Dev.posSigned (d : Dev) (p : List Byte) : Bool :=
  let n := posLen p
  let key := slice p 0x50 96
  sha384 key == d.rootHash && p384.verifyBytes key (slice p (n - 96) 96) (sha384 (p.take (n - 96)))

/-- FALLBACK entries: 8 bytes each (R418): die, context, BURST, RATE. -/
def fallbackOf (b : List Byte) : List (Nat × Nat × Nat × Nat) :=
  (List.range (b.length / 8)).map fun i =>
    (leAt b (8 * i) 1, leAt b (8 * i + 1) 1, leAt b (8 * i + 2) 2, leAt b (8 * i + 4) 4)

/-- What a checked full Position puts in force (R60). -/
def posOf (p : List Byte) : Pos :=
  { priv := leNat ((posSection p 10).getD [])
    lib := leAt p 0x14 4
    hostKib := Config.hostKib p
    present := Config.diesPresent ((posSection p 1).getD []) % 16
    init := posRegs p
    fallback := fallbackOf ((posSection p 5).getD [])
    limits := (posSection p 11).elim [] Config.sectionLimits
    digest := sha384 (p.take (posLen p)) }

/-! ## Submissions (R66 to R69, R72, R74, R462) -/

def euStateF (kind : Nat) : Fld := if kind = 0 then F.EU_STATUS_PATCH_STATE else F.EU_STATUS_BATCH_STATE

/-- A SUBMIT or CANCEL has finished with a code. -/
def Dev.euDone (d : Dev) (code : Nat) : Dev :=
  ((d.set F.EU_STATUS_LAST_CODE code).setFlag F.EU_STATUS_DONE true).raise 1 A.EU_STATUS

def Dev.euKind (d : Dev) : Nat := d.get F.EU_CTRL_KIND

/-- Epoch of what is pending of a kind. -/
def Eu.epoch (e : Eu) (kind : Nat) : Option Nat := if kind = 0 then e.patch.map (·.epoch) else e.batch.map (·.1)

def Eu.req (e : Eu) (kind : Nat) : Option EuReq := if kind = 0 then e.patchReq else e.batchReq
def Eu.setReq (e : Eu) (kind : Nat) (r : Option EuReq) : Eu := if kind = 0 then { e with patchReq := r } else { e with batchReq := r }

/-- EU_CTRL.SUBMIT (R68): BUSY, then the epoch bounds; otherwise the check begins. -/
def Dev.euSubmit (d : Dev) : Dev :=
  let k := d.euKind
  let e := d.get64 A.EU_EPOCH
  if (d.eu.epoch k).isSome ∨ (d.eu.req k).isSome then d.euDone 4
  else if tooSoon d.raw e then d.euDone 2
  else if tooFar d.raw e then d.euDone 3
  else
    let r : EuReq := { addr := d.get64 A.EU_ADDR / 64 * 64, len := d.get F.EU_LEN_LEN, epoch := e }
    ({ d with eu := d.eu.setReq k (some r) } : Dev).set (euStateF k) 1

/-- EU_CTRL.CANCEL (R72). -/
def Dev.euCancel (d : Dev) : Dev :=
  let k := d.euKind
  match d.eu.epoch k with
  | none => d.euDone 13
  | some e =>
    if tooSoon d.raw e then d.euDone 11
    else
      let eu := if k = 0 then { d.eu with patch := none } else { d.eu with batch := none }
      (({ d with eu := eu } : Dev).set (euStateF k) 0).euDone 1

/-- Limits in force at a raw count: those of a patch pending by then, if it brings any (R69). -/
def Dev.limitsAt (d : Dev) (e : Nat) : List Limit :=
  match d.eu.patch with
  | some p => if p.epoch ≤ e then p.limits.getD d.pos.limits else d.pos.limits
  | none => d.pos.limits

def batchEntries (b : List Byte) : List (Nat × Word) :=
  (List.range (b.length / 8)).map fun i => (leAt b (8 * i) 4, BitVec.ofNat 32 (leAt b (8 * i + 4) 4))

/-- Entry i breaks a limit; a value that spans a group is taken with the words that follow (R61, R67). -/
def Dev.entryLimit (d : Dev) (lims : List Limit) (es : List (Nat × Word)) (i : Nat) : Bool :=
  match es[i]? with
  | none => false
  | some e =>
    let xs := lims.filter (·.addr == e.1)
    let words := ((lookup e.1).map fun h => h.row.gwords - h.pos).getD 1
    let d' := (es.take (i + words)).foldl (fun d w =>
      match lookup w.1 with
      | some h => d.setReg w.1 (d.merged .host h w.1 w.2)
      | none => d) d
    !xs.all d'.within

/-- Entry i names a register that is not epoch-schedulable, or its group is incomplete or out of order (R67). -/
def entryUnfit (es : List (Nat × Word)) (i : Nat) : Bool :=
  match es[i]? with
  | none => false
  | some e =>
    match lookup e.1 with
    | none => true
    | some h =>
      let before := h.pos == 0 || (decide (1 ≤ i) && ((es[i - 1]?).map (·.1)) == some (e.1 - 4))
      let next := h.commits || ((es[i + 1]?).map (·.1)) == some (e.1 + 4)
      !(h.row.sched && h.row.writable && e.1 % 4 == 0 && before && next)

/-- First index below n that satisfies f. -/
def firstIndex (n : Nat) (f : Nat → Bool) : Option Nat := (List.range n).find? f

/-- Result of the check of a batch (R67, R74), in ascending order of code (R462): code and BAD_ENTRY. -/
def Dev.batchCode (d : Dev) (r : EuReq) (b : List Byte) : Nat × Nat :=
  let es := batchEntries b
  match firstIndex es.length (d.entryLimit (d.limitsAt r.epoch) es) with
  | some i => (8, i)
  | none =>
    match firstIndex es.length (entryUnfit es) with
    | some i => (9, i)
    | none => if r.len % 8 ≠ 0 ∨ r.len < 8 ∨ 8192 < r.len then (12, 0) else (0, 0)

/-- Section types that a patch may carry (R55, R66). -/
def patchable (ty : Nat) : Bool := [3, 4, 5, 6, 7, 9, 11, 12].contains ty

/-- A REFGRAPH body keeps every slot's type and source binding as they are in force (R55, R66). -/
def Dev.sameBindings (d : Dev) (body : List Byte) : Bool :=
  let regs := Config.sectionRegs 6 body
  (List.range 12).all fun s => (regs.filter (·.1 == A.SLOT_CFG s)).all fun x =>
    [F.SLOT_CFG_TYPE s, F.SLOT_CFG_BIND s].all fun f => bits f.hi f.lo x.2 == d.get f

/-- The pending batch would break the limits of a patch that applies no later than it (R69). -/
def Dev.patchConflict (d : Dev) (epoch : Nat) (lims : Option (List Limit)) : Bool :=
  match d.eu.batch, lims with
  | some (e, es), some l => decide (epoch ≤ e) && (firstIndex es.length (d.entryLimit l es)).isSome
  | _, _ => false

/-- Result of the check of a patch (R66, R74). -/
def Dev.patchCode (d : Dev) (r : EuReq) (p : List Byte) : Nat :=
  let t := posTable p
  let lims := (posSection p 11).map Config.sectionLimits
  if !d.posSigned p then 5
  else if slice p 0x20 48 ≠ d.pos.digest then 6
  else if !(t.all fun e => patchable e.ty) || !((posSection p 6).all d.sameBindings) then 7
  else if d.patchConflict r.epoch lims then 10
  else if !(posHeadOk p 1 && posLen p == r.len && posTableOk p) then 12
  else 0

/-- The fetch and check of a submission of a kind end (R67, R74): it is pending, or refused. -/
def Dev.euChecked (host : Mem) (d : Dev) (kind : Nat) : Dev :=
  match d.eu.req kind with
  | none => d
  | some r =>
    let b := if d.dmaOk then host.read r.addr r.len else zeros r.len
    let d := { d with eu := d.eu.setReq kind none }
    if kind = 0 then
      match d.patchCode r b with
      | 0 =>
        let p : Patch := { epoch := r.epoch, id := posId b, regs := posRegs b, fallback := (posSection b 5).map fallbackOf
                           limits := (posSection b 11).map Config.sectionLimits }
        (({ d with eu := { d.eu with patch := some p } } : Dev).set F.EU_STATUS_PATCH_STATE 2).euDone 0
      | c => (d.set F.EU_STATUS_PATCH_STATE 0).euDone c
    else
      match d.batchCode r b with
      | (0, _) =>
        (({ d with eu := { d.eu with batch := some (r.epoch, batchEntries b) } } : Dev).set F.EU_STATUS_BATCH_STATE 2).euDone 0
      | (c, i) => ((d.set F.EU_STATUS_BATCH_STATE 0).set F.EU_STATUS_BAD_ENTRY i).euDone c

/-! ## Taking effect (R37, R69 to R71) -/

/-- Registers of a patch take their new values from its epoch on (R70); a die keeps them over its restarts (R73). -/
def Dev.loadPatch (d : Dev) (since : Nat) (regs : List (Nat × Word)) : Dev :=
  let d := regs.foldl (fun d w =>
    match lookup w.1 with
    | none => d
    | some h =>
      if h.die.all d.diePowered then Dev.after d ((d.keepFrom since w.1).setReg w.1 w.2) h else d) d
  { d with bus.shadow := d.bus.shadow.filter fun x => !(regs.any fun w => w.1 == x.1)
           pos.init := regs ++ d.pos.init.filter fun x => !(regs.any fun w => w.1 == x.1) }

/-- A FALLBACK table takes effect at a patch's epoch, during fallback too (R70, R419). -/
def Dev.patchFallback (d : Dev) (since : Nat) (t : List (Nat × Nat × Nat × Nat)) : Dev :=
  let was := d.pos.fallback
  let d := { d with pos := { d.pos with fallback := t, fallbackWas := (since, was) :: d.pos.fallbackWas.take 3 } }
  t.foldl (fun d e =>
    if !d.onFallback e.1 e.2.1 then d
    else d.capBuckets e.1 e.2.1 (((was.find? fun x => x.1 == e.1 && x.2.1 == e.2.1).map (·.2.2.1)).getD (d.burstOf e.1 e.2.1)) e.2.2.1) d

/-- The pending patch applies. -/
def Dev.applyPatch (d : Dev) : Dev :=
  match d.eu.patch with
  | none => d
  | some p =>
    let d := d.loadPatch p.epoch p.regs
    let d := p.fallback.elim d (d.patchFallback p.epoch)
    let d := { d with eu := { d.eu with patch := none }, pos := { d.pos with limits := p.limits.getD d.pos.limits } }
    ((d.set F.POS_ID_ID p.id).countSat F.POS_INFO_PATCH_SEQ).set F.EU_STATUS_PATCH_STATE 3

/-- Words of a list of entries, group by group, each committed at its highest word. -/
def Dev.commitBatch (d : Dev) (req : Req) (es : List (Nat × Word)) : Dev :=
  es.foldl (fun d w =>
    match lookup w.1 with
    | none => d
    | some h => if h.die.all d.diePowered then (d.put req h w.1 w.2).1 else d) d

/-- The staging of a requester, set aside while a batch of its kind applies. -/
def Dev.withStaging (d : Dev) (f : Dev → Dev) : Dev :=
  let kept := d.bus.staged
  let d := f { d with bus.staged := [] }
  { d with bus.staged := kept }

/-- What f has changed counts from a raw tick on for the requests that arrive (R70). -/
def Dev.changedFrom (d : Dev) (since : Nat) (f : Dev → Dev) : Dev :=
  let old := d.hist.filter fun h => d.raw < h.1 + 2 ^ 20
  let d := f { d with hist := old }
  { d with hist := (d.hist.take (d.hist.length - old.length)).map (fun h => (since, h.2)) ++ old }

/-- The pending batch applies. -/
def Dev.applyBatch (d : Dev) : Dev :=
  match d.eu.batch with
  | none => d
  | some (e, es) =>
    ((({ d with eu := { d.eu with batch := none } } : Dev).withStaging (·.changedFrom e (·.commitBatch .host es))).set
      F.EU_STATUS_BATCH_STATE 3)

/-- Firmware batches whose epoch is reached apply (R321). -/
def Dev.applyFirmware (d : Dev) : Dev :=
  let due := d.batches.filter fun b => decide (b.1 ≤ d.raw)
  let d := { d with batches := d.batches.filter fun b => decide (d.raw < b.1) }
  due.foldl (fun d b => b.2.foldl (fun d w => (d.keepFrom b.1 w.1).setReg w.1 w.2) d) d

/-- EPOCH_UPDATE_APPLY: what is pending and has reached its epoch applies, in order of epochs, the patch first at one epoch. -/
def Dev.euApply (d : Dev) : Dev :=
  let p := (d.eu.epoch 0).any (· ≤ d.raw)
  let b := (d.eu.epoch 1).any (· ≤ d.raw)
  let batchFirst := decide ((d.eu.epoch 1).getD 0 < (d.eu.epoch 0).getD 0)
  let d := d.applyFirmware
  if p ∧ b then (if batchFirst then d.applyBatch.applyPatch else d.applyPatch.applyBatch)
  else if p then d.applyPatch
  else if b then d.applyBatch
  else d

/-- EU_SUBMIT (R68). -/
def execEuSubmit (s : State) : Answer := s.run Dev.euSubmit

/-- EU_CHECK_COMPLETE (R74); kind: 0 patch, 1 register batch. -/
def execEuCheckComplete (kind : Fin 2) (s : State) : Answer := s.runM fun h _ d => Dev.euChecked h d kind

/-- EU_CANCEL (R72). -/
def execEuCancel (s : State) : Answer := s.run Dev.euCancel

/-- EPOCH_UPDATE_APPLY (R70). -/
def execEpochUpdateApply (s : State) : Answer := s.run Dev.euApply

end Sys2Proof.Machine
end

