-- ==== Sys2Proof/Machine/Modes.lean ====
section
/-! DEFINITION. Operating modes and their transitions: requests, the SERVE epoch, STANDBY and its restart (R75 to R81, R90 to R95). -/

namespace Sys2Proof.Machine

/-- What MODE_CTRL and MODE_EPOCH hold. -/
def Dev.modeReq (d : Dev) : ModeReq :=
  { mode := d.get F.MODE_CTRL_REQ_MODE, standbyTb := d.flag F.MODE_CTRL_STANDBY_TB
    useEpoch := d.flag F.MODE_CTRL_USE_EPOCH, epoch := d.get64 A.MODE_EPOCH }

/-- A mode transition starts: the mode it reaches, PROGRESS. -/
def Dev.modeBegin (d : Dev) (r : ModeRun) (progress : Nat) : Dev :=
  ((({ d with md.run := some r } : Dev).set F.MODE_STATUS_TARGET r.target).set F.MODE_STATUS_PROGRESS progress).set F.MODE_STATUS_LAST_CODE 0

def Dev.modeCode (d : Dev) (c : Nat) : Dev := d.set F.MODE_STATUS_LAST_CODE c

/-- The mode in which the device answers: TRIAL while an image or Position is on trial (R76, R89). -/
def Dev.serveCode (d : Dev) : Nat := if d.flag F.MODE_STATUS_ON_TRIAL then Mode.trial.code else Mode.serve.code

/-- A die that takes part in SERVE: present and enabled (R417). -/
def Dev.dieWanted (d : Dev) (n : Nat) : Bool := d.diePresent n && d.flag (dieEnableF n)

/-- Engines of a die that can start: present and not locked out. -/
def Dev.startable (d : Dev) (n : Nat) : Nat :=
  ((List.range 4).filter fun e => bit (d.get (F.DIE_INFO_ENG_MASK n)) e && !bit (d.get (F.ENG_FAULT_LOCKOUT n)) e).length

/-- SERVE can be entered (R81). -/
def Dev.serveReady (d : Dev) : Bool :=
  (List.range 4).all fun n => !d.dieWanted n ||
    (d.flag (F.REPLICA_STATUS_ALIGNED n) && decide (d.get (F.DIE_INFO_E_MIN n) ≤ d.startable n))

/-- Entry to SERVE or exit from it, at an epoch (R79, R81). -/
def Dev.serveGo (d : Dev) (r : ModeReq) (enter : Bool) : Dev :=
  let e := if r.useEpoch then r.epoch else d.raw + leadTicks
  if tooSoon d.raw e then d.modeCode 4
  else if enter ∧ !d.serveReady then d.modeCode 3
  else
    let t := if enter then d.serveCode else Mode.warm.code
    ({ d with md.serve := some (e, enter) } : Dev).modeBegin { target := t, epoch := some e } (if enter then stStarting else stStopping)

/-- Leaving STANDBY or its TB-PLL-off setting: the TB-PLL restarts (R93). -/
def Dev.restart (d : Dev) : Dev :=
  if d.coarse then ({ d with md.restart := some d.raw } : Dev).set (pllGood 0) 0 else d

/-- A request on a device at rest (R76, R77). DESIGN CHOICE: PROGRESS shows STARTING from WARM to TEST and STOPPING from TEST to WARM; the spec gives only the encoding of R49. -/
def Dev.modeAct (d : Dev) (r : ModeReq) : Dev :=
  let serve := r.mode == Mode.serve.code
  match d.mode with
  | .standby =>
    if r.mode = Mode.standby.code then
      if r.standbyTb = !d.coarse then d.modeCode 0
      else if r.standbyTb then d.restart.modeBegin { target := r.mode, tb := true } stStarting
      else d.modeBegin { target := r.mode, tb := false } stStopping
    else if r.mode = Mode.warm.code then d.restart.modeBegin { target := r.mode } stStarting
    else if serve then d.restart.modeBegin { target := d.serveCode, next := some r } stStarting
    else d.modeCode 2
  | .warm =>
    if r.mode = Mode.warm.code then d.modeCode 0
    else if r.mode = Mode.standby.code then d.modeBegin { target := r.mode, tb := r.standbyTb } stStopping
    else if serve then d.serveGo r true
    else if r.mode = Mode.test.code then d.modeBegin { target := r.mode } stStarting
    else d.modeCode 2
  | .serve | .trial =>
    if serve then d.modeCode 0
    else if r.mode = Mode.warm.code then d.serveGo r false
    else d.modeCode 2
  | .test =>
    if r.mode = Mode.test.code then d.modeCode 0
    else if r.mode = Mode.warm.code then d.modeBegin { target := r.mode } stStopping
    else d.modeCode 2
  | _ => d.modeCode 2

/-- The request names the mode that the running transition reaches. -/
def ModeRun.names (x : ModeRun) (r : ModeReq) : Bool :=
  (r.mode == x.target || (r.mode == Mode.serve.code && x.target == Mode.trial.code)) &&
    (r.mode != Mode.standby.code || r.standbyTb == x.tb)

/-- MODE_CTRL.GO (R77, R78, R47). DESIGN CHOICE: a latched request keeps REQ_MODE, STANDBY_TB, USE_EPOCH and MODE_EPOCH as its GO found them. -/
def Dev.modeGo (d : Dev) : Dev :=
  if d.mode = .bypass then d else
  let r := d.modeReq
  match d.md.run with
  | none => d.modeAct r
  | some x =>
    if x.names r then (({ d with md.latched := none } : Dev).setFlag F.MODE_STATUS_LATCHED false).modeCode 0
    else (({ d with md.latched := some r } : Dev).setFlag F.MODE_STATUS_LATCHED true).modeCode 1

/-- The latched request is acted on as if it had just arrived (R48, R78). -/
def Dev.modeLatched (d : Dev) : Dev :=
  match d.md.latched with
  | none => d
  | some r => (({ d with md.latched := none } : Dev).setFlag F.MODE_STATUS_LATCHED false).modeAct r

/-- From WARM the way goes on to SERVE (R77); a latched request waits until SERVE is reached, or refused. -/
def Dev.modeOn (d : Dev) (r : ModeReq) : Dev :=
  let d := d.modeAct r
  if d.md.run.isNone then d.modeLatched else if d.md.latched.isSome then d.modeCode 1 else d

/-- The mode is reached: DONE, "Mode change"; what is still to be reached follows, then the request that waits (R78, R48). DESIGN CHOICE: at rest PROGRESS reads RUNNING in every mode, STANDBY, TEST and SAFE among them; the spec gives only the encoding of R49. -/
def Dev.modeReached (d : Dev) (mode : Nat) : Dev :=
  let next := (d.md.run.bind (·.next))
  let d := ({ d with md.run := none } : Dev).set F.MODE_STATUS_MODE mode
  let d := (d.set F.MODE_STATUS_PROGRESS stRunning).set F.MODE_STATUS_TARGET mode
  let d := (d.setFlag F.MODE_STATUS_DONE true).raise 0 A.MODE_STATUS
  match next with
  | some r => d.modeOn r
  | none => d.modeLatched

/-! ## STANDBY (R90 to R93) -/

/-- The TB-PLL and the output PLLs stop (R92): the ring ports go down, both selectors are in HOLDOVER, the GNSS slot's signal is invalid (R189). The outputs turn coarse at second boundaries (R95). -/
def Dev.tbOff (d : Dev) : Dev :=
  let (n, d) := d.draw
  let clk : Clk := { d.clk with phi := Config.oscPhase n % 65536, cycRes := 0, coarseSpans := (d.raw, none) :: d.clk.coarseSpans.take 15 }
  let d := ({ d with clk := clk, md.restart := none } : Dev).setFlag F.MODE_STATUS_TB_OFF true
  let d := if d.flag (pllCoast 0) then d.faultEnd 0x0B 0xFF 0 else d
  let d := [0, 2, 3].foldl (fun d p => ((d.setFlag (pllLocked p) false).setFlag (pllCoast p) false).set (pllGood p) 0) d
  let d := (d.portChange 0 false).portChange 1 false
  ((d.tbStop 0).tbStop 1).gnSlotValid false

/-- PTP-stream and SyncE slots lose their signal and become ABSENT (R90, R130). -/
def Dev.gateSlots (d : Dev) : Dev :=
  (List.range 12).foldl (fun d s =>
    let ty := d.get (F.SLOT_CFG_TYPE s)
    if ty = 5 ∨ ty = 6 then
      let d := [0, 1].foldl (fun d k => if d.slotSt k s = 0 then d else d.toAbsent k s) d
      d.signalLost s
    else d) d

/-- Power-gates the answer dies and the ledger dies (R75, R90). -/
def Dev.gateDies (d : Dev) : Dev :=
  let d := (List.range 4).foldl (fun d n => ((d.dieOff n false).setDieSt n stStopped).setFlag (dieLatchF n) false) d
  ({ d with lposted := d.lposted ++ [.wipe] } : Dev).set F.LMC_STATUS_TRAINED 0

/-- Entry to STANDBY. -/
def Dev.standbyIn (d : Dev) (tb : Bool) : Dev :=
  let d := d.gateDies.gateSlots
  let d := { d with md.serve := none, gn.dutyAt := d.ret.aon, gn.asleep := false }
  if tb then d else d.tbOff

/-- A die is brought up whole: powered, its PLLs locked, trained, its replica aligned, its registers restored (R86 step 8, R416); the first sync word loads the replica (R25). -/
def Dev.dieBoot (d : Dev) (n : Nat) : Dev :=
  let d := d.dieStart n
  let d := d.setDie n { d.die n with everAligned := true }
  let d := [4 + n, 8 + n].foldl (fun d p => (d.setFlag (pllLocked p) true).set (pllGood p) 8) d
  (d.dieUp n).setFlag (F.REPLICA_STATUS_ALIGNED n) true

/-- On the way to WARM: ledger dies trained with empty tables, the enabled dies up (R90, R417). -/
def Dev.diesBoot (d : Dev) : Dev :=
  let d := ({ d with lposted := d.lposted ++ [.wipe] } : Dev).set F.LMC_STATUS_TRAINED 3
  ((List.range 4).foldl (fun d n => if d.dieWanted n then d.dieBoot n else d) d).publish 15

/-- LINK_TEST returns to its reset value on every link (R249). -/
def Dev.endTest (d : Dev) : Dev :=
  (List.range 16).foldl (fun d k =>
    (d.setReg (A.LINK_TEST (k / 4) (k % 4)) 0).setLnk (k / 4) (k % 4) { d.lnk (k / 4) (k % 4) with looped := [] }) d

/-- Every request and every committed frame of every die is done with (R79). -/
def Dev.allDrained (d : Dev) : Bool :=
  (List.range 4).all fun n => (List.range 4).all fun l => d.linkDrained n l

/-- Mode that a SERVE entry or exit reaches; a trial may have been confirmed meanwhile. -/
def Dev.serveTarget (d : Dev) (x : ModeRun) : Nat := if x.target = Mode.warm.code then x.target else d.serveCode

/-- MODE_TRANSITION_COMPLETE (R78, R90): the running transition ends once what it waits for has come. -/
def Dev.modeDone (d : Dev) : Dev :=
  match d.md.run with
  | none => d
  | some x =>
    if x.epoch.isSome then
      if x.passed ∧ (x.target ≠ Mode.warm.code ∨ d.allDrained) then d.modeReached (d.serveTarget x) else d
    else match d.mode with
    | .standby =>
      if x.target = Mode.standby.code then
        if !x.tb then d.tbOff.modeReached x.target
        else if d.coarse then d else (if d.flag F.GN_CTRL_STBY_DUTY then d else d.gnAwake).modeReached x.target
      else if d.coarse then d
      else d.gnAwake.diesBoot.modeReached Mode.warm.code
    | .warm => if x.target = Mode.standby.code then (d.standbyIn x.tb).modeReached x.target else d.modeReached x.target
    | .test => d.endTest.modeReached x.target
    | _ => d

/-- SERVE_EPOCH (R79): at its epoch the mode changes. -/
def Dev.serveEpoch (d : Dev) : Dev :=
  match d.md.run with
  | none => d
  | some x =>
    match x.epoch with
    | none => d
    | some e =>
      if x.passed ∨ d.raw < e then d
      else
        ({ d with md.run := some { x with passed := true } } : Dev).set F.MODE_STATUS_MODE (d.serveTarget x)

/-- STANDBY_RESTART_HANDOVER (R93, R156): at an oscillator edge after the TB-PLL has locked. -/
def Dev.handover (d : Dev) : Dev :=
  if !d.coarse ∨ d.md.restart.isNone ∨ !d.flag (pllLocked 0) ∨ d.clk.cycRes ≠ 0 then d else
  let spans := match d.clk.coarseSpans with
    | (t, none) :: l => (t, some d.raw) :: l
    | l => l
  let d := ({ d with clk.frac := d.clk.phi, clk.coarseSpans := spans, md.restart := none } : Dev).setFlag F.MODE_STATUS_TB_OFF false
  let d := (List.range 8).foldl (fun d n =>
    if d.inRunning n then (d.setTim n { d.tim n with goodLines := 0 }).calWarn n else d) d
  d.levelCheck 30

/-! ## Commands -/

/-- MODE_GO (R77 to R81). -/
def execModeGo (s : State) : Answer := s.run Dev.modeGo

/-- SERVE_EPOCH (R79). -/
def execServeEpoch (s : State) : Answer := s.run Dev.serveEpoch

/-- MODE_TRANSITION_COMPLETE (R78). -/
def execModeTransitionComplete (s : State) : Answer := s.run Dev.modeDone

/-- STANDBY_RESTART_HANDOVER (R93). -/
def execStandbyRestartHandover (s : State) : Answer := s.run Dev.handover

end Sys2Proof.Machine
end

