-- ==== Sys2Proof/Machine/Boot.lean ====
section
/-! DEFINITION. Resets, power and the steps of LOAD: oscillator, image and Position decisions, settings, boot mode, SAFE (R59, R82 to R89, R197, R378, R406, R409, R422). -/

namespace Sys2Proof.Machine

/-! ## Resets (R82 to R84) -/

/-- RESET_CAUSE bits. -/
abbrev rcPin : Nat := 0
abbrev rcPower : Nat := 1
abbrev rcRegister : Nat := 2
abbrev rcTrialFallback : Nat := 7

/-- Registers that a reset keeps: fuses, and RESET_CAUSE in the retention memory. -/
def keptReg (a : Nat) : Bool :=
  decide (0x20 ≤ a ∧ a < 0x50) || a == A.RESET_CAUSE || decide (0x60400 ≤ a ∧ a < 0x604A4)

/-- A fault that a reset cuts short ends with it, and is recorded after the next LOAD. -/
def Dev.faultsOver (d : Dev) : List OpenFault :=
  (d.openFaults.filter fun f => !f.logged).map fun f => { f with afterLoad := true, ended := some (f.ended.getD d.raw) }

/-- The device in BYPASS: what survives is the retention memory, the serial memory, the fuses, and what the balls and junctions show. -/
def Dev.deviceReset (d : Dev) : Dev :=
  let md : Md := { resetLow := d.md.resetLow, powerBad := d.md.powerBad, hot := d.md.hot, glitch := d.md.glitch, unlocked := d.md.unlockNext }
  let b : Bus := { regs := d.bus.regs.filter fun p => keptReg p.1 }
  let pcie : Pcie := { perstN := d.pcie.perstN }
  let e : Dev := { bus := b, pcie := pcie, tin := d.tin.map fun x => { level := x.level }, temps := d.temps, nv := d.nv, md := md
                   openFaults := d.faultsOver, ret := d.ret, out := d.out, freeCtr := d.freeCtr
                   posted := d.posted, lposted := d.lposted ++ [.wipe], fposted := d.fposted }
  (e.setFlag F.FUSE_STATE_DEBUG_OPEN false).set F.MODE_STATUS_MODE Mode.bypass.code

/-- LOAD is entered. -/
def Dev.enterLoad (d : Dev) : Dev :=
  (({ d with md.age := 0, md.load := 0, md.safePin := none } : Dev).set F.MODE_STATUS_MODE Mode.load.code).showFaults

/-- BYPASS ends when nothing holds it (R77, R422). -/
def Dev.leaveBypass (d : Dev) : Dev :=
  if d.mode = .bypass ∧ !d.md.resetLow ∧ !d.md.powerBad ∧ !d.md.pulse ∧ !d.md.hot then d.enterLoad else d

/-- An internal reset begins (R83). -/
def Dev.internalReset (d : Dev) : Dev :=
  if !d.md.resetDue ∨ d.mode = .bypass then d
  else
    let d := d.deviceReset
    { d with md.pulse := true }

/-- The internal reset's 1 ms is over. -/
def Dev.pulseEnd (d : Dev) : Dev :=
  if !d.md.pulse ∨ d.md.age < msTicks then d else ({ d with md.pulse := false } : Dev).leaveBypass

/-- RESET_N low. -/
def Dev.pinLow (d : Dev) : Dev := ({ d with md.resetLow := true } : Dev).deviceReset.stick A.RESET_CAUSE rcPin

/-- PWR_GOOD low. -/
def Dev.powerLow (d : Dev) : Dev := ({ d with md.powerBad := true } : Dev).deviceReset.stick A.RESET_CAUSE rcPower

/-- Loss of VDD_AON (R77, R84): a power loss, so BYPASS, until a rise of RESET_N or PWR_GOOD starts LOAD; the retention memory is cleared, with the faults that it was to log, and only RESET_CAUSE.POWER is set. -/
def Dev.aonLoss (d : Dev) : Dev :=
  let d := d.deviceReset
  let d : Dev := { d with ret := {}, openFaults := [], md.hot := false, md.glitch := false }
  ((d.setReg A.RESET_CAUSE 0).stick A.RESET_CAUSE rcPower).showFaults

/-- Recovery from a thermal shutdown: every junction below 100 °C. -/
def Dev.cooled (d : Dev) (ts : List Int) : Dev :=
  if !d.md.hot ∨ ts.length ≠ 7 ∨ ts.any (800 ≤ ·) then d
  else ({ d with temps := ts, md.hot := false } : Dev).leaveBypass

/-- A write of RESET_CTRL: guarded (R18). -/
def Dev.resetWrite (d : Dev) (req : Req) (v : Word) : Dev :=
  let (d, ok) := d.guardPass req A.RESET_CTRL
  if !ok then d else d.limited A.RESET_CTRL v fun d => if bits 0 0 v = 1 then d.askReset rcRegister else d

/-! ## LOAD step 1 (R85, R197) -/

/-- BOOT_SAFE_N is sampled once, 5 µs after the edge. -/
def Dev.safeSample (d : Dev) (low : Bool) : Dev :=
  if d.mode ≠ .load ∨ d.md.age < 5 * usTicks ∨ d.md.safePin.isSome then d else { d with md.safePin := some low }

/-- The steps of LOAD begin. -/
def Dev.loadStart (d : Dev) : Dev := if d.mode = .load ∧ d.md.load = 0 then { d with md.load := 1 } else d

/-- FREQ code of OSC_STATUS. -/
def oscCode (mhz : Nat) : Nat := if mhz = 25 then 2 else if mhz = 20 then 1 else 0

/-- An oscillator is accepted: 10, 20 or 25 MHz within ±8 % of its nominal value, a crystal at 25 MHz only; measured in kHz. -/
def oscNominal (crystal : Bool) (khz : Nat) : Option Nat :=
  [10, 20, 25].find? fun m => decide (92 * m * 10 ≤ khz ∧ khz ≤ 108 * m * 10) && (!crystal || m == 25)

/-- Step 1 completes; step 4 follows when the TB-PLL locks (R86, R200). -/
def Dev.oscValid (d : Dev) (crystal : Bool) (khz : Nat) : Dev :=
  if d.mode ≠ .load ∨ d.md.load ≠ 1 then d else
  match oscNominal crystal khz with
  | none => d
  | some m =>
    let d : Dev := { d with clk.oscMhz := m, md.load := 2 }
    ((d.setFlag F.OSC_STATUS_PRESENT true).setFlag F.OSC_STATUS_SRC crystal).set F.OSC_STATUS_FREQ (oscCode m)

/-! ## Image and Position decisions (R59, R406) -/

/-- Outcome of a boot decision: the headers it writes in order, the header in force, the bank and whether it runs on trial, banks tried, reason codes, and whether a trial fell back. -/
structure Choice where
  hdr : BootHdr
  writes : List BootHdr := []
  boot : Option (Nat × Bool) := none
  tried : List Nat := []
  reasons : List Nat := []
  fell : Bool := false
deriving DecidableEq, Repr

def BootHdr.prevOf (h : BootHdr) (kind : Nat) : Nat := if kind = 0 then h.prev else h.posPrev
def BootHdr.setActive (h : BootHdr) (kind b : Nat) : BootHdr := if kind = 0 then { h with active := b } else { h with posActive := b }
def BootHdr.setPrev (h : BootHdr) (kind b : Nat) : BootHdr := if kind = 0 then { h with prev := b } else { h with posPrev := b }
def BootHdr.mark (h : BootHdr) (kind b st : Nat) : BootHdr := h.setRec kind b { h.rec' kind b with state := st }

/-- The header changes and is written. -/
def Choice.write (c : Choice) (h : BootHdr) : Choice := { c with hdr := h, writes := c.writes ++ [h] }

/-- A bank is checked: code 0 passes. -/
def Choice.try' (c : Choice) (b code : Nat) : Choice :=
  { c with tried := c.tried ++ [b], reasons := if code = 0 then c.reasons else c.reasons ++ [code] }

/-- A trial that a reset ended falls back. -/
def fallBack (kind : Nat) (h : BootHdr) : Choice :=
  if (h.rec' kind (h.activeOf kind)).state = 3 then
    let h' := (h.mark kind (h.activeOf kind) 5).setActive kind (h.prevOf kind)
    { hdr := h', writes := [h'], fell := true }
  else { hdr := h }

/-- The decision of R406 for image banks (kind 0) or Position slots (kind 1); check h b: 0, or the code of the check that bank b fails. -/
def chooseBank (kind : Nat) (h : BootHdr) (check : BootHdr → Nat → Nat) (badSealed : Nat) : Choice :=
  let c := fallBack kind h
  let a := c.hdr.activeOf kind
  let p := 1 - a
  let sealed := (c.hdr.rec' kind p).state == 2
  let code := check c.hdr p
  let c := if sealed then c.try' p code else c
  if sealed ∧ code = 0 then
    { c.write (((c.hdr.setPrev kind a).setActive kind p).mark kind p 3) with boot := some (p, true) }
  else
    let c := if sealed then (c.write (c.hdr.mark kind p 5)).try' p badSealed else c
    let ca := check c.hdr a
    let c := c.try' a ca
    if ca = 0 then { c with boot := some (a, false) }
    else if (c.hdr.rec' kind p).state = 4 then
      let cp := check c.hdr p
      let c := c.try' p cp
      if cp = 0 then { c.write (c.hdr.setActive kind p) with boot := some (p, false) } else c
    else c

/-- Checks of an image (R380, R406): 17 signature, 18 below MIN_GEN, 19 a generation below the active image's without DOWNGRADE_OK. -/
def Dev.imageCheck (d : Dev) (sig : Nat → Bool) (h : BootHdr) (b : Nat) : Nat :=
  let r := h.rec' 0 b
  if !sig b then 17
  else if r.gen < d.get F.FUSE_STATE_MIN_GEN then 18
  else if r.state = 2 ∧ r.gen < (h.rec' 0 (1 - b)).gen ∧ !r.dgOk then 19
  else 0

/-- Reason code of a sealed bank that fails (R406). -/
abbrev badSealed : Nat := 20

/-- The bytes of a Position slot, as far as its header says. -/
def posBytes (flash : Mem) (s : Nat) : List Byte :=
  let hd := flash.read (bankBase 1 s) 0xC0
  if hd.take 4 = [0x55, 0x54, 0x50, 0x53] ∧ posLen hd ≤ 2097152 then flash.read (bankBase 1 s) (max 0xC0 (posLen hd)) else hd

/-- The checks of R59 on a slot: 0, or the number of the first that fails; img: the image chosen. -/
def Dev.posCheck (flash : Mem) (d : Dev) (img : BankRec) (h : BootHdr) (s : Nat) : Nat :=
  let p := posBytes flash s
  let other := h.rec' 1 (1 - s)
  if !posHeadOk p 0 then 1
  else if !d.posSigned p then 2
  else if other.state = 4 ∧ posGen p < other.gen ∧ !(h.rec' 1 s).dgOk then 3
  else if img.gen < leAt p 0x18 4 ∨ !(Config.imageLibs img.digest).contains (leAt p 0x14 4) then 4
  else if !(posTableOk p && posComplete p && posStructure p) then 5
  else 0

/-- One journal record of this LOAD (R397). -/
def Dev.journal (d : Dev) (banks slots reasons : List Nat) : Dev :=
  { d with nv.journal := ((d.ret.aon, banks, slots, reasons) :: d.nv.journal).take 4096 }

/-! ## Fuses, settings, keys (R378, R380, R409) -/

/-- Step 2: what FUSE_STATE derives from the fuses. -/
def Dev.fuseRead (d : Dev) : Dev :=
  let gen := (List.range 8).foldl (fun a w => a + popCount 32 (d.reg (A.FUSE_MIN_GEN w)).toNat) 0
  (d.setFlag F.FUSE_STATE_CUST_BLANK (d.wide (A.FUSE_CUSTOMER_HASH 0) 12 == 0)).set F.FUSE_STATE_MIN_GEN gen

/-- Key records among a copy's records. -/
def SetCopy.keys (c : SetCopy) : List ((Nat × Nat) × List Byte) := c.recs.filter (·.1.1 == 0x10)

/-- Step 6 for the image in bank b: its own settings, built from the other bank's newest copy at the first LOAD of a trial, or where it has none. -/
def Dev.settingsLoad (d : Dev) (b : Nat) (digest : List Byte) (trial : Bool) : Dev :=
  let prev := d.settings (1 - b)
  let fmt := Config.imageFormat digest
  match if trial then none else d.settings b with
  | some c => d.set F.SET_STATUS_FORMAT c.format
  | none =>
    if trial ∧ prev.any (fun c => Config.readsFormat digest c.format) then
      let d := d.writeSettings b { format := fmt, recs := (prev.getD {}).recs }
      (d.set F.SET_STATUS_FORMAT fmt).setFlag F.SET_STATUS_MIGRATED true
    else
      let d := d.writeSettings b { format := fmt, recs := (prev.getD {}).keys }
      ((d.set F.SET_STATUS_FORMAT fmt).setFlag F.SET_STATUS_DEFAULTED true).raise 42 A.SET_STATUS

/-- A value of one byte in the settings, or its default. -/
def Dev.settingByte (d : Dev) (tag dflt : Nat) : Nat := ((d.setting tag 0).map fun b => leAt b 0 1).getD dflt

/-- What the settings restore: STANDBY_TB, jamming calibrations, the held position. -/
def Dev.settingsApply (d : Dev) : Dev :=
  let d := d.set F.MODE_CTRL_STANDBY_TB (d.settingByte 2 1 % 2)
  let d := [0, 1].foldl (fun d b =>
    match d.setting (0x20 + b) 0 with
    | none => d
    | some v =>
      let (code, rms) := Config.jamRecord v
      ((d.setBand b { d.gnBand b with calCode := code, calRms := rms }).setFlag (F.JAM_CAL_VALID b) true).showJam b) d
  match d.setting 0x22 0 with
  | none => d
  | some v => { d with gn.pos := Config.positionRecord v, gn.posSet := true }

/-- Persistent key records are unsealed into their slots; one that fails is skipped. -/
def Dev.keysLoad (d : Dev) : Dev :=
  let d := (List.range 16).foldl (fun d k =>
    match d.setting 0x10 k with
    | none => d
    | some r =>
      match openRecord r with
      | some (s, x) => { d with keys.slots := setAt d.keys.slots s (some x) }
      | none => d.keyAlert F.KS_ALERT_PERSIST_LOST) d
  d.showKeys

/-! ## Boot modes (R86 to R89) -/

/-- BOOT_STATUS.LOAD_MS. -/
def Dev.loadMs (d : Dev) : Nat := min 65535 ((d.md.age + msTicks - 1) / msTicks)

/-- What every LOAD ends with: the secrets of the boot, debug and glitch alerts, "Trial state change" after a fallback. -/
def Dev.loadEnd (d : Dev) (fell : Bool) : Dev :=
  let d := (d.set F.BOOT_STATUS_LOAD_MS d.loadMs).set F.SPI_INFO_SIZE Config.spiUnits
  let d := if d.md.unlocked.isSome then (d.setFlag F.FUSE_STATE_DEBUG_OPEN true).keyAlert F.KS_ALERT_DEBUG else d
  let d := if d.md.glitch then d.keyAlert F.KS_ALERT_GLITCH else d
  let d := { d with md.glitch := false, md.load := 0 }
  if fell then d.raise 41 A.BOOT_STATUS else d

/-- A ROM reference graph disciplines Scale A, OUT0 carries PPS (R89). -/
def Dev.enterSafe (d : Dev) (reason : Nat) (fell : Bool) : Dev :=
  let d := (d.set F.BOOT_STATUS_SAFE_REASON reason).setFlag F.BOOT_STATUS_SAFE_PIN (reason == 1)
  let d := ((d.set (F.SLOT_CFG_TYPE 0) 4).set (F.SLOT_CFG_BIND 0) 0).set (F.SLOT_RANK_RANK_A 0) 1
  let d := ((d.set (F.SLOT_WTR_S 0) 300).set (F.SLOT_BAND_PPB 0) 4600).set (F.SLOT_JUMP_NS 0) 1000
  let d := (d.set (F.SLOT_ACC_NS 0) 100).gnEnable true
  let d := ((d.set (F.OUT_CFG_TYPE 0) 0).set (F.OUT_WIDTH_US 0) 100).outEnable 0 true
  (d.loadEnd fell).modeReached Mode.safe.code

/-- Keeper registers that the Position loads. -/
def Dev.loadKeeper (d : Dev) : Dev :=
  d.pos.init.foldl (fun d w => if w.1 < 0x100000 then d.setReg w.1 w.2 else d) d

/-- Registers that report the image and the Position in force. -/
def Dev.showBoot (d : Dev) (p : List Byte) (img : BankRec) (b s : Nat) (t pt : Bool) : Dev :=
  let d := ((d.set F.BOOT_STATUS_IMAGE_BANK b).setFlag F.BOOT_STATUS_IMAGE_TRIAL t).setFlag F.BOOT_STATUS_POS_TRIAL pt
  let d := ((d.set F.POS_INFO_SLOT s).setFlag F.POS_INFO_TRIAL pt).setFlag F.POS_INFO_VENDOR_SIGNED (d.flag F.FUSE_STATE_CUST_BLANK)
  let d := ((d.set F.POS_INFO_FORMAT (leAt p 4 2)).set F.POS_ID_ID (posId p)).set F.POS_GEN_GEN (posGen p)
  let d := (d.set F.IMAGE_GEN_GEN img.gen).set F.IMAGE_ID_ID img.id
  let d := d.setFlag F.MODE_STATUS_ON_TRIAL (t || pt)
  d.set F.TRIAL_REMAIN_S (if t || pt then d.get F.TRIAL_HOLD_S else 0)

/-- Blocks whose ENABLE the Position has set start: timing inputs and outputs; GNSS where a ranked slot is bound to it. -/
def Dev.startBlocks (d : Dev) : Dev :=
  let d := (List.range 8).foldl (fun d n => if d.flag (F.IN_CTRL_ENABLE n) then d.inEnable n true else d) d
  let d := (List.range 4).foldl (fun d n => if d.flag (F.OUT_CTRL_ENABLE n) then d.outEnable n true else d) d
  if (d.slotsOf 4 0).any fun s => d.rank 0 s != 0 || d.rank 1 s != 0 then d.gnEnable true else d

/-- The boot mode is entered (steps 8 and 9). DESIGN CHOICE: LOAD enters SERVE at the raw count of its completion, with no lead; R79's lead is that of a request. -/
def Dev.enterMode (d : Dev) : Dev :=
  let m := d.settingByte 1 4
  if m = Mode.standby.code then
    (d.standbyIn (d.flag F.MODE_CTRL_STANDBY_TB)).modeReached Mode.standby.code
  else
    let d := d.diesBoot
    if m = Mode.warm.code then d.modeReached Mode.warm.code
    else ({ d with md.serve := some (d.raw, true) } : Dev).modeReached d.serveCode

/-- Steps 5 to 9 with image bank b and Position slot s chosen. -/
def Dev.boot (flash : Mem) (d : Dev) (h : BootHdr) (b s : Nat) (t pt fell : Bool) : Dev :=
  let p := posBytes flash s
  let img := h.rec' 0 b
  let d := { d with pos := posOf p }
  let d := d.loadKeeper.showBoot p img b s t pt
  let d := ((d.settingsLoad b img.digest t).settingsApply).keysLoad
  let (key, d) := d.randomBytes 16
  let (salt, d) := d.randomBytes 4
  let d := { d with keys.nonceKey := key, keys.salt := leNat salt }
  let d := (d.setFlag F.LMC_STATUS_KEY_VALID true).set F.DIE_CTRL_ENABLE d.pos.present
  let d := d.startBlocks.loadEnd fell
  let d := if t || pt then d.raise 41 A.BOOT_STATUS else d
  d.enterMode

/-- LOAD_COMPLETE: the decisions of steps 1, 3 and 5, then the mode they lead to; sig: the signatures of the images in banks A and B hold. -/
def Dev.loadDone (flash : Mem) (d : Dev) (sigA sigB : Bool) : Dev :=
  if d.mode ≠ .load ∨ d.md.load ≠ 2 ∨ !d.clk.running then d else
  let d := d.fuseRead.showHdr
  if d.md.safePin = some true then (d.journal [] [] []).enterSafe 1 false
  else match d.nv.hdr with
  | none => (d.journal [] [] []).enterSafe 2 false
  | some h =>
    let c := chooseBank 0 h (d.imageCheck fun b => if b = 0 then sigA else sigB) badSealed
    let d := c.writes.foldl (fun d h => d.writeHdr h) d
    let d := if c.fell then d.stick A.RESET_CAUSE rcTrialFallback else d
    match c.boot with
    | none => (d.journal c.tried [] c.reasons).enterSafe 2 c.fell
    | some (b, t) =>
      let pc := chooseBank 1 c.hdr (Dev.posCheck flash d (c.hdr.rec' 0 b)) badSealed
      let d := pc.writes.foldl (fun d h => d.writeHdr h) d
      let d := if pc.fell then d.stick A.RESET_CAUSE rcTrialFallback else d
      let d := d.journal c.tried pc.tried (c.reasons ++ pc.reasons)
      match pc.boot with
      | none => d.enterSafe 3 (c.fell || pc.fell)
      | some (s, pt) => Dev.boot flash d pc.hdr b s t pt (c.fell || pc.fell)

/-! ## Commands -/

/-- RESET_N_LOW (R82). -/
def execResetNLow (s : State) : Answer := s.run Dev.pinLow

/-- RESET_N_RISE (R77). -/
def execResetNRise (s : State) : Answer := s.run fun d => ({ d with md.resetLow := false } : Dev).leaveBypass

/-- PWR_GOOD_LOW (R82, R378). -/
def execPwrGoodLow (s : State) : Answer := s.run Dev.powerLow

/-- PWR_GOOD_RISE (R82). -/
def execPwrGoodRise (s : State) : Answer := s.run fun d => ({ d with md.powerBad := false } : Dev).leaveBypass

/-- VDD_AON_LOSS (R84, R443). -/
def execVddAonLoss (s : State) : Answer := s.run Dev.aonLoss

/-- DEVICE_RESET (R82, R18): a write of v to RESET_CTRL. -/
def execDeviceReset (req : Req) (v : Word) (s : State) : Answer := s.run (·.resetWrite req v)

/-- INTERNAL_RESET (R83). -/
def execInternalReset (s : State) : Answer := s.run Dev.internalReset

/-- INTERNAL_RESET_PULSE_END (R83). -/
def execInternalResetPulseEnd (s : State) : Answer := s.run Dev.pulseEnd

/-- BOOT_SAFE_N_SAMPLE (R85): the level sampled. -/
def execBootSafeNSample (low : Bool) (s : State) : Answer := s.run (·.safeSample low)

/-- LOAD_START (R86). -/
def execLoadStart (s : State) : Answer := s.run Dev.loadStart

/-- OSCILLATOR_VALID (R197): source and measured frequency in kHz. -/
def execOscillatorValid (crystal : Bool) (khz : Nat) (s : State) : Answer := s.run (·.oscValid crystal khz)

/-- LOAD_COMPLETE (R86, R87, R406). -/
def execLoadComplete (sigA sigB : Bool) (s : State) : Answer := s.runF fun _ _ fl d => Dev.loadDone fl d sigA sigB

/-- THERMAL_RECOVERY (R422): the seven readings in 0.125 °C. -/
def execThermalRecovery (ts : List Int) (s : State) : Answer := s.run (·.cooled ts)

end Sys2Proof.Machine
end

