-- ==== Sys2Proof/Machine/View.lean ====
section
/-! DEFINITION. Reading registers: what a read forms at its instant, the latch of multiword groups, the reads that pop a FIFO or clear a peak (R12 to R17, R97, R163, R169, R264, R266, R333, R345, R393, R458). -/

namespace Sys2Proof.Machine

/-! ## What a read shows (registers formed at the read) -/

/-- Stores bytes over k words. -/
def Dev.setBytes (d : Dev) (a k : Nat) (bs : List Byte) : Dev := d.setWide a k (leNat bs)

/-- RAW_FRAC, RAW_LO and RAW_HI at the read (R97, R92); the fraction is the sub-tick phase of the access. -/
def Dev.showRaw (d : Dev) : Dev :=
  let f := if d.coarse then 0 else Config.accessFrac d.freeCtr % 65536
  d.setWide A.RAW 3 (f + 2 ^ 32 * d.stampTick d.raw)

/-- LEAP_TABLE: the entries, oldest first (R117). -/
def Dev.showLeaps (d : Dev) : Dev :=
  (List.range 8).foldl (fun d k =>
    match d.ts.leaps[k]? with
    | none => d.setWide (A.LEAP_TABLE_0 k) 3 0
    | some l => d.setWide (A.LEAP_TABLE_0 k) 3
        (l.sec % 2 ^ 48 + 2 ^ 64 * (ofSigned 16 l.offset + 2 ^ 16 + 2 ^ 17 * boolNat l.fromGnss))) d

/-- The set that JRNL_SEL selects (R106). -/
def Dev.journalSel (d : Dev) (k : Nat) : Option PSet :=
  let i := d.get (F.JRNL_SEL_INDEX k)
  if i = 16 then (d.scale k).pend else if i < 16 then (d.scale k).journal[i]? else none

/-- The selected set in the JRNL registers; an empty entry reads zero. -/
def Dev.showJournal (d : Dev) (k : Nat) : Dev :=
  match d.journalSel k with
  | none => d.setWide (A.JRNL_SEQ k) 12 0
  | some p =>
    let d := (d.setReg (A.JRNL_SEQ k) (BitVec.ofNat 32 p.seq)).set64 (A.JRNL_EPOCH k) p.epoch
    let d := d.setTime (A.JRNL_OFFSET k 0) (floor16 p.ofs)
    let d := d.set64 (A.JRNL_OFFSET_EXT k) (p.ofs % (2 ^ 56 : Nat)).toNat
    (d.set64 (A.JRNL_INCR k) p.incr).setReg (A.JRNL_CAUSE k) (BitVec.ofNat 32 p.cause)

/-- CH_INFO and CH_MP of the channel that CH_SEL selects (R180, R182). -/
def Dev.showChan (d : Dev) : Dev :=
  let c := d.chan (d.get F.CH_SEL_CH)
  let d := ((d.set F.CH_INFO_STATE c.state).set F.CH_INFO_SIGNAL c.signal).set F.CH_INFO_SV c.sv
  let d := ((d.set F.CH_INFO_CN0 c.cn0).setFlag F.CH_INFO_USED c.used).setFlag F.CH_INFO_MP c.mp
  (d.set F.CH_MP_DELAY c.mpDelay).set F.CH_MP_RATIO c.mpRatio

/-- FB_RATE and FB_BURST of the context that FB_SEL selects (R418). -/
def Dev.showFallback (d : Dev) (n : Nat) : Dev :=
  let e := (d.pos.fallback.find? fun e => e.1 = n ∧ e.2.1 = d.get (F.FB_SEL_CTX n)).getD (n, 0, 0, 0)
  (d.set (F.FB_BURST_BURST n) e.2.2.1).set (F.FB_RATE_RATE n) e.2.2.2

/-- Level of a context bucket at the read, in 2^-16 requests; context 0 shows zero. -/
def Dev.admLevel (d : Dev) (n : Nat) : Nat :=
  let c := d.get (F.ADM_SEL_CTX n)
  let l := d.get (F.ADM_SEL_LINK n)
  if c = 0 then 0 else
  let img := d.img n c
  let r16 := ticks16 d.raw
  match d.admRate n c r16 img with
  | none => 0
  | some (rate, burst) =>
    let b := (d.lnk n l).bucket c burst
    let t := ((d.onDie n).ts.time16 (Img.scale img) r16).getD 0
    (refill b.level (burst * reqUnit) rate b.last t).1 / 1000000000

/-- HOT_STATUS with AGE_MIN (R195): minutes since the newest save. -/
def Dev.showAge (d : Dev) : Dev :=
  d.showHot.set F.HOT_STATUS_AGE_MIN (min (d.hotAge / 60) 65535)

/-- A counter that names a raw signal is held outside LOAD, TEST and SAFE (R434). -/
def Dev.rawHeld (d : Dev) (cfg : Nat) : Bool :=
  decide (0xF0 ≤ bits 7 0 (d.reg cfg)) && !(d.mode == .load || d.mode == .test || d.mode == .safe)

/-- GN_POS: a read gives the held or surveyed position, in mm (R185). -/
def Dev.showPosition (d : Dev) (off : Nat) : Dev :=
  if 0x200 ≤ off ∧ off ≤ 0x214 then
    let p (i : Nat) : Nat := ofSigned 64 ((d.gn.pos[i]?).getD 0)
    ((d.set64 A.GN_POS_X (p 0)).set64 A.GN_POS_Y (p 1)).set64 A.GN_POS_Z (p 2)
  else d

/-- The device as a read of one register finds it. -/
def Dev.atRead (d : Dev) (h : Hit) (a : Nat) : Dev :=
  let n := h.die.getD 0
  let off := h.row.off
  match h.bank with
  | .gbl =>
    if off = 0x3A0 then d.setBytes (A.FAULT_REC 0) 8 d.faultSelected
    else if off = 0x1100 then d.setFlag ⟨a, 17, 17⟩ (isLevel h.w) else d
  | .ts =>
    if 0x10 ≤ off ∧ off ≤ 0x18 then d.showRaw
    else if off = 0x118 ∨ off = 0x11C then d.set64 A.CASTLE_BRIDGE (ofSigned 64 (d.bridge16 (ticks16 d.raw)))
    else if off = 0x204 then d.showUtc
    else if 0x240 ≤ off ∧ off ≤ 0x24C then d.showLeaps
    else d
  | .sc =>
    if off = 0x40 ∨ off = 0x44 then d.set64 (A.SLEW_REMAIN h.i) (ofSigned 64 ((d.scale h.i).slewRemain (ticks16 d.raw)))
    else if 0x104 ≤ off then d.showJournal h.i
    else d
  | .sel => if off = 0x20 then d.showENow h.i else d
  | .tin =>
    if off = 0x80 then d.setBytes (A.TS_W h.i 0) 4 ((d.tim h.i).stamps.headD [])
    else if off = 0xC0 then d.setBytes (A.RES_W h.i 0) 16 ((d.tim h.i).results.headD [])
    else d
  | .gn =>
    if off = 0x304 ∨ off = 0x308 then d.showChan
    else if off = 0x400 then d.showAge
    else d.showPosition off
  | .frac => if off = 4 then d.set (F.FRAC_FREQ_FREQ h.i) (ofSigned 32 (d.fracAt h.i d.raw)) else d
  | .opll => d.showOpll h.i
  | .bn => if off = 0x8000 ∧ (d.slotPending (32 * h.w / d.slotLen) ∨ d.flag F.BN_OP_WIPING) then d.setReg a 0 else d
  | .up => if off = 0x220 then d.setBytes (A.GR_EVQ_W 0) 8 (d.ring.evq.headD []) else d
  | .kcnt => if off = 0x100 then d.setFlag ⟨a, 15, 15⟩ (d.rawHeld a) else d
  | .dcnt => if off = 0x100 then d.setFlag ⟨a, 15, 15⟩ (d.rawHeld a) else d
  | .dc => if off = 0x14 ∨ off = 0x18 then d.showFallback n else d
  | .adm => if off = 8 ∨ off = 0xC then d.set64 (A.ADM_LEVEL n) (d.admLevel n) else d
  | .tsq => if off = 0x20 then d.setBytes (A.TSQ_W n h.i 0) 8 ((d.lnk n h.i).tsq.headD []) else d
  | _ => d

/-! ## What a read does -/

/-- Pops the oldest stamp of a timing input (R163). -/
def Dev.popStamp (d : Dev) (i : Nat) : Dev :=
  let l := (d.tim i).stamps.tail
  (d.setTim i { d.tim i with stamps := l }).set (F.IN_STATUS_FIFO_LEVEL i) l.length

/-- Pops the oldest result of a measurement unit (R169). -/
def Dev.popResult (d : Dev) (i : Nat) : Dev :=
  let l := (d.tim i).results.tail
  (d.setTim i { d.tim i with results := l }).set (F.MEAS_STATUS_RES_LEVEL i) l.length

/-- Pops the oldest entry of a transmit-stamp queue (R345). -/
def Dev.popTsq (d : Dev) (n l : Nat) : Dev :=
  let q := (d.lnk n l).tsq.tail
  (d.setLnk n l { d.lnk n l with tsq := q }).set (F.TSQ_STATUS_LEVEL n l) q.length

/-- Pops the oldest ring-event record (R393). -/
def Dev.popRingEvent (d : Dev) : Dev :=
  let q := d.ring.evq.tail
  ({ d with ring.evq := q } : Dev).set F.GR_EVQ_STATUS_LEVEL q.length

/-- The effect of a read on the device, beside the latch: pops, peaks cleared, a sub-tick phase used up. -/
def Dev.readFx (d : Dev) (h : Hit) : Dev :=
  let n := h.die.getD 0
  match h.bank with
  | .ts => if h.row.off = 0x10 then d.draw.2 else d
  | .tin =>
    if h.w ≠ 0 then d else if h.row.off = 0x80 then d.popStamp h.i else if h.row.off = 0xC0 then d.popResult h.i else d
  | .up => if h.row.off = 0x220 ∧ h.w = 0 then d.popRingEvent else d
  | .tsq => if h.row.off = 0x20 ∧ h.w = 0 then d.popTsq n h.i else d
  | .engc => if h.row.off = 4 then d.set (F.DISPATCH_STATUS_PEAK n) 0 else d
  | .cal => if h.row.off = 0x10 then d.set (F.CAL_STATE_PEAK n h.i) 0 else d
  | _ => d

/-- Latches the higher words of a group for a requester (R14, R17); v: the device as the read finds it. -/
def Dev.latch (d v : Dev) (req : Req) (h : Hit) (a : Nat) : Dev :=
  let words := (List.range (h.row.gwords - 1)).map fun k =>
    let b := a + 4 * (k + 1)
    ((req, b), match lookup b with
      | some hb => hb.row.show (v.reg b)
      | none => 0)
  { d with bus.latched := words ++ d.bus.latched.filter fun x => !(x.1.1 == req && decide (a < x.1.2 ∧ x.1.2 < a + 4 * h.row.gwords)) }

/-- A read of a mapped register: its value, and the device after it. -/
def Dev.readHit (d : Dev) (req : Req) (h : Hit) (a : Nat) : Dev × Word :=
  let v := d.atRead h a
  let now := h.row.show (v.reg a)
  if h.pos = 0 then
    ((if h.row.gwords = 1 then d else d.latch v req h a).readFx h, now)
  else (d, ((d.bus.latched.find? (·.1 == (req, a))).map (·.2)).getD now)

/-! ## Reach (R56, R75, R88, R90, R95) -/

/-- Answer die of an offset. -/
def dieOf (a : Nat) : Option Nat := if 0x100000 ≤ a ∧ a < 0x500000 then some (a / 0x100000 - 1) else none

/-- A requester reaches the bus: not in BYPASS, and the cores not while they restart. -/
def Dev.onBus (d : Dev) (req : Req) : Bool := d.mode != .bypass && !(req == .cores && d.md.coresDown.isSome)

/-- Offset that the host reaches before LOAD has completed (R88); wr: a write. -/
def earlyReach (a : Nat) (wr : Bool) : Bool := decide (a < 0x10000) || (!wr && a == A.OSC_STATUS)

/-- The offset lies in the banks of a gated or absent answer die (R56, R90). -/
def Dev.gated (d : Dev) (a : Nat) : Bool := (dieOf a).any fun n => !d.diePowered n

/-- One aligned 32-bit read. -/
def Dev.read32 (d : Dev) (req : Req) (a : Nat) : Dev × Word :=
  if !d.onBus req then (d, 0)
  else
    let d := d.keeperCount 0x09
    if req = .host ∧ !d.loaded ∧ !earlyReach a false then (d, 0)
    else if d.gated a then (d, if (dieOf a).any fun n => a == A.REPLICA_STATUS n then 0xFF00 else 0)
    else match lookup a with
    | none => (d.stick A.GBL_STATUS 3, 0)
    | some h => d.readHit req h a

/-- One read as the requester sees it. -/
def Dev.busRead32 (d : Dev) (req : Req) (a : Nat) : Dev :=
  let (d, v) := d.read32 req a
  d.emit (.readData req a v)

/-- A BAR0 read of a size in bytes (R333): 32 bits, or 64 bits as two reads; any other is discarded. -/
def Dev.busRead (d : Dev) (req : Req) (a size : Nat) : Dev :=
  if size = 4 ∧ a % 4 = 0 then d.busRead32 req a
  else if size = 8 ∧ a % 8 = 0 then (d.busRead32 req a).busRead32 req (a + 4)
  else (if d.onBus req then d.setFlag F.HD_STATUS_BAR0_ERR true else d).emit (.readData req a 0)

/-! ## Commands -/

/-- MULTIWORD_LATCH_READ (R14, R333, R458): a read through BAR0. -/
def execMultiwordLatchRead (req : Req) (addr size : Nat) (s : State) : Answer := s.run (·.busRead req addr size)

/-- TS_W0_POP (R163). -/
def execTsW0Pop (req : Req) (n : Fin 8) (s : State) : Answer := s.run (·.busRead req (A.TS_W n 0) 4)

/-- RES_W0_POP (R169). -/
def execResW0Pop (req : Req) (n : Fin 8) (s : State) : Answer := s.run (·.busRead req (A.RES_W n 0) 4)

/-- DISPATCH_STATUS_READ (R264). -/
def execDispatchStatusRead (req : Req) (n : Fin 4) (s : State) : Answer := s.run (·.busRead req (A.DISPATCH_STATUS n) 4)

/-- CAL_STATE_READ (R266). -/
def execCalStateRead (req : Req) (n l : Fin 4) (s : State) : Answer := s.run (·.busRead req (A.CAL_STATE n l) 4)

/-- TSQ_W0_POP (R345). -/
def execTsqW0Pop (req : Req) (n l : Fin 4) (s : State) : Answer := s.run (·.busRead req (A.TSQ_W n l 0) 4)

/-- GR_EVQ_W0_POP (R393). -/
def execGrEvqW0Pop (req : Req) (s : State) : Answer := s.run (·.busRead req (A.GR_EVQ_W 0) 4)

end Sys2Proof.Machine
end

