-- ==== Sys2Proof/Machine/Bus.lean ====
section
/-! DEFINITION. Writing registers: reach, guards, registers with an action of their own, the actions of SC fields (R12, R16 to R20, R45, R88, R333, R458). -/

namespace Sys2Proof.Machine

/-! ## Registers whose write is an action -/

/-- The ring of a ring bank. -/
def Hit.ring (h : Hit) : Option RingId :=
  let n : Fin 4 := Fin.ofNat 4 (h.die.getD 0)
  let i : Fin 8 := Fin.ofNat 8 h.i
  match h.bank with
  | .rx => some (.rx n i)
  | .tx => some (.tx n i)
  | .cr => some .cmd
  | .er => some .ev
  | _ => none

/-- A register whose write is wholly an action of its chapter. -/
def Hit.action (host : Mem) (h : Hit) (v : Word) : Option (Dev → Dev) :=
  match h.bank with
  | .gbl =>
    if h.row.off = 0x280 then some fun d => Dev.dieCtrl host d (bits 3 0 v)
    else if h.row.off = 0x1000 then some (·.evStatusClear h.w v.toNat)
    else if h.row.off = 0x1010 then some (·.evEnableWrite h.w v.toNat)
    else if h.row.off = 0x1100 then some (·.evRouteWrite h.w v.toNat)
    else none
  | .ts => if h.row.off = 0x200 then some (·.utcBaseWrite (bits 15 0 v)) else none
  | _ => if h.row.off = 0x14 then h.ring.map fun r d => d.ringTailWrite r (bits 15 0 v) else none

/-- A register with an ENABLE field (or STEP_ON_RECOVER) in bit 0 whose write is a request (R45, R144). -/
def Hit.request (host : Mem) (h : Hit) : Option (Dev → Bool → Dev) :=
  let n := h.die.getD 0
  match h.bank, h.row.off with
  | .sel, 0 => some (·.stepOnRecover h.i ·)
  | .tin, 0xC => some (·.inEnable h.i ·)
  | .gn, 0x10 => some (·.gnEnable ·)
  | .tout, 4 => some (·.outEnable h.i ·)
  | .bn, 0x14 => some (·.bnEnable ·)
  | .eng, 0 => some (·.engEnable n h.i ·)
  | .lnk, 4 => some (·.linkEnable n h.i ·)
  | _, 0xC => h.ring.map fun r d want => Dev.ringEnable host d r want
  | _, _ => none

/-- Runs f where bit b of the written word is 1. -/
def Dev.onBit (d : Dev) (v : Word) (b : Nat) (f : Dev → Dev) : Dev := if bit v.toNat b then f d else d

/-- The actions of the SC fields of a stored write (R12). -/
def Dev.actions (d : Dev) (h : Hit) (v : Word) : Dev :=
  let n := h.die.getD 0
  let i := h.i
  match h.bank, h.row.off with
  | .gbl, 0x200 => d.onBit v 5 Dev.modeGo
  | .gbl, 0x308 => d.onBit v 0 Dev.summaryGo
  | .gbl, 0x428 => d.whenUp fun d => (d.onBit v 0 Dev.euSubmit).onBit v 1 Dev.euCancel
  | .gbl, 0x600 => d.whenUp fun d => (d.onBit v 0 Dev.snapGo).onBit v 1 Dev.snapCancel
  | .gbl, 0x808 => (d.onBit v 0 Dev.ntsRotGo).onBit v 1 Dev.ntsRotCancel
  | .ts, 0x20 => d.onBit v 0 Dev.capture
  | .ts, 0x100 => (d.onBit v 3 Dev.castleGo).onBit v 4 Dev.castleCancel
  | .ts, 0x208 =>
    let sec := d.get64 A.LEAP_NEW_SEC % 2 ^ 48
    (d.onBit v 2 fun d => d.leapAdd sec (d.flag F.LEAP_CTRL_DIR) false).onBit v 3 (·.leapWithdraw sec false)
  | .ts, 0x300 => d.onBit v 3 Dev.convert
  | .sc, 0 => (d.onBit v 4 (·.slewGo i)).onBit v 3 (·.apply i)
  | .slot, 0x20 => (d.onBit v 0 (·.disqualify i true)).onBit v 1 (·.disqualify i false)
  | .tin, 0x38 => ((d.onBit v 3 (·.flushMeas i)).onBit v 0 (·.arm i)).onBit v 1 (·.stopMeas i)
  | .gn, 0x10 =>
    (d.onBit v 14 Dev.clearSuspect).onBit v 15 Dev.restartSurvey
  | .gn, 0x21C => d.onBit v 0 Dev.setPosition
  | .gn, 0x404 => (d.onBit v 0 Dev.saveHot).onBit v 1 Dev.eraseHot
  | .band, 0xC => d.onBit v 9 (·.jamCal i)
  | .bn, 0x14 => d.onBit v 4 fun d => (d.bnEnable false).bnEnable true
  | .lnk, 4 => d.onBit v 4 (·.anRestart n i)
  | _, _ => d

/-! ## Writes -/

/-- A write to the NTS keyring: word 0 is staged, word 1 commits the entry (R301). -/
def Dev.ntsPut (d : Dev) (req : Req) (h : Hit) (a : Nat) (v : Word) : Dev :=
  if !h.commits then d.stage req a v
  else
    let (ws, d) := d.gather req h a v
    match d.verdict req h a ws, ws with
    | .store, [(_, id), (_, w1)] => d.ntsWrite h.w id w1
    | _, _ => d.stick h.status 2

/-- A write to a register that needs no arming. -/
def Dev.plainWrite (host : Mem) (d : Dev) (req : Req) (h : Hit) (a : Nat) (v : Word) : Dev :=
  if h.bank = .gbl ∧ (h.row.off = 0x840 ∨ h.row.off = 0x844) then d.ntsPut req h a v
  else match h.action host v with
  | some f => if d.verdict req h a [(a, d.merged req h a v)] = .store then f d else (d.put req h a v).1
  | none =>
    match h.request host with
    | some f =>
      if d.verdict req h a [(a, d.merged req h a v)] = .store then
        -- the other fields are stored with the request bit as it was
        (f (d.store h [(a, d.merged req h a (putBits 0 0 v (bits 0 0 (d.reg a))))]) (bit v.toNat 0)).actions h v
      else (d.put req h a v).1
    | none =>
      let (d, ok) := d.put req h a v
      if ok then d.actions h v else d

/-- The Position permits a guarded write (R20, R113, R212). -/
def Dev.permits (d : Dev) (h : Hit) : Bool :=
  match h.bank with
  | .sc => d.stepAllowed h.i (h.row.off == 0x6C)
  | .opll => d.priv (2 + h.i)
  | _ => true

/-- A write to a guarded register (R18 to R20). -/
def Dev.guardedWrite (d : Dev) (req : Req) (h : Hit) (a : Nat) (v : Word) : Dev :=
  if a = A.RESET_CTRL then d.resetWrite req v
  else
    let (d, ok) := d.guardPass req a
    if !ok then d
    else if !d.permits h then d.stick h.status 1
    else
      let (d, ok) := d.put req h a v
      if !ok then d
      else match h.bank with
      | .sc => if h.row.off = 0x6C then d.stepAbs h.i else d.stepRel h.i
      | .opll => d.opllStep h.i (toSigned 32 v.toNat)
      | _ => d

/-- One aligned 32-bit write. -/
def Dev.write32 (host : Mem) (d : Dev) (req : Req) (a : Nat) (v : Word) : Dev :=
  if !d.onBus req then d
  else
    let d := d.keeperCount 0x0A
    if (req = .host ∧ !d.loaded ∧ !earlyReach a true) ∨ d.gated a then d
    else match lookup a with
    | none => (d.guardTouch req a).stick A.GBL_STATUS 3
    | some h =>
      if guardOf a = some a then d.guardWrite req a v
      else if h.guarded then d.guardedWrite req h a v
      else Dev.plainWrite host (d.guardTouch req a) req h a v

/-- A BAR0 write of a size in bytes (R333): 32 bits, or 64 bits as two writes; any other is discarded. -/
def Dev.busWrite (host : Mem) (d : Dev) (req : Req) (a size v : Nat) : Dev :=
  if size = 4 ∧ a % 4 = 0 then Dev.write32 host d req a (BitVec.ofNat 32 v)
  else if size = 8 ∧ a % 8 = 0 then
    Dev.write32 host (Dev.write32 host d req a (BitVec.ofNat 32 v)) req (a + 4) (BitVec.ofNat 32 (v / 2 ^ 32))
  else if d.onBus req then d.setFlag F.HD_STATUS_BAR0_ERR true else d

/-- A requester's aligned 32-bit write as a command. -/
def State.write (s : State) (req : Req) (a : Nat) (v : Word) : Answer := s.runM fun h _ d => Dev.write32 h d req a v

/-! ## Commands -/

/-- REGISTER_WRITE (R12, R16, R333, R458, R461): a write through BAR0. -/
def execRegisterWrite (req : Req) (addr size v : Nat) (s : State) : Answer := s.runM fun h _ d => Dev.busWrite h d req addr size v

/-- GUARD_WRITE (R18): block 0 keeper global, 1 time-scale, 2 clock. -/
def execGuardWrite (req : Req) (block : Fin 3) (v : Word) (s : State) : Answer :=
  s.write req (if block = 0 then A.GUARD else if block = 1 then A.TS_GUARD else A.CK_GUARD) v

/-- STEP_REL (R114, R115): the write of its highest word. -/
def execStepRel (req : Req) (k : Fin 2) (hi : Word) (s : State) : Answer := s.write req (A.STEP_REL_HI k) hi

/-- STEP_ABS (R113 to R115): the write of its highest word. -/
def execStepAbs (req : Req) (k : Fin 2) (hi : Word) (s : State) : Answer := s.write req (A.STEP_ABS_SEC_HI k) hi

/-- OPLL_PSTEP (R212). -/
def execOpllPstep (req : Req) (k : Fin 2) (v : Word) (s : State) : Answer := s.write req (A.OPLL_PSTEP k) v

/-- NTS_KEY_WRITE (R301): the write of word 1 of an entry, which commits it. -/
def execNtsKeyWrite (req : Req) (k : Fin 4) (v : Word) (s : State) : Answer := s.write req (A.NTS_KEY_1 k) v

end Sys2Proof.Machine
end

