-- ==== Sys2Proof/Machine/Tick.lean ====
section
/-! DEFINITION. What passes with time: one tick of 1.25 ns, made by a step that finds no command waiting (R92, R96, R194, R407, R429 to R434). -/

namespace Sys2Proof.Machine

/-- Cycles of a PLL that end in a tick, and the part of a cycle that is left: num / den cycles per tick at its nominal frequency, above it by off ppb; rem counts in 1 / (den × 10^9) cycle. -/
def cyclesIn (num den off rem : Nat) : Nat × Nat :=
  let x := rem + num * (1000000000 + off)
  (x / (den * 1000000000), x % (den * 1000000000))

/-! ## Counters of the always-on domain -/

/-- The AON counter counts once per 320 ticks (R194). -/
def Dev.tickAon (d : Dev) : Dev :=
  if d.clk.aonRes + 1 < 320 then { d with clk.aonRes := d.clk.aonRes + 1 }
  else ({ d with clk.aonRes := 0, ret.aon := (d.ret.aon + 1) % 2 ^ 48 } : Dev).keeperCount 0x03

/-- TRIAL_REMAIN counts the seconds spent in TRIAL (R89, R407). -/
def Dev.tickTrial (d : Dev) : Dev :=
  if d.mode ≠ .trial then d
  else if d.md.trialRes + 1 < secTicks then { d with md.trialRes := d.md.trialRes + 1 }
  else ({ d with md.trialRes := 0 } : Dev).set F.TRIAL_REMAIN_S (d.get F.TRIAL_REMAIN_S - 1)

/-! ## The raw counter (R92, R96) -/

/-- The raw counter advances by one tick; with the TB-PLL off, by whole oscillator cycles. -/
def Dev.tickRaw (d : Dev) : Dev :=
  if !d.coarse then ({ d with clk.raw := (d.clk.raw + 1) % 2 ^ 64 } : Dev).keeperCount 0x02
  else if d.clk.cycRes + 1 < d.tickStep then { d with clk.cycRes := d.clk.cycRes + 1 }
  else
    ({ d with clk.cycRes := 0, clk.raw := (d.clk.raw + d.tickStep) % 2 ^ 64 } : Dev).keeperCount 0x02 d.tickStep

/-! ## Cycle counters and events per cycle (R429, R430) -/

/-- The keeper's SYS-PLL cycles: 5 per 4 ticks, and what its spread profile adds; the big-number engine runs at half that clock. -/
def Dev.tickSys (d : Dev) : Dev :=
  let (n, rem) := cyclesIn 5 4 (d.spreadNow 1 d.raw) d.clk.sysRes
  let c := d.get64 A.K_CYCLE
  let d := (({ d with clk.sysRes := rem } : Dev).addCycles A.K_CYCLE A.K_CNT_OVF n).keeperCount 0x01 n
  if d.bn.isSome then d.keeperCount 0x0C ((c + n) / 2 - c / 2) else d

/-- Work of the housekeeping cores in one tick. -/
def Dev.tickKeeper (d : Dev) : Dev :=
  let (k, d) := d.draw
  if d.md.coresDown.isSome then d
  else (d.keeperCount 0x04 (Config.coreWork k).1).keeperCount 0x05 (Config.coreWork k).2

/-- One engine of an answer die in one tick that brings cyc cycles of the engine clock. -/
def Dev.tickEngine (d : Dev) (n cyc e : Nat) : Dev :=
  let k := d.threads n e
  let (a, d) := d.draw
  let d := if k = 0 then d
    else ((d.dieCount n (0x10 + e)).dieCount n (0x1C + e) k).dieCount n (0x18 + e) (Config.aesBlocks a)
  if d.flag (F.ENG_STATUS_GATED n e) then d
  else d.dieCount n (0x14 + e) cyc

/-- The ledger's correctable errors of one tick, met by the requests of die n. -/
def Dev.correctable (d : Dev) (n : Nat) : Dev :=
  let (k, d) := d.draw
  let c := Config.ledgerCe k
  ((d.count32 (A.LMC_CE 0) c.1).count32 (A.LMC_CE 1) c.2).dieCount n 0x23 (c.1 + c.2)

/-- One powered answer die in one tick: datapath cycle, and the quantities summed per cycle. -/
def Dev.tickDie (d : Dev) (n : Nat) : Dev :=
  if !d.diePowered n then d else
  let d := d.hostFree n
  let d := (d.addCycles (A.D_CYCLE n) (A.D_CNT_OVF n) 1).dieCount n 0x01
  let lvl := d.get (F.DISPATCH_STATUS_LEVEL n)
  let d := if lvl = 0 then d else (d.dieCount n 0x0E).dieCount n 0x0F lvl
  let (cyc, rem) := if d.flag (pllFallback (4 + n)) then (1, 0) else cyclesIn 15 8 (d.spreadNow (4 + n) d.raw) (d.die n).engRes
  let d := d.setDie n { d.die n with engRes := rem }
  let d := [0, 1, 2, 3].foldl (fun d e => d.tickEngine n cyc e) d
  let reads := ((d.die n).queries.filter fun q => q.stage == .client || q.stage == .grant).length
  let d := (d.dieCount n 0x22 reads).correctable n
  let d := (d.dieCount n 0x24 (d.get (F.ARR_STATUS_CTX_CELLS n))).dieCount n 0x25 (d.get (F.ARR_STATUS_HOST_CELLS n))
  d.dieCount n 0x26 (((d.die n).links.map Lnk.waiting).sum)

/-! ## Raw signals (R433, R434) -/

/-- Mask of the truth values of a list, the first in bit 0. -/
def maskOf : List Bool → Nat
  | [] => 0
  | b :: l => boolNat b + 2 * maskOf l

/-- The keeper's raw signals, bit i for event 0xF0 + i; free: the levels that the model does not hold. -/
def Dev.keeperSignals (d : Dev) (free : Nat) : Nat :=
  maskOf ((List.range 8).map fun i => (d.tim i).level) + 2 ^ 8 * (free / 2 ^ 8 % 2 ^ 5) +
    2 ^ 13 * boolNat d.pcie.perstN + 2 ^ 14 * (free / 2 ^ 14 % 2)

/-- The raw signals of answer die n. -/
def Dev.dieSignals (d : Dev) (n free : Nat) : Nat :=
  free % 2 ^ 8 + 2 ^ 8 * boolNat (d.flag (pllLocked (4 + n))) + 2 ^ 9 * boolNat (d.flag (pllLocked (8 + n))) +
    2 ^ 10 * (3 - (d.die n).pairsLost % 4)

/-- Whether a raw signal counts in this tick, by MODE. -/
def rawHit (mode : Nat) (was now : Bool) : Bool :=
  match mode with
  | 0 => !was && now
  | 1 => was && !now
  | 2 => now
  | _ => !now

/-- Counts raw signals on the first k counters of a bank; answers whether an overflow event is to be raised. -/
def Dev.rawCount (d : Dev) (cfg0 ovf was now : Nat) : Nat → Dev × Bool
  | 0 => (d, false)
  | k + 1 =>
    let (d, r) := Dev.rawCount d cfg0 ovf was now k
    let cfg := cfg0 + 0x20 * k
    let w := d.reg cfg
    let i := bits 7 0 w - 0xF0
    if bit w.toNat 12 && decide (0xF0 ≤ bits 7 0 w) && rawHit (bits 9 8 w) (bit was i) (bit now i) then
      let (d, r') := d.bumpProg cfg ovf k 1
      (d, r || r')
    else (d, r)

/-- Raw signals of the keeper and of the powered dies in one tick; counted in LOAD, TEST and SAFE only. -/
def Dev.tickSignals (d : Dev) : Dev :=
  if !(d.mode == .load || d.mode == .test || d.mode == .safe) then d else
  let (k, d) := d.draw
  let now := d.keeperSignals (Config.rawLevels k)
  let (d, r) := d.rawCount (A.K_CNT_CFG 0) A.K_CNT_OVF d.clk.rawLast now 4
  let d := if r then d.raise 46 A.K_CNT_BLK_STATUS else d
  let d := { d with clk.rawLast := now }
  (List.range 4).foldl (fun d n =>
    if !d.diePowered n then d else
    let (k, d) := d.draw
    let now := d.dieSignals n (Config.rawLevels k)
    let (d, r) := d.rawCount (A.D_CNT_CFG n 0) (A.D_CNT_OVF n) (d.die n).rawLast now 8
    let d := if r then d.raise (dieSrc n 14) (A.D_CNT_BLK_STATUS n) else d
    d.setDie n { d.die n with rawLast := now }) d

/-! ## What follows the timebase -/

/-- The fractional stages take their steps, the grids with them, and spread ramps end (R209, R210, R240); r0: the count before the tick. -/
def Dev.tickClocks (d : Dev) (r0 : Nat) : Dev :=
  let d := [0, 1, 2, 3].foldl (fun d n =>
    let (d, moved) := d.fracStep n r0
    if moved && d.get (F.FRAC_CTRL_FOLLOW n) != 0 then d.gridFollow n else d) d
  [1, 4, 5, 6, 7].foldl (fun d p => d.spreadEnd p) d

/-- The outputs show what the new count brings (R95, R211, R215, R219). -/
def Dev.tickOuts (d : Dev) (r0 : Nat) : Dev :=
  [0, 1, 2, 3].foldl (fun d n => (d.outGrain n r0).showPin n) d

/-- What follows a tick of the timebase; what a snapshot or a summary latches is copied last (R246, R424). -/
def Dev.tickRun (d : Dev) : Dev :=
  let r0 := d.raw
  let d := d.tickRaw.tickKeeper
  let d := [0, 1, 2, 3].foldl (fun d n => d.tickDie n) d
  let d := (List.range 8).foldl (fun d n => d.stopDue n) d
  let d := ((d.tickClocks r0).tickSignals).tickOuts r0
  (levelSources.foldl (fun d s => d.levelCheck s) d).snapCopy.sumCopy

/-- One tick of 1.25 ns. The SYS-PLL runs from LOAD step 1 on (R429), the raw counter from step 4 on (R86, R96). -/
def Dev.tick (d : Dev) : Dev :=
  let d := ({ d with md.age := d.md.age + 1 } : Dev).tickAon.tickTrial
  let d := if d.clk.oscMhz = 0 then d else d.tickSys
  if d.clk.running then d.tickRun else d

/-- A step that finds no command waiting lets one tick pass. -/
def State.tick (s : State) : Answer := s.run Dev.tick

end Sys2Proof.Machine
end

