-- ==== Sys2Proof/Machine/Dispatch.lean ====
section
/-! DEFINITION. The meaning of every command: one arm per constructor of Instr. -/

namespace Sys2Proof.Machine

/-- A command's effect on everything but the queue. -/
def exec (i : Instr) (s : State) : Host.Outcome State Fault Refusal :=
  match i with
  | .registerWrite req addr size v => Sys2Proof.Machine.execRegisterWrite req addr size v s
  | .multiwordLatchRead req addr size => Sys2Proof.Machine.execMultiwordLatchRead req addr size s
  | .guardWrite req block v => Sys2Proof.Machine.execGuardWrite req block v s
  | .bar2Access ofs acc bad => Sys2Proof.Machine.execBar2Access ofs acc bad s
  | .syncWordSend n => Sys2Proof.Machine.execSyncWordSend n s
  | .syncWordReceive n => Sys2Proof.Machine.execSyncWordReceive n s
  | .alignLost n => Sys2Proof.Machine.execAlignLost n s
  | .aligned n => Sys2Proof.Machine.execAligned n s
  | .markerEcho n rtt => Sys2Proof.Machine.execMarkerEcho n rtt s
  | .clockPairLoss n p => Sys2Proof.Machine.execClockPairLoss n p s
  | .laneFailure k up lane => Sys2Proof.Machine.execLaneFailure k up lane s
  | .laneRemapComplete k => Sys2Proof.Machine.execLaneRemapComplete k s
  | .parameterSetPublish dies => Sys2Proof.Machine.execParameterSetPublish dies s
  | .scaleSetApplied k => Sys2Proof.Machine.execScaleSetApplied k s
  | .euSubmit => Sys2Proof.Machine.execEuSubmit s
  | .euCheckComplete kind => Sys2Proof.Machine.execEuCheckComplete kind s
  | .euCancel => Sys2Proof.Machine.execEuCancel s
  | .epochUpdateApply => Sys2Proof.Machine.execEpochUpdateApply s
  | .modeGo => Sys2Proof.Machine.execModeGo s
  | .serveEpoch => Sys2Proof.Machine.execServeEpoch s
  | .modeTransitionComplete => Sys2Proof.Machine.execModeTransitionComplete s
  | .standbyRestartHandover => Sys2Proof.Machine.execStandbyRestartHandover s
  | .resetNLow => Sys2Proof.Machine.execResetNLow s
  | .resetNRise => Sys2Proof.Machine.execResetNRise s
  | .pwrGoodLow => Sys2Proof.Machine.execPwrGoodLow s
  | .vddAonLoss => Sys2Proof.Machine.execVddAonLoss s
  | .deviceReset req v => Sys2Proof.Machine.execDeviceReset req v s
  | .internalReset => Sys2Proof.Machine.execInternalReset s
  | .internalResetPulseEnd => Sys2Proof.Machine.execInternalResetPulseEnd s
  | .bootSafeNSample low => Sys2Proof.Machine.execBootSafeNSample low s
  | .loadStart => Sys2Proof.Machine.execLoadStart s
  | .oscillatorValid crystal khz => Sys2Proof.Machine.execOscillatorValid crystal khz s
  | .loadComplete sigA sigB => Sys2Proof.Machine.execLoadComplete sigA sigB s
  | .pcieReset k => Sys2Proof.Machine.execPcieReset k s
  | .watchdog => Sys2Proof.Machine.execWatchdog s
  | .glitchDetect => Sys2Proof.Machine.execGlitchDetect s
  | .capture => Sys2Proof.Machine.execCapture s
  | .apply k => Sys2Proof.Machine.execApply k s
  | .slewGo k => Sys2Proof.Machine.execSlewGo k s
  | .stepRel req k hi => Sys2Proof.Machine.execStepRel req k hi s
  | .stepAbs req k hi => Sys2Proof.Machine.execStepAbs req k hi s
  | .castlingRequest => Sys2Proof.Machine.execCastlingRequest s
  | .castlingCancel => Sys2Proof.Machine.execCastlingCancel s
  | .castlingDecision => Sys2Proof.Machine.execCastlingDecision s
  | .castlingSwitch => Sys2Proof.Machine.execCastlingSwitch s
  | .castlingComplete => Sys2Proof.Machine.execCastlingComplete s
  | .leapAdd nav => Sys2Proof.Machine.execLeapAdd nav s
  | .leapWithdraw nav => Sys2Proof.Machine.execLeapWithdraw nav s
  | .leapApplied => Sys2Proof.Machine.execLeapApplied s
  | .utcBaseWrite v => Sys2Proof.Machine.execUtcBaseWrite v s
  | .convert => Sys2Proof.Machine.execConvert s
  | .selectorEvaluation synce => Sys2Proof.Machine.execSelectorEvaluation synce s
  | .measureEnd k => Sys2Proof.Machine.execMeasureEnd k s
  | .wtrExpiry k slot => Sys2Proof.Machine.execWtrExpiry k slot s
  | .disagreementPersists k slot => Sys2Proof.Machine.execDisagreementPersists k slot s
  | .lockQualified k => Sys2Proof.Machine.execLockQualified k s
  | .signalTimeout slot lost => Sys2Proof.Machine.execSignalTimeout slot lost s
  | .holdoverExpired k => Sys2Proof.Machine.execHoldoverExpired k s
  | .tbPllCoastTimeout => Sys2Proof.Machine.execTbPllCoastTimeout s
  | .disq slot => Sys2Proof.Machine.execDisq slot s
  | .release slot => Sys2Proof.Machine.execRelease slot s
  | .stepOnRecoverWrite k v => Sys2Proof.Machine.execStepOnRecoverWrite k v s
  | .inputEdge n level code irig => Sys2Proof.Machine.execInputEdge n level code irig s
  | .candidateAccept n irig => Sys2Proof.Machine.execCandidateAccept n irig s
  | .candidateReject n => Sys2Proof.Machine.execCandidateReject n s
  | .startTimeout n => Sys2Proof.Machine.execStartTimeout n s
  | .calibrationComplete n hits => Sys2Proof.Machine.execCalibrationComplete n hits s
  | .delayLineSwap n => Sys2Proof.Machine.execDelayLineSwap n s
  | .gateOpen n => Sys2Proof.Machine.execGateOpen n s
  | .gateClose n => Sys2Proof.Machine.execGateClose n s
  | .gateResult n => Sys2Proof.Machine.execGateResult n s
  | .arm n => Sys2Proof.Machine.execArm n s
  | .stop n => Sys2Proof.Machine.execStop n s
  | .flush n => Sys2Proof.Machine.execFlush n s
  | .tsW0Pop req n => Sys2Proof.Machine.execTsW0Pop req n s
  | .resW0Pop req n => Sys2Proof.Machine.execResW0Pop req n s
  | .inCtrlEnable n want => Sys2Proof.Machine.execInCtrlEnable n want s
  | .inputTransitionComplete n => Sys2Proof.Machine.execInputTransitionComplete n s
  | .bandDown b => Sys2Proof.Machine.execBandDown b s
  | .bandUp b => Sys2Proof.Machine.execBandUp b s
  | .agcUpdate b rms => Sys2Proof.Machine.execAgcUpdate b rms s
  | .spectrum b lines => Sys2Proof.Machine.execSpectrum b lines s
  | .jamCal b => Sys2Proof.Machine.execJamCal b s
  | .acquisitionSearch aided found => Sys2Proof.Machine.execAcquisitionSearch aided found s
  | .channelLossOfLock ch pll => Sys2Proof.Machine.execChannelLossOfLock ch pll s
  | .measurementEpoch b edge s0 s1 ms nav utc => Sys2Proof.Machine.execMeasurementEpoch b edge s0 s1 ms nav utc s
  | .solutionPublish q => Sys2Proof.Machine.execSolutionPublish q s
  | .gnssSuspectSet => Sys2Proof.Machine.execGnssSuspectSet s
  | .gnssSuspectClear => Sys2Proof.Machine.execGnssSuspectClear s
  | .shortHoldoverEnd => Sys2Proof.Machine.execShortHoldoverEnd s
  | .surveyComplete => Sys2Proof.Machine.execSurveyComplete s
  | .set => Sys2Proof.Machine.execSet s
  | .surveyRestart => Sys2Proof.Machine.execSurveyRestart s
  | .suspectClr => Sys2Proof.Machine.execSuspectClr s
  | .gnCtrlEnable want => Sys2Proof.Machine.execGnCtrlEnable want s
  | .gnssTransitionComplete => Sys2Proof.Machine.execGnssTransitionComplete s
  | .dutyWake => Sys2Proof.Machine.execDutyWake s
  | .dutySleep => Sys2Proof.Machine.execDutySleep s
  | .hotStartPeriodicSave => Sys2Proof.Machine.execHotStartPeriodicSave s
  | .save => Sys2Proof.Machine.execSave s
  | .erase => Sys2Proof.Machine.execErase s
  | .oscillatorLoss => Sys2Proof.Machine.execOscillatorLoss s
  | .oscillatorReturn => Sys2Proof.Machine.execOscillatorReturn s
  | .pllWindow p count ctl => Sys2Proof.Machine.execPllWindow p count ctl s
  | .pllLockDeclared p => Sys2Proof.Machine.execPllLockDeclared p s
  | .pllUnlockDeclared p => Sys2Proof.Machine.execPllUnlockDeclared p s
  | .referenceLoss p => Sys2Proof.Machine.execReferenceLoss p s
  | .fastCheckWindow n ppm => Sys2Proof.Machine.execFastCheckWindow n ppm s
  | .fallbackReturn n => Sys2Proof.Machine.execFallbackReturn n s
  | .opllPstep req k v => Sys2Proof.Machine.execOpllPstep req k v s
  | .phaseMoveStart k => Sys2Proof.Machine.execPhaseMoveStart k s
  | .phaseMoveComplete k => Sys2Proof.Machine.execPhaseMoveComplete k s
  | .realignResume k => Sys2Proof.Machine.execRealignResume k s
  | .outCtrlEnable n want => Sys2Proof.Machine.execOutCtrlEnable n want s
  | .outputTransitionComplete n => Sys2Proof.Machine.execOutputTransitionComplete n s
  | .stagedApply n => Sys2Proof.Machine.execStagedApply n s
  | .irigBFrame n => Sys2Proof.Machine.execIrigBFrame n s
  | .linkCtrlEnable n l want => Sys2Proof.Machine.execLinkCtrlEnable n l want s
  | .linkTransitionComplete n l => Sys2Proof.Machine.execLinkTransitionComplete n l s
  | .anRestart n l => Sys2Proof.Machine.execAnRestart n l s
  | .negotiationComplete n l ok => Sys2Proof.Machine.execNegotiationComplete n l ok s
  | .linkUp n l => Sys2Proof.Machine.execLinkUp n l s
  | .linkDown n l => Sys2Proof.Machine.execLinkDown n l s
  | .gridMeasurement n l err => Sys2Proof.Machine.execGridMeasurement n l err s
  | .gridReanchor n l => Sys2Proof.Machine.execGridReanchor n l s
  | .gridOkRestored n l => Sys2Proof.Machine.execGridOkRestored n l s
  | .receiveFrame n l mii f codeErr => Sys2Proof.Machine.execReceiveFrame n l mii f codeErr s
  | .clientRead n l ecc => Sys2Proof.Machine.execClientRead n l ecc s
  | .grantCheck n l ecc => Sys2Proof.Machine.execGrantCheck n l ecc s
  | .dispatch n => Sys2Proof.Machine.execDispatch n s
  | .threadComplete n q => Sys2Proof.Machine.execThreadComplete n q s
  | .engineClockGate n e => Sys2Proof.Machine.execEngineClockGate n e s
  | .lateCheck n l => Sys2Proof.Machine.execLateCheck n l s
  | .frameLaunch n l => Sys2Proof.Machine.execFrameLaunch n l s
  | .orderingInstant n => Sys2Proof.Machine.execOrderingInstant n s
  | .hostWindowOpen n l => Sys2Proof.Machine.execHostWindowOpen n l s
  | .hostFrameFetch n t => Sys2Proof.Machine.execHostFrameFetch n t s
  | .reservedSlotOccurrence n l k => Sys2Proof.Machine.execReservedSlotOccurrence n l k s
  | .grantExpiry n l => Sys2Proof.Machine.execGrantExpiry n l s
  | .bmca n c => Sys2Proof.Machine.execBmca n c s
  | .referenceMessage m => Sys2Proof.Machine.execReferenceMessage m s
  | .streamGrantRequest m => Sys2Proof.Machine.execStreamGrantRequest m s
  | .engCtrlEnable n e want => Sys2Proof.Machine.execEngCtrlEnable n e want s
  | .drainComplete n e => Sys2Proof.Machine.execDrainComplete n e s
  | .engineStartUpComplete n e => Sys2Proof.Machine.execEngineStartUpComplete n e s
  | .engineFatalError n e => Sys2Proof.Machine.execEngineFatalError n e s
  | .engineRejoin n e => Sys2Proof.Machine.execEngineRejoin n e s
  | .dieCtrlEnable v => Sys2Proof.Machine.execDieCtrlEnable v s
  | .dieTransitionComplete n => Sys2Proof.Machine.execDieTransitionComplete n s
  | .statSnapGo => Sys2Proof.Machine.execStatSnapGo s
  | .statSnapCancel => Sys2Proof.Machine.execStatSnapCancel s
  | .snapshotLatch => Sys2Proof.Machine.execSnapshotLatch s
  | .snapshotComplete => Sys2Proof.Machine.execSnapshotComplete s
  | .counterWrap die k => Sys2Proof.Machine.execCounterWrap die k s
  | .dispatchStatusRead req n => Sys2Proof.Machine.execDispatchStatusRead req n s
  | .calStateRead req n l => Sys2Proof.Machine.execCalStateRead req n l s
  | .ntsKeyWrite req k v => Sys2Proof.Machine.execNtsKeyWrite req k v s
  | .ntsRotGo => Sys2Proof.Machine.execNtsRotGo s
  | .ntsRotCancel => Sys2Proof.Machine.execNtsRotCancel s
  | .ntsKeyRotation => Sys2Proof.Machine.execNtsKeyRotation s
  | .ringTailWrite r v => Sys2Proof.Machine.execRingTailWrite r v s
  | .ringCtrlEnable r want => Sys2Proof.Machine.execRingCtrlEnable r want s
  | .ringTransitionComplete r => Sys2Proof.Machine.execRingTransitionComplete r s
  | .hostDmaError r input => Sys2Proof.Machine.execHostDmaError r input s
  | .ringIrqHoldoff r => Sys2Proof.Machine.execRingIrqHoldoff r s
  | .tsqW0Pop req n l => Sys2Proof.Machine.execTsqW0Pop req n l s
  | .nop => Sys2Proof.Machine.execNop s
  | .hostTime => Sys2Proof.Machine.execHostTime s
  | .ledgerCopy bad => Sys2Proof.Machine.execLedgerCopy bad s
  | .commandCompletion => Sys2Proof.Machine.execCommandCompletion s
  | .modadd => Sys2Proof.Machine.execModadd s
  | .modsub => Sys2Proof.Machine.execModsub s
  | .modmul => Sys2Proof.Machine.execModmul s
  | .modexp => Sys2Proof.Machine.execModexp s
  | .modexpCrt => Sys2Proof.Machine.execModexpCrt s
  | .modinv => Sys2Proof.Machine.execModinv s
  | .ecdsaSign => Sys2Proof.Machine.execEcdsaSign s
  | .ecdsaVerify => Sys2Proof.Machine.execEcdsaVerify s
  | .ed25519Sign => Sys2Proof.Machine.execEd25519Sign s
  | .ed25519Verify => Sys2Proof.Machine.execEd25519Verify s
  | .x25519 => Sys2Proof.Machine.execX25519 s
  | .pmul => Sys2Proof.Machine.execPmul s
  | .sha => Sys2Proof.Machine.execSha s
  | .bigNumberOperationComplete => Sys2Proof.Machine.execBigNumberOperationComplete s
  | .keyGen => Sys2Proof.Machine.execKeyGen s
  | .keyImportBegin => Sys2Proof.Machine.execKeyImportBegin s
  | .keyImport => Sys2Proof.Machine.execKeyImport s
  | .keyExport => Sys2Proof.Machine.execKeyExport s
  | .keyErase => Sys2Proof.Machine.execKeyErase s
  | .keyInfo => Sys2Proof.Machine.execKeyInfo s
  | .idSign => Sys2Proof.Machine.execIdSign s
  | .importSessionExpiry => Sys2Proof.Machine.execImportSessionExpiry s
  | .fuseProg => Sys2Proof.Machine.execFuseProg s
  | .debugChallenge => Sys2Proof.Machine.execDebugChallenge s
  | .debugUnlock => Sys2Proof.Machine.execDebugUnlock s
  | .challengeExpiry => Sys2Proof.Machine.execChallengeExpiry s
  | .ntsMint => Sys2Proof.Machine.execNtsMint s
  | .tlsSign => Sys2Proof.Machine.execTlsSign s
  | .bnCtrlEnable want => Sys2Proof.Machine.execBnCtrlEnable want s
  | .abort => Sys2Proof.Machine.execAbort s
  | .wipeComplete => Sys2Proof.Machine.execWipeComplete s
  | .bnStartUpComplete => Sys2Proof.Machine.execBnStartUpComplete s
  | .updOpen => Sys2Proof.Machine.execUpdOpen s
  | .updBlock flashOk => Sys2Proof.Machine.execUpdBlock flashOk s
  | .updClose => Sys2Proof.Machine.execUpdClose s
  | .updAbort => Sys2Proof.Machine.execUpdAbort s
  | .confirm => Sys2Proof.Machine.execConfirm s
  | .reject => Sys2Proof.Machine.execReject s
  | .trialAutoConfirm => Sys2Proof.Machine.execTrialAutoConfirm s
  | .ringQuery => Sys2Proof.Machine.execRingQuery s
  | .ringEvent => Sys2Proof.Machine.execRingEvent s
  | .setRead => Sys2Proof.Machine.execSetRead s
  | .setWrite => Sys2Proof.Machine.execSetWrite s
  | .queryTimeout => Sys2Proof.Machine.execQueryTimeout s
  | .ringPortUp p => Sys2Proof.Machine.execRingPortUp p s
  | .ringPortDown p => Sys2Proof.Machine.execRingPortDown p s
  | .compareSend p => Sys2Proof.Machine.execCompareSend p s
  | .compare p at16 f => Sys2Proof.Machine.execCompare p at16 f s
  | .event p f => Sys2Proof.Machine.execEvent p f s
  | .snapshot p f => Sys2Proof.Machine.execSnapshot p f s
  | .query p f => Sys2Proof.Machine.execQuery p f s
  | .queryReply p f => Sys2Proof.Machine.execQueryReply p f s
  | .updOpenMessage p f => Sys2Proof.Machine.execUpdOpenMessage p f s
  | .updData p f flashOk => Sys2Proof.Machine.execUpdData p f flashOk s
  | .updCloseMessage p f => Sys2Proof.Machine.execUpdCloseMessage p f s
  | .updAbortMessage p f => Sys2Proof.Machine.execUpdAbortMessage p f s
  | .updReply p f => Sys2Proof.Machine.execUpdReply p f s
  | .blockRetry => Sys2Proof.Machine.execBlockRetry s
  | .sessionTimeout => Sys2Proof.Machine.execSessionTimeout s
  | .grEvqW0Pop req => Sys2Proof.Machine.execGrEvqW0Pop req s
  | .evEnableWrite w v => Sys2Proof.Machine.execEvEnableWrite w v s
  | .evStatusClear w v => Sys2Proof.Machine.execEvStatusClear w v s
  | .evRouteWrite src v => Sys2Proof.Machine.execEvRouteWrite src v s
  | .msixUnmask v w x => Sys2Proof.Machine.execMsixUnmask v w x s
  | .summaryGo => Sys2Proof.Machine.execSummaryGo s
  | .summaryLatch src => Sys2Proof.Machine.execSummaryLatch src s
  | .summaryWritten fail => Sys2Proof.Machine.execSummaryWritten fail s
  | .smbusId => Sys2Proof.Machine.execSmbusId s
  | .smbusMode => Sys2Proof.Machine.execSmbusMode s
  | .smbusSel => Sys2Proof.Machine.execSmbusSel s
  | .temp k t => Sys2Proof.Machine.execTemp k t s
  | .sumTake pecBad => Sys2Proof.Machine.execSumTake pecBad s
  | .sumState => Sys2Proof.Machine.execSumState s
  | .sumPtr v pecBad => Sys2Proof.Machine.execSumPtr v pecBad s
  | .sumRead => Sys2Proof.Machine.execSumRead s
  | .resetReq v pecBad => Sys2Proof.Machine.execResetReq v pecBad s
  | .smbusTimeout => Sys2Proof.Machine.execSmbusTimeout s
  | .lockstepMismatch => Sys2Proof.Machine.execLockstepMismatch s
  | .housekeepingCoreRestart => Sys2Proof.Machine.execHousekeepingCoreRestart s
  | .uncorrectableError die => Sys2Proof.Machine.execUncorrectableError die s
  | .temperatureAlarm k t => Sys2Proof.Machine.execTemperatureAlarm k t s
  | .thermalShutdown k t => Sys2Proof.Machine.execThermalShutdown k t s
  | .thermalRecovery ts => Sys2Proof.Machine.execThermalRecovery ts s
  | .faultRecordWrite => Sys2Proof.Machine.execFaultRecordWrite s
  | .pwrGoodRise => Sys2Proof.Machine.execPwrGoodRise s
  | .perstNRise => Sys2Proof.Machine.execPerstNRise s
  | .pcieLinkUp speed width => Sys2Proof.Machine.execPcieLinkUp speed width s
  | .configurationRequest d3 busMaster msixEn funcMask => Sys2Proof.Machine.execConfigurationRequest d3 busMaster msixEn funcMask s
  | .syncWordMiss n => Sys2Proof.Machine.execSyncWordMiss n s
  | .ledgerDieLoss m => Sys2Proof.Machine.execLedgerDieLoss m s
  | .calendarCycleStart n l => Sys2Proof.Machine.execCalendarCycleStart n l s
  | .blockLock n l pcs am fec ber skew errs prbs => Sys2Proof.Machine.execBlockLock n l pcs am fec ber skew errs prbs s
  | .detectionVerification ch ok => Sys2Proof.Machine.execDetectionVerification ch ok s
  | .ratioRampComplete n => Sys2Proof.Machine.execRatioRampComplete n s
  | .tableScrub n l => Sys2Proof.Machine.execTableScrub n l s

end Sys2Proof.Machine
end

