-- ==== Sys2Proof/Safety.lean ====
section
/-! DEFINITION. What counts as a safe state; what a command does and what it leaves alone, in the terms that the statements use. -/

namespace Sys2Proof.Machine

/-- The memories of a state are in canonical form, and every posted write has been made. -/
structure State.Safe (s : State) : Prop where
  host : Memory.wf s.host = true
  ledger : Memory.wf s.ledger = true
  flash : Memory.wf s.flash = true
  posted : s.dev.posted = []
  lposted : s.dev.lposted = []
  fposted : s.dev.fposted = []

/-- The fixed numbers of like things have not changed: 12 slots and views of a slot, 8 timing inputs, 4 answer dies with 4 links, 4 engines and 8 transmit rings each, and so on. -/
structure State.Shaped (s : State) : Prop where
  srcs : s.dev.refs.srcs.length = 12
  views : s.dev.refs.selA.views.length = 12 ∧ s.dev.refs.selB.views.length = 12
  tin : s.dev.tin.length = 8 ∧ ∀ x ∈ s.dev.tin, x.tables.length = 2
  bands : s.dev.gn.bands.length = 2
  channels : s.dev.gn.channels.length = 96
  plls : s.dev.cks.plls.length = 12
  oplls : s.dev.cks.oplls.length = 2
  outs : s.dev.cks.outs.length = 4
  fracs : s.dev.cks.fracs.length = 4
  dies : s.dev.dies.length = 4
  die : ∀ x ∈ s.dev.dies, x.links.length = 4 ∧ x.engines.length = 4 ∧ x.txq.length = 8
  hot : s.dev.ret.hot.length = 2 ∧ s.dev.ret.hotNew < 2
  streams : s.dev.streams.length = 8
  msix : s.dev.pcie.msix.length = 64
  slots : s.dev.keys.slots.length = 16
  ports : s.dev.ring.ports.length = 2
  temps : s.dev.temps.length = 7
  hdrs : s.dev.nv.hdrs.length = 2 ∧ ∀ h, some h ∈ s.dev.nv.hdrs → h.banks.length = 2 ∧ h.slots.length = 2
  sets : s.dev.nv.sets.length = 2 ∧ ∀ l ∈ s.dev.nv.sets, l.length = 2

/-- The command c, met in state s, answers a next state of which P holds. -/
def Does (c : Instr) (s : State) (P : State → Prop) : Prop := ∃ t, exec c s = .next t ∧ P t

/-- A request for service (want) or for shutdown of a block with these ENABLE, STATE and LATCHED fields (R46, R47, R50), from device d to device e. -/
structure EnableRule (en st la : Fld) (want : Bool) (d e : Dev) : Prop where
  enable : e.flag en = want
  running : d.get st = 0 → e.get st = (if want then 0 else 1) ∧ e.flag la = false
  stopping : d.get st = 1 → e.get st = 1 ∧ e.flag la = want
  stopped : d.get st = 2 → e.get st = (if want then 3 else 2) ∧ e.flag la = false
  starting : d.get st = 3 → e.get st = 3 ∧ e.flag la = !want

/-- A command ring entry with this opcode is next, may be executed now, and passes the checks of its lengths and of the mode (R349, R353). -/
structure State.Takes (s : State) (op : Nat) (c : CmdRun) : Prop where
  next : s.dev.nextCmd s.host = some c
  opcode : c.opcode = op
  free : s.dev.unitBusy op = false
  cores : cmdUnit op = some 0 → s.dev.md.coresDown = none
  accepted : s.dev.cmdRefusal s.host c = none

/-- From state s to state t the command c has been taken from the ring with a result, or with none while its unit works (R349). -/
structure State.Took (s t : State) (c : CmdRun) (r : Option (Nat × List Byte)) : Prop where
  cmds : t.dev.pcie.cmds = s.dev.pcie.cmds ++ [{ c with result := r, input := if r.isSome then [] else c.input }]
  fetched : (t.dev.ringRt A.CMDR_BASE).fetched = (s.dev.ringRt A.CMDR_BASE).fetched + 1
  others : ∀ g, g ≠ A.CMDR_BASE → g ≠ A.EVR_BASE → t.dev.ringRt g = s.dev.ringRt g

/-- A command of the big-number engine is next and passes the checks of its lengths and of the mode; the engine is RUNNING and idle, and no earlier command waits for it (R364, R372). -/
structure State.BnIdle (s : State) (op : Nat) (c : CmdRun) : Prop where
  next : s.dev.nextCmd s.host = some c
  opcode : c.opcode = op
  accepted : s.dev.cmdRefusal s.host c = none
  idle : s.dev.bn = none
  running : s.dev.get F.BN_CTRL_STATE = 0
  first : ∀ k ∈ s.dev.pcie.cmds, k.result = none → cmdUnit k.opcode ≠ some 2

/-! ## What delivering events may change -/

/-- Registers that raising an event or counting may change: event status, HEAD and the counts of the event ring, the values and overflow flags of the keeper's programmable counters. -/
def eventReg (a : Nat) : Bool :=
  decide (0x1000 ≤ a ∧ a < 0x1010) || a == 0x80210 || a == 0x80220 || a == 0x80224 || a == 0x90004 ||
    (decide (0x90100 ≤ a ∧ a < 0x90180) && (a % 0x20 == 8 || a % 0x20 == 12))

/-- Values and overflow flags of the programmable counters of the answer dies. -/
def dieCntReg (a : Nat) : Bool :=
  decide (0x100000 ≤ a) && (a % 0x100000 == 0x90004 ||
    (decide (0x90100 ≤ a % 0x100000 ∧ a % 0x100000 < 0x90200) && (a % 0x20 == 8 || a % 0x20 == 12)))

/-- Places of host memory that a delivery writes: a record of the event ring, the address of an MSI-X vector. -/
def Dev.EventPlace (d : Dev) (a n : Nat) : Prop :=
  (n = 32 ∧ ∃ i, (i = d.get (ringHead A.EVR_BASE) ∨ i < d.ringSize A.EVR_BASE) ∧ a = d.descAddr A.EVR_BASE i) ∨
    (n = 4 ∧ ∃ e ∈ d.pcie.msix, a = e.addr)

/-- A byte of host memory that a delivery may write. -/
def Dev.EventByte (d : Dev) (a : Nat) : Prop := ∃ x n, d.EventPlace x n ∧ x ≤ a ∧ a < x + n

/-- A posted write that a delivery makes. -/
def Dev.EventOp (d : Dev) : MemOp → Prop
  | .wr a bs => d.EventPlace a bs.length
  | _ => False

/-- An output that is an MSI-X message. -/
def Output.isMsix : Output → Bool
  | .msix _ _ _ => true
  | _ => false

/-- Device e is device d but for registers of R and for events raised and counted: event and counter registers, MSI-X and event-ring state, messages, writes to the event ring. -/
structure Dev.Only (R : Nat → Prop) (d e : Dev) : Prop where
  rest : { e with bus := d.bus, pcie := d.pcie, out := d.out, posted := d.posted } = d
  bus : { e.bus with regs := d.bus.regs } = d.bus
  pcie : { e.pcie with msix := d.pcie.msix, rings := d.pcie.rings, raised := d.pcie.raised } = d.pcie
  reg : ∀ a, eventReg a = false → dieCntReg a = false → ¬ R a → e.reg a = d.reg a
  /-- MSI-X vectors keep their addresses. -/
  vectors : ∀ v ∈ e.pcie.msix, ∃ w ∈ d.pcie.msix, v.addr = w.addr
  /-- Rings other than the event ring keep what the device notes of them. -/
  rings : ∀ r, r ≠ A.EVR_BASE → e.ringRt r = d.ringRt r
  /-- The event ring keeps its place; its HEAD moves within it. -/
  place : e.get64 A.EVR_BASE = d.get64 A.EVR_BASE ∧ e.ringSize A.EVR_BASE = d.ringSize A.EVR_BASE
  head : e.get (ringHead A.EVR_BASE) = d.get (ringHead A.EVR_BASE) ∨ e.get (ringHead A.EVR_BASE) < d.ringSize A.EVR_BASE
  posted : ∃ ws, e.posted = d.posted ++ ws ∧ ∀ w ∈ ws, d.EventOp w
  out : ∃ os, e.out = os ++ d.out ∧ ∀ o ∈ os, o.isMsix = true

/-- Device e differs from d only by events raised and counted. -/
abbrev Dev.Quiet (d e : Dev) : Prop := Dev.Only (fun _ => False) d e

/-- State t is state s but for registers of R: no event, no message, memory and everything else in the device as before. -/
structure State.Still (R : Nat → Prop) (s t : State) : Prop where
  dev : { t.dev with bus.regs := s.dev.bus.regs } = s.dev
  reg : ∀ a, ¬ R a → t.dev.reg a = s.dev.reg a
  host : ∀ a, t.host.get a = s.host.get a
  ledger : ∀ a, t.ledger.get a = s.ledger.get a
  flash : ∀ a, t.flash.get a = s.flash.get a
  pending : t.pending = s.pending

/-- State s with the command ring and the count of free values as in state t. -/
def State.tookBy (s t : State) : State :=
  { s with dev := { s.dev with pcie.cmds := t.dev.pcie.cmds, pcie.rings := t.dev.pcie.rings, freeCtr := t.dev.freeCtr } }

/-- The engine's job for a command that comes to the work w, begun at a raw count. -/
def Work.job (w : Work) (c : CmdRun) (raw : Nat) : BnJob :=
  let j : BnJob := { desc := c.desc, opcode := c.opcode, start := raw, due := raw + w.dur, code := w.code }
  { j with out := w.out, writes := w.writes, fx := w.fx }

/-- From state s to state t the engine has begun the command c, which comes to the work w at the end of its duration (R367, R369). -/
structure State.BnRuns (s t : State) (c : CmdRun) (w : Work) : Prop where
  took : s.Took t c none
  job : t.dev.bn = some (w.job c s.dev.raw)
  busy : t.dev.flag F.BN_OP_BUSY = true
  opcode : t.dev.get F.BN_OP_OPCODE = c.opcode % 256
  keys : { t.dev.keys with session := s.dev.keys.session, challenge := s.dev.keys.challenge } = s.dev.keys
  still : State.Still (· = A.BN_OP) { s.tookBy t with dev := { (s.tookBy t).dev with bn := t.dev.bn, keys := t.dev.keys } } t

/-- The n bytes of registers from offset a. -/
def Span (a n : Nat) : Nat → Prop := fun x => a ≤ x ∧ x < a + n

/-- The n bytes of live counters from offset a, and of their snapshot copies up bytes further (R246). -/
def Counted (a n up : Nat) : Nat → Prop := fun x => Span a n x ∨ Span (a + up) n x

/-- State t is state s but for registers of R and events: memory outside the places of deliveries, the waiting commands and everything else in the device stay. -/
structure State.Frame (R : Nat → Prop) (s t : State) : Prop where
  rest : { t.dev with bus := s.dev.bus, pcie := s.dev.pcie, out := s.dev.out } = s.dev
  bus : { t.dev.bus with regs := s.dev.bus.regs } = s.dev.bus
  pcie : { t.dev.pcie with msix := s.dev.pcie.msix, rings := s.dev.pcie.rings, raised := s.dev.pcie.raised } = s.dev.pcie
  reg : ∀ a, eventReg a = false → dieCntReg a = false → ¬ R a → t.dev.reg a = s.dev.reg a
  rings : ∀ r, r ≠ A.EVR_BASE → t.dev.ringRt r = s.dev.ringRt r
  /-- Nothing is put out but MSI-X messages. -/
  out : t.dev.out.filter (fun o => !o.isMsix) = s.dev.out.filter (fun o => !o.isMsix)
  host : ∀ a, ¬ s.dev.EventByte a → t.host.get a = s.host.get a
  ledger : ∀ a, t.ledger.get a = s.ledger.get a
  flash : ∀ a, t.flash.get a = s.flash.get a
  pending : t.pending = s.pending

/-- The command c, met in state s, is a write that makes register a read v against a limit of the Position (R61): it is discarded, LIMIT_ERR (bit 2) of the block's status register b is set, and nothing else changes. -/
def State.Limits (s : State) (c : Instr) (a : Nat) (v : Word) (b : Nat) : Prop :=
  s.dev.limitOk [(a, v)] = false → Does c s fun t => bit (t.dev.reg b).toNat 2 = true ∧ State.Still (· = b) s t

/-- Register a as a write of bit 0 alone leaves it: the request bit of a block (R45). -/
def Dev.bit0 (d : Dev) (a : Nat) (b : Bool) : Word := putBits 0 0 (d.reg a) (boolNat b)

/-- Requester q holds an arming of register a in the block of GUARD register g, less than 8,000 ticks old (R18). -/
def Dev.Armed (d : Dev) (q : Req) (g a : Nat) : Prop :=
  ∃ x, d.armOf q g = some x ∧ x.target = a % 65536 ∧ d.raw < x.since + 8000

/-- What a commit by requester q takes for the lower word b of a group: what q has staged, or the word as it stands (R16). -/
def Dev.lower (d : Dev) (q : Req) (b : Nat) : Word := ((d.bus.staged.find? fun y => y.1 == (q, b)).map (·.2)).getD (d.reg b)

/-- From state s to state t a step of scale k by rel, after the absolute setting abs where there is one, has entered the set at epoch e, which follows set p; it is the pending set, or the end set that stood at e, with what was merged into that before (R113 to R115). cause: what it adds to CAUSE. -/
structure State.Steps (s t : State) (k : Fin 2) (e : Nat) (p : PSet) (abs : Option Int) (rel : Int) (cause : Nat) : Prop where
  set : ∀ c, c = ((s.dev.scale k).ends.find? (·.epoch = e)).bind (·.chg) →
    ∃ n ∈ (t.dev.scale k).sets, n.epoch = e ∧
      n.ofs = abs.getD ((c.bind (·.abs)).getD (p.eval (ticks16 e)) + (c.map (·.step)).getD 0) + rel ∧
      n.cause = ((c.map (·.cause)).getD 0 ||| cause) ||| (if p.slew.any (fun f => decide (f.endEpoch = e)) then 8 else 0)
  pend : (∀ y ∈ (s.dev.scale k).ends, y.epoch ≠ e) → ∃ n, (t.dev.scale k).pend = some n ∧ n.epoch = e
  shown : t.dev.flag (F.SC_STATUS_PENDING k) = (t.dev.scale k).pend.isSome ∧ t.dev.get (F.SC_STATUS_LAST_CODE k) = 0
  journal : (t.dev.scale k).journal = (s.dev.scale k).journal
  others : ∀ j : Fin 2, j ≠ k → t.dev.scale j = s.dev.scale j

/-! ## Boot headers and ring frames -/

/-- From d to e a boot header with these banks and slots has been written: it is the newest with the next SEQ, the one in force before is kept, and the registers show it (R397). -/
structure Dev.Header (d e : Dev) (h : BootHdr) : Prop where
  now : e.nv.hdr = some { h with seq := d.hdr.seq + 1 }
  kept : ∀ x, d.nv.hdr = some x → some x ∈ e.nv.hdrs
  size : e.nv.hdrs.length = 2
  seq : e.get F.HDR_SEQ_SEQ = (d.hdr.seq + 1) % 2 ^ 32
  shown : ∀ k b, k < 2 → b < 2 →
    e.get (F.UPD_BANK_0_STATE (2 * k + b)) = (h.rec' k b).state % 8 ∧
    e.flag (F.UPD_BANK_0_ACTIVE (2 * k + b)) = (h.activeOf k == b) ∧
    e.flag (F.UPD_BANK_0_DOWNGRADE_OK (2 * k + b)) = (h.rec' k b).dgOk ∧
    e.get (F.UPD_BANK_1_GEN (2 * k + b)) = (h.rec' k b).gen % 2 ^ 32 ∧
    e.get (F.UPD_BANK_2_ID (2 * k + b)) = (h.rec' k b).id % 2 ^ 32 ∧
    e.get (F.UPD_BANK_3_SIZE (2 * k + b)) = (h.rec' k b).size % 2 ^ 32

/-- Registers of the update logic but TRIAL_HOLD and SET_STATUS. -/
def updReg (a : Nat) : Prop := Span A.UPD_SESSION 0x50 a ∨ a = A.HDR_SEQ

/-- State s with the update session, the boot headers, and the use of the ring ports as in state t. -/
def State.updBy (s t : State) : State :=
  { s with dev := { s.dev with upd := t.dev.upd, nv.hdrs := t.dev.nv.hdrs, ring.ports := t.dev.ring.ports } }

/-- State s with one frame of a message more sent out of port p, from a raw tick on. -/
def State.sent (s : State) (p at' : Nat) (m : Msg) : State :=
  { s with dev.out := .ringFrame p at' m.bytes :: s.dev.out }

/-- A frame f that arrives on port p is message m, of type ty; the port is up (R386, R387). -/
structure State.Arrives (s : State) (p : Nat) (f : List Byte) (ty : Nat) (m : Msg) : Prop where
  up : s.dev.portUp p = true
  parsed : parseMsg f = some m
  type : m.ty = ty

/-- An UPD_REPLY to a message of a session (R399). -/
def replyMsg (origin : List Byte) (seq ty code index : Nat) : Msg :=
  { ty := 0x14, hops := 0, reply := true, origin := origin, seq := seq, payload := [byte ty, byte code, 0, 0] ++ beBytes 4 index }

/-! ## Resets forced by faults (R422) -/

/-- Requests in work on the four answer dies. -/
def Dev.inWork (d : Dev) : Nat := d.inFlight 0 + d.inFlight 1 + d.inFlight 2 + d.inFlight 3

/-- From s a fault has forced a reset of the device: it waits to be recorded after the LOAD, with the requests lost, the cause is set and the reset is due; otherwise state t is state b. -/
structure State.Forces (s b t : State) (code die index cause : Nat) (R : Nat → Prop) : Prop where
  fault : ∃ f : OpenFault, t.dev.openFaults = s.dev.openFaults ++ [f] ∧ f.fr.code = code ∧ f.fr.die = die ∧ f.fr.index = index ∧
    f.fr.tick = s.dev.raw ∧ f.fr.lost = min s.dev.inWork 65535 ∧ f.afterLoad = true ∧ f.logged = false
  due : t.dev.md.resetDue = true
  cause : bit (t.dev.reg A.RESET_CAUSE).toNat cause = true
  still : State.Still (fun a => a = A.RESET_CAUSE ∨ R a)
    { b with dev := { b.dev with openFaults := t.dev.openFaults, md.resetDue := true } } t

/-- From s a fault has forced a reset of answer die n: it is noted with the requests lost. A running or starting die starts again; after a third reset within 60 s it stays parked with PARKED set and ENABLE clear. The other dies and their PLLs go on. -/
structure State.DieReset (s t : State) (n : Fin 4) (code index : Nat) : Prop where
  fault : ∃ f ∈ t.dev.openFaults, f.fr.code = code ∧ f.fr.die = n ∧ f.fr.index = index ∧ f.fr.tick = s.dev.raw ∧
    f.fr.lost = min 65535 (s.dev.inFlight n)
  time : s.dev.raw ∈ (t.dev.die n).resets
  again : ((s.dev.die n).resets.filter (fun x => decide (s.dev.raw < x + 48000000000))).length < 2 → s.dev.dieSt n ≠ 1 →
    t.dev.dieSt n = 3 ∧ (t.dev.die n).resetting = true ∧
      t.dev.flag ⟨A.DIE_STATE, 8 + n, 8 + n⟩ = s.dev.flag ⟨A.DIE_STATE, 8 + n, 8 + n⟩
  park : 2 ≤ ((s.dev.die n).resets.filter (fun x => decide (s.dev.raw < x + 48000000000))).length →
    t.dev.dieSt n = 2 ∧ t.dev.flag ⟨A.DIE_CTRL, n, n⟩ = false ∧ t.dev.flag ⟨A.DIE_STATE, 12 + n, 12 + n⟩ = true
  lost : (t.dev.die n).queries = [] ∧ (t.dev.die n).replica = none ∧ (t.dev.die n).pairsLost = 0
  others : ∀ m : Fin 4, m ≠ n → t.dev.die m = s.dev.die m ∧ t.dev.dieSt m = s.dev.dieSt m
  plls : ∀ p, p ≠ 4 + n.val → p ≠ 8 + n.val → t.dev.pll p = s.dev.pll p
  frame : State.Frame (fun a => Span (dieBase n) 0x100000 a ∨ a = A.DIE_STATE ∨ a = A.DIE_CTRL ∨ Span 0x20100 0x300 a)
    { s with dev := { s.dev with dies := t.dev.dies, cks.plls := t.dev.cks.plls, refs.srcs := t.dev.refs.srcs, openFaults := t.dev.openFaults, pcie.rings := t.dev.pcie.rings, freeCtr := t.dev.freeCtr } } t

/-! ## Resets of the device (R82 to R84) -/

/-- From state s the device has been reset: it is in BYPASS; the retention memory, the serial memory, the fuses, host memory and the waiting commands stay; the ledger, the registers and everything else are as before power. cause: what the reset notes in RESET_CAUSE. -/
structure State.WasReset (s t : State) (cause : Word) : Prop where
  mode : t.dev.mode = .bypass
  regs : ∀ a, ¬ Span 0x20 0x30 a → ¬ Span 0x60400 0xA4 a → a ≠ A.MODE_STATUS → a ≠ A.RESET_CAUSE → a ≠ A.FUSE_STATE →
    t.dev.reg a = regReset a
  fuses : ∀ a, Span 0x20 0x30 a ∨ Span 0x60400 0xA4 a → a ≠ A.FUSE_STATE → t.dev.reg a = s.dev.reg a
  debug : t.dev.flag F.FUSE_STATE_DEBUG_OPEN = false ∧ t.dev.get F.FUSE_STATE_MIN_GEN = s.dev.get F.FUSE_STATE_MIN_GEN
  noted : t.dev.reg A.RESET_CAUSE = s.dev.reg A.RESET_CAUSE ||| cause
  kept : t.dev.ret = s.dev.ret ∧ t.dev.nv = s.dev.nv ∧ t.dev.temps = s.dev.temps ∧ t.dev.out = s.dev.out
  lost : t.dev.dies = List.replicate 4 {} ∧ t.dev.keys = {} ∧ t.dev.ts = {} ∧ t.dev.upd = none ∧ t.dev.bn = none ∧
    t.dev.eu = {} ∧ t.dev.ring = {} ∧ t.dev.statRun = none ∧ t.dev.clk = {}
  ledger : ∀ a, t.ledger.get a = 0
  host : ∀ a, t.host.get a = s.host.get a
  flash : ∀ a, t.flash.get a = s.flash.get a
  pending : t.pending = s.pending

/-- From state s a command has ended BYPASS and LOAD is entered with none of its steps begun; otherwise the state is b (R77). -/
structure State.Loads (s b t : State) : Prop where
  mode : t.dev.mode = .load
  begun : t.dev.md.load = 0 ∧ t.dev.md.age = 0 ∧ t.dev.md.safePin = none
  still : State.Still (fun a => a = A.MODE_STATUS ∨ a = A.FAULT_STATUS ∨ a = A.FAULT_SEQ) { b with dev.md := t.dev.md } t
  ret : t.dev.ret = s.dev.ret

end Sys2Proof.Machine
end

