-- ==== Sys2Proof/Certificates/Slice0/Obligations.lean ====
section
/-! DEFINITION. The statements for the provers. -/

open Sys2Proof Sys2Proof.Machine

/-- For every command c and state s, the step of s with c at the front of its queue is exec of c on s with the rest of the queue. -/
def Obligations.StepRunsFrontCommand : Prop :=
  ∀ (c : Instr) (l : List Instr) (s : State), step { s with pending := c :: l } = exec c { s with pending := l }

/-- With no command waiting and the timebase running, a step counts the raw counter up by 1 modulo 2^64 while the TB-PLL is on, and leaves it or counts it up by a whole oscillator cycle while it is off (R92, R96); the memories outside event deliveries, the queue, the published sets of both scales and the open faults stay. That a step on an empty queue is a tick is the model's choice (log entry 1), as the spec gives no command for a tick. -/
def Obligations.IdleStepIsOneTick : Prop :=
  ∀ s : State, s.Safe → s.pending = [] → s.dev.clk.running = true →
    ∃ t, step s = .next t ∧
      (s.dev.coarse = false → t.dev.raw = (s.dev.raw + 1) % 2 ^ 64) ∧
      (s.dev.coarse = true → t.dev.raw = s.dev.raw ∨ t.dev.raw = (s.dev.raw + 800 / s.dev.clk.oscMhz) % 2 ^ 64) ∧
      t.pending = [] ∧ t.dev.ts = s.dev.ts ∧ t.dev.openFaults = s.dev.openFaults ∧
      (∀ a, t.ledger.get a = s.ledger.get a) ∧ (∀ a, t.flash.get a = s.flash.get a) ∧
      (∀ a, ¬ s.dev.EventByte a → t.host.get a = s.host.get a)

/-- At reset the three memories are in canonical form, no posted write is owed, no command waits, LOAD has been entered and not completed (MODE_STATUS reads 1, LOAD). At reset the device has 12 reference slots and 12 views of them in either selector, 8 timing inputs with 2 tables each, 2 GNSS bands and 96 channels, 12 PLLs, 2 output PLLs, 4 outputs, 4 fractional dividers, 4 answer dies of 4 links, 4 engines and 8 transmit rings, 2 hot-start copies, 8 streams, 64 MSI-X vectors, 16 key slots, 2 ring ports, 7 temperatures, 2 copies of the boot header with 2 banks and 2 slots each, and 2 settings banks of 2 copies. Where the spec leaves a point open the clauses follow the model's readings: Reset values the spec does not give (log entry 2); Memories (log entry 7). -/
def Obligations.SafeAtReset : Prop :=
  State.reset.Safe ∧ State.reset.Shaped ∧ State.reset.pending = [] ∧ State.reset.dev.loaded = false ∧
  State.reset.dev.get F.MODE_STATUS_MODE = 1

/-- From every safe state every command, with any operands, completes: exec answers a next state (the model has no fault and no refusal), which is safe (host memory, ledger and serial memory are again in canonical form and every write that the command posted has been made) and whose queue is as before. A step, be it a command or a tick, answers a next safe state too, and the commands behind the front one still wait, in the same order. Where the spec leaves a point open the clauses follow the model's readings: No faults, no refusals (log entry 5); Memories (log entry 7); Posted writes (log entry 8). -/
def Obligations.SafeKept : Prop :=
  ∀ s : State, s.Safe →
    (∀ c : Instr, ∃ t, exec c s = .next t ∧ t.Safe ∧ t.pending = s.pending) ∧
    ∃ t, step s = .next t ∧ t.Safe ∧ t.pending = s.pending.tail

/-- From every state that has the fixed numbers of like parts, a step, be it any command with any operands or a tick, leads only to states that have them: no command adds or loses a slot, an input, a link, an engine, a ring, a key slot or any other of the parts that the spec counts. -/
def Obligations.ShapedKept : Prop :=
  ∀ s t : State, s.Shaped → step s = .next t → t.Shaped

/-- With LOAD completed, CAPTURE answers a state in which SNAP_RAW holds the raw count of the first tick after the write with fraction 0 (as a stamp reads it: with the TB-PLL off, a multiple of 80), SNAP_A, SNAP_B and SNAP_SRV hold Scale A, Scale B and served time at that tick, and SNAP_CTRL.VALID reads 1. A time below 0 or from 2^48 s on has no form in the registers and is not claimed. No event is raised, and nothing but the SNAP registers changes. -/
def Obligations.CaptureAtOneTick : Prop :=
  ∀ s : State, s.Safe → s.dev.loaded = true → ∀ r, r = s.dev.stampTick (s.dev.raw + 1) →
    Does .capture s fun t =>
      t.dev.get64 A.SNAP_RAW_LO = r % 2 ^ 64 ∧ t.dev.reg A.SNAP_RAW = 0 ∧
      (∀ code < 3, ∀ x, s.dev.ts.time16 code (ticks16 r) = some x → 0 ≤ x → x < ((2 ^ 48 * sec16 : Nat) : Int) →
        t.dev.getTime (A.SNAP_A 0 + 16 * code) = x) ∧
      t.dev.flag F.SNAP_CTRL_VALID = true ∧
      State.Still (fun a => a = A.SNAP_CTRL ∨ Span A.SNAP_RAW 12 a ∨ Span (A.SNAP_A 0) 48 a) s t

/-- With LOAD completed, CONVERT of a raw stamp that some published set covers on the selected scale gives CODE 0 and, in CONV_RESULT, the time of the stamp on that scale (its UTC where UTC is 1) if it lies in the range of a time value; a stamp before the oldest set gives CODE NOT_HELD (1). The latest set whose epoch is at or before the stamp converts it, journal, pending set and end sets alike (R107). Nothing but CONV_CTRL and CONV_RESULT changes. Where the spec leaves a point open the clauses follow the model's readings: UTC_BASE (log entry 119). -/
def Obligations.ConvertHeldOrRefused : Prop :=
  ∀ s : State, s.Safe → s.dev.loaded = true →
    ∀ r16, r16 = ticks16 (s.dev.get64 A.CONV_RAW_LO) + s.dev.get F.CONV_RAW_RAW →
    Does .convert s fun t =>
      (∀ x, s.dev.ts.time16 (s.dev.get F.CONV_CTRL_SCALE) r16 = some x → t.dev.get F.CONV_CTRL_CODE = 0 ∧
        ∀ y, y = (if s.dev.flag F.CONV_CTRL_UTC then utcOf s.dev.ts.leaps s.dev.utcBase x else x) →
          0 ≤ y → y < ((2 ^ 48 * sec16 : Nat) : Int) → t.dev.getTime (A.CONV_RESULT 0) = y) ∧
      (s.dev.ts.time16 (s.dev.get F.CONV_CTRL_SCALE) r16 = none → t.dev.get F.CONV_CTRL_CODE = 1) ∧
      (∀ k : Fin 2, s.dev.get F.CONV_CTRL_SCALE = k → ∀ p, p ∈ (s.dev.scale k).sets → ticks16 p.epoch ≤ r16 →
        ∃ q ∈ (s.dev.scale k).sets, ticks16 q.epoch ≤ r16 ∧ p.epoch ≤ q.epoch ∧
          s.dev.ts.time16 k r16 = some (q.eval r16 / (2 ^ 56 : Nat))) ∧
      State.Still (fun a => a = A.CONV_CTRL ∨ Span (A.CONV_RESULT 0) 16 a) s t

/-- With LOAD completed, DISCIPLINE 1, no set pending and the epoch e (APPLY_EPOCH, or the raw count plus 16,384) at least 16,384 and at most 2^40 ticks ahead, and no end set at e: where set p, of an epoch before e, is in force at e and no slew runs there, APPLY answers LAST_CODE 0 and a pending set q with epoch e whose value at e is p's exact extended value (R102). Without a staged slew q carries the increment of R104, CAUSE HOST and no slew. With a staged slew of amount A within 1 s and rate ppb up to 10^9, with δ = floor(INCR0·ppb/10^9) not 0 and A not 0, q carries INCR0 ± δ, CAUSE HOST with SLEW_START and the slew fields of R110, and an end set stands at e + N, N = ceil(|A|·2^56/δ), with INCR0, CAUSE SLEW_END and the unslewed mapping plus A as its value. The staged slew is taken, PENDING reads 1, the journal and the other scale stay, and of the registers only SC_STATUS changes. Where the spec leaves a point open the clauses follow the model's readings: End sets (log entry 12); APPLY's owner (log entry 13); Owner of a scale (log entry 132). -/
def Obligations.ApplyFormsPendingSet : Prop :=
  ∀ (s : State) (k j : Fin 2) (e : Nat) (p : Sys2Proof.Machine.PSet), s.Safe → s.dev.loaded = true → j ≠ k →
    s.dev.flag (F.SC_CTRL_DISCIPLINE k) = true → (s.dev.scale k).pend = none →
    e = (if s.dev.flag (F.SC_CTRL_USE_EPOCH k) then s.dev.get64 (A.APPLY_EPOCH k) else s.dev.raw + 16384) →
    s.dev.raw + 16384 ≤ e → e ≤ s.dev.raw + 2 ^ 40 →
    (s.dev.scale k).setAt (ticks16 e) = some p → p.epoch < e → p.slew = none → (∀ x ∈ (s.dev.scale k).ends, x.epoch < e) →
    (∀ st, (s.dev.scale k).staged = some st → st.amount.natAbs ≤ sec16 ∧ st.amount ≠ 0 ∧ st.ppb ≤ 1000000000 ∧
      s.dev.incr0 k * st.ppb / 1000000000 ≠ 0) →
    Does (.apply k) s fun t =>
      t.dev.get (F.SC_STATUS_LAST_CODE k) = 0 ∧ t.dev.flag (F.SC_STATUS_PENDING k) = true ∧
      (∃ q, (t.dev.scale k).pend = some q ∧ q.epoch = e ∧ q.ofs = p.eval (ticks16 e) ∧
        q.seq = (s.dev.scale k).nextSeq ∧
        ((s.dev.scale k).staged = none → q.incr = s.dev.incr0 k ∧ q.cause = 1 ∧ q.slew = none ∧
          (t.dev.scale k).ends = (s.dev.scale k).ends) ∧
        (∀ st, (s.dev.scale k).staged = some st →
          ∀ delta n, delta = s.dev.incr0 k * st.ppb / 1000000000 →
            n = (st.amount.natAbs * 2 ^ 56 + delta * 65536 - 1) / (delta * 65536) →
            q.cause = 5 ∧
            q.incr = (if st.amount < 0 then s.dev.incr0 k - delta else s.dev.incr0 k + delta) ∧
            q.slew = some { endEpoch := e + n, delta := delta, neg := decide (st.amount < 0),
                            rem := st.amount.natAbs * 2 ^ 56 } ∧
            ∃ x ∈ (t.dev.scale k).ends, x.epoch = e + n ∧ x.incr = s.dev.incr0 k ∧ x.cause = 8 ∧
              x.ofs = q.ofs + ((n * 65536 * s.dev.incr0 k : Nat) : Int) + st.amount * 2 ^ 56)) ∧
      (t.dev.scale k).staged = none ∧ (t.dev.scale k).journal = (s.dev.scale k).journal ∧
      t.dev.scale j = s.dev.scale j ∧
      State.Still (· = A.SC_STATUS k) { s with dev.ts := t.dev.ts } t

/-- With LOAD completed: on a scale with DISCIPLINE 1 and SLEW_AMOUNT within ±1 s, SLEW_GO stages the amount at SLEW_RATE and answers LAST_CODE 0; beyond ±1 s it answers RANGE (5) and stages nothing (R110); with DISCIPLINE 0 it is discarded and sets TS_STATUS.OWNER_ERR (R109). Nothing else changes. Where the spec leaves a point open the clauses follow the model's readings: APPLY's owner (log entry 13); Owner of a scale (log entry 132). -/
def Obligations.SlewStagedByItsOwner : Prop :=
  ∀ (s : State) (k : Fin 2) (a : Int), s.Safe → s.dev.loaded = true → a = toSigned 64 (s.dev.get64 (A.SLEW_AMOUNT k)) →
    Does (.slewGo k) s fun t =>
      (s.dev.flag (F.SC_CTRL_DISCIPLINE k) = true → a.natAbs ≤ sec16 →
        (t.dev.scale k).staged = some { amount := a, ppb := s.dev.get (F.SLEW_RATE_PPB k) } ∧
        t.dev.get (F.SC_STATUS_LAST_CODE k) = 0 ∧
        State.Still (· = A.SC_STATUS k)
          { s with dev.ts := s.dev.ts.setScale k { s.dev.scale k with staged := (t.dev.scale k).staged } } t) ∧
      (s.dev.flag (F.SC_CTRL_DISCIPLINE k) = true → sec16 < a.natAbs →
        t.dev.get (F.SC_STATUS_LAST_CODE k) = 5 ∧ State.Still (· = A.SC_STATUS k) s t) ∧
      (s.dev.flag (F.SC_CTRL_DISCIPLINE k) = false →
        t.dev.flag F.TS_STATUS_OWNER_ERR = true ∧ State.Still (· = A.TS_STATUS) s t)

/-- PARAMETER_SET_PUBLISH marks every set, quality record and switch that the keeper has published as held by each powered die of the mask, and changes nothing else of the scales, no register and no memory (R29, R30). SCALE_SET_APPLIED with a pending set at or before the raw count, and no end set due, puts that set first in the journal of at most 16, leaves none pending, lets DISCIPLINE take effect, shows SLEWING and DONE, sets INIT where the set is the first absolute setting, and raises Scale set applied, and Slew complete where the set carries SLEW_END (R106, R108 to R110); where every powered die holds the set, the faults in progress stay. Besides SC_STATUS only the fractional stages and output PLLs that follow the scale change (R210, R213), with the grids of links behind them (R240). Where the spec leaves a point open the clauses follow the model's readings: SC_STATUS.INIT (log entry 11); Owner of a scale (log entry 132). -/
def Obligations.SetsPublishedAndApplied : Prop :=
  (∀ (s : State) (mask m : Nat), s.Safe → m = mask &&& s.dev.poweredMask →
    Does (.parameterSetPublish mask) s fun t =>
      (∀ k : Fin 2,
        (t.dev.scale k).journal = (s.dev.scale k).journal.map (fun p => { p with held := p.held ||| m }) ∧
        (t.dev.scale k).pend = (s.dev.scale k).pend.map (fun p => { p with held := p.held ||| m }) ∧
        (t.dev.scale k).ends = (s.dev.scale k).ends.map (fun p => { p with held := p.held ||| m }) ∧
        (t.dev.scale k).quality = (s.dev.scale k).quality.map (fun p => { p with held := p.held ||| m })) ∧
      t.dev.ts.switches = s.dev.ts.switches.map (fun w => { w with held := w.held ||| m }) ∧
      State.Still (fun _ => False)
        { s with dev := { s.dev with ts := t.dev.ts, dies := t.dev.dies, openFaults := t.dev.openFaults } } t) ∧
  (∀ (s : State) (k j : Fin 2) (p : Sys2Proof.Machine.PSet), s.Safe → j ≠ k → (s.dev.scale k).pend = some p → p.epoch ≤ s.dev.raw →
    (∀ x ∈ (s.dev.scale k).ends, s.dev.raw < x.epoch) →
    Does (.scaleSetApplied k) s fun t =>
      (t.dev.scale k).journal = ({ p with chg := none } :: (s.dev.scale k).journal).take 16 ∧ (t.dev.scale k).pend = none ∧
      (t.dev.scale k).ends = (s.dev.scale k).ends ∧
      (t.dev.scale k).hostOwns = s.dev.flag (F.SC_CTRL_DISCIPLINE k) ∧ t.dev.scale j = s.dev.scale j ∧
      t.dev.flag (F.SC_STATUS_PENDING k) = false ∧ t.dev.flag (F.SC_STATUS_SLEWING k) = p.slew.isSome ∧
      t.dev.flag (F.SC_STATUS_DONE k) = true ∧ (bit p.cause 5 = true → t.dev.flag (F.SC_STATUS_INIT k) = true) ∧
      t.dev.get (evStatus (12 + k)) = 1 ∧ (bit p.cause 3 = true → t.dev.get (evStatus (14 + k)) = 1) ∧
      ((∀ n < 4, s.dev.diePowered n = true → bit p.held n = true) → t.dev.openFaults = s.dev.openFaults) ∧
      State.Frame (fun a => a = A.SC_STATUS k ∨ Span (A.FRAC_CTRL 0) 0x180 a)
        { s with dev := { s.dev with ts := t.dev.ts, refs := t.dev.refs, cks := t.dev.cks, dies := t.dev.dies,
                                     openFaults := t.dev.openFaults } } t)

/-- With LOAD completed, CASTLING_REQUEST for epoch e (CASTLE_EPOCH, or the raw count plus 16,384) answers in CASTLE_STATUS.CODE, in this order: BUSY (7) while a request waits, TOO_SOON (5) less than 16,384 ticks ahead, TOO_FAR (6) more than 2^40 ahead, SAME (8) where the target is served and no bridge decays, else ACCEPTED (0) with PENDING 1 and the request waiting for its decision. CASTLING_CANCEL answers NONE_PENDING (11), TOO_LATE (10) from 16,384 ticks before the epoch on, else CANCELLED (9) with PENDING 0 and no request waiting (R122, R123). Nothing else changes. Where the spec leaves a point open the clauses follow the model's readings: Order of refusals (log entry 14). -/
def Obligations.CastlingRequestedAndCancelled : Prop :=
  (∀ (s : State) (e x code : Nat), s.Safe → s.dev.loaded = true →
    e = (if s.dev.flag F.CASTLE_CTRL_USE_EPOCH then s.dev.get64 A.CASTLE_EPOCH else s.dev.raw + 16384) →
    x = s.dev.get F.CASTLE_CTRL_TARGET →
    code = (if s.dev.ts.castle.isSome then 7 else if e < s.dev.raw + 16384 then 5 else if s.dev.raw + 2 ^ 40 < e then 6
            else if s.dev.ts.servedAt (ticks16 s.dev.raw) = x ∧ s.dev.bridging = false then 8 else 0) →
    Does .castlingRequest s fun t =>
      t.dev.get F.CASTLE_STATUS_CODE = code ∧
      (code = 0 → t.dev.flag F.CASTLE_STATUS_PENDING = true ∧
        State.Still (· = A.CASTLE_STATUS)
          { s with dev.ts.castle := some { s := e, target := x, force := s.dev.flag F.CASTLE_CTRL_FORCE } } t) ∧
      (code ≠ 0 → State.Still (· = A.CASTLE_STATUS) s t)) ∧
  (∀ s : State, s.Safe → s.dev.loaded = true →
    Does .castlingCancel s fun t =>
      (s.dev.ts.castle = none → t.dev.get F.CASTLE_STATUS_CODE = 11 ∧ State.Still (· = A.CASTLE_STATUS) s t) ∧
      (∀ q, s.dev.ts.castle = some q → q.s ≤ s.dev.raw + 16384 →
        t.dev.get F.CASTLE_STATUS_CODE = 10 ∧ State.Still (· = A.CASTLE_STATUS) s t) ∧
      (∀ q, s.dev.ts.castle = some q → s.dev.raw + 16384 < q.s →
        t.dev.get F.CASTLE_STATUS_CODE = 9 ∧ t.dev.flag F.CASTLE_STATUS_PENDING = false ∧
        State.Still (· = A.CASTLE_STATUS) { s with dev.ts.castle := none } t))

/-- CASTLING_DECISION of a waiting undecided request for S, from 16,384 ticks before S on, where served time v and the target's time x at S are held: with D = v − x, the decision is REFUSED_LIMIT (2) beyond CASTLE_LIMIT without FORCE, NOT_PRIVILEGED (3) beyond it with FORCE and PRIV [5] clear, else UNSET (4) for a target whose INIT is 0 at S (neither set nor due by a first setting published for S or before), else FORCED (1) beyond the limit and ACCEPTED (0) within it; only 0 and 1 publish a switch with S, the target, D, δ = floor(INCR·PPB/10^9) and N ticks, and no register changes (R121, R122). CASTLING_SWITCH of a decided request at or after S clears PENDING, writes the decision into CODE, sets DONE, and with a switch shows its target as SERVED; a fractional stage with FOLLOW 3 then takes the offset of the scale now served as its target, the others stay (R210). CASTLING_COMPLETE at or after S + N of the switch in force clears ACTIVE, sets DONE and raises Castling complete. Where the spec leaves a point open the clauses follow the model's readings: Order of refusals (log entry 14). -/
def Obligations.CastlingDecidedSwitchedCompleted : Prop :=
  (∀ (s : State) (q : CastleReq) (v x : Int) (far : Bool) (code : Nat), s.Safe → s.dev.ts.castle = some q → q.decided = none →
    q.s ≤ s.dev.raw + 16384 → s.dev.ts.served72 (ticks16 q.s) = some v →
    (s.dev.scale q.target).time72 (ticks16 q.s) = some x →
    far = decide ((v - x).natAbs > s.dev.get F.CASTLE_LIMIT_NS * 65536 * 2 ^ 56) →
    code = (if far && !q.force then 2 else if far && !s.dev.priv 5 then 3
            else if !(s.dev.flag (F.SC_STATUS_INIT q.target) ||
              (s.dev.scale q.target).sets.any fun p => decide (p.epoch ≤ q.s) && bit p.cause 5) then 4 else if far then 1 else 0) →
    Does .castlingDecision s fun t =>
      (∃ r, t.dev.ts.castle = some r ∧ r.decided = some code ∧ r.s = q.s ∧ r.target = q.target) ∧
      (2 ≤ code → t.dev.ts.switches = s.dev.ts.switches) ∧
      (code ≤ 1 → ∃ w, t.dev.ts.switches = w :: s.dev.ts.switches ∧ w.s = q.s ∧ w.target = q.target ∧ w.d = v - x ∧
        (∀ p, (s.dev.scale q.target).setAt (ticks16 q.s) = some p →
          w.delta = p.incr * s.dev.get (F.SLEW_RATE_PPB q.target) / 1000000000) ∧
        (w.delta ≠ 0 → w.n = ((v - x).natAbs + w.delta * 65536 - 1) / (w.delta * 65536))) ∧
      State.Still (fun _ => False) { s with dev.ts := t.dev.ts } t ∧
      t.dev.ts.a = s.dev.ts.a ∧ t.dev.ts.b = s.dev.ts.b ∧ t.dev.ts.leaps = s.dev.ts.leaps) ∧
  (∀ (s : State) (q : CastleReq) (code : Nat), s.Safe → s.dev.ts.castle = some q → q.decided = some code → code < 16 →
    q.s ≤ s.dev.raw →
    Does .castlingSwitch s fun t =>
      t.dev.get F.CASTLE_STATUS_CODE = code ∧ t.dev.flag F.CASTLE_STATUS_PENDING = false ∧
      t.dev.flag F.CASTLE_STATUS_DONE = true ∧
      (∀ w, q.switch = some w → w.target < 2 → t.dev.get F.CASTLE_STATUS_SERVED = w.target ∧
        t.dev.flag F.CASTLE_STATUS_ACTIVE = (w.n != 0)) ∧
      (∀ n < 4, s.dev.get (F.FRAC_CTRL_FOLLOW n) ≠ 3 → t.dev.cks.fracs[n]? = s.dev.cks.fracs[n]?) ∧
      (s.Shaped → ∀ n < 4, s.dev.get (F.FRAC_CTRL_FOLLOW n) = 3 → (t.dev.cks.fracs[n]?).map (·.target) = some (t.dev.fracGoal n)) ∧
      State.Still (fun a => a = A.CASTLE_STATUS ∨ Span (A.FRAC_CTRL 0) 0x40 a)
        { s with dev := { s.dev with cks.fracs := t.dev.cks.fracs
                                     ts := { s.dev.ts with castle := none, bridgeOpen := q.switch.isSome || s.dev.ts.bridgeOpen } } } t) ∧
  (∀ (s : State) (w : Switch), s.Safe → s.dev.ts.switchAt (ticks16 s.dev.raw) = some w → s.dev.ts.bridgeOpen = true →
    w.s + w.n ≤ s.dev.raw →
    Does .castlingComplete s fun t =>
      t.dev.flag F.CASTLE_STATUS_ACTIVE = false ∧ t.dev.flag F.CASTLE_STATUS_DONE = true ∧ t.dev.get (evStatus 16) = 1 ∧
      State.Frame (· = A.CASTLE_STATUS) { s with dev.ts.bridgeOpen := false } t)

/-- With LOAD completed: LEAP_ADD by the authoritative source (host with SRC 1, navigation message with SRC 0) of an L at least 2 s ahead of both scales, with L minus the offset before L a multiple of 86,400 s, not in the table, and a table not full, adds the entry with that offset ±1 by its direction, keeps every other, and answers LAST_CODE 0. LEAP_WITHDRAW by the authoritative source of a future entry at least 2 s ahead of both scales removes it (LAST_CODE 5). UTC_BASE_WRITE sets UTC_BASE, sets VALID and shows the offset now. LEAP_APPLIED marks the first entry whose L Scale A has reached and that was not yet applied, raises Leap applied and shows the offset now (R117 to R119). After a change of the table the next leap that the source without authority last reported is compared with it: DISAGREE is set and Leap disagreement raised where they differ. Only UTC_STATUS, and UTC_BASE at its own write, change beside the table; a write of UTC_BASE against a limit of the Position only sets LIMIT_ERR (R61). Where the spec leaves a point open the clauses follow the model's readings: Leap TOO_SOON (log entry 15); A leap from the host compared (log entry 16); Rows that are the action itself (log entry 105); UTC_BASE (log entry 119); Limits on action commands (log entry 168). -/
def Obligations.LeapTableKept : Prop :=
  (∀ (s : State) (nav : Option (Nat × Bool)) (sec : Nat) (neg : Bool), s.Safe → s.dev.loaded = true →
    (nav = none → sec = s.dev.get64 A.LEAP_NEW_SEC % 2 ^ 48 ∧ neg = s.dev.flag F.LEAP_CTRL_DIR ∧
      s.dev.flag F.LEAP_CTRL_SRC = true) →
    (∀ x, nav = some x → x = (sec, neg) ∧ s.dev.flag F.LEAP_CTRL_SRC = false) →
    (∀ k : Fin 2, s.dev.now16 k + 2 * (sec16 : Int) ≤ ((sec * sec16 : Nat) : Int)) →
    ((sec : Int) - s.dev.offsetBefore sec) % 86400 = 0 → s.dev.ts.leaps.length < 8 → (∀ l ∈ s.dev.ts.leaps, l.sec ≠ sec) →
    Does (.leapAdd nav) s fun t =>
      t.dev.get F.UTC_STATUS_LAST_CODE = 0 ∧
      (∃ l ∈ t.dev.ts.leaps, l.sec = sec ∧ l.offset = s.dev.offsetBefore sec + (if neg then -1 else 1) ∧
        l.fromGnss = nav.isSome) ∧
      (∀ l ∈ s.dev.ts.leaps, l ∈ t.dev.ts.leaps) ∧ t.dev.ts.leaps.length = s.dev.ts.leaps.length + 1 ∧
      t.dev.get F.UTC_STATUS_ENTRIES = t.dev.ts.leaps.length ∧
      (t.dev.altLeap.all (· = t.dev.nextLeap) = true → State.Still (· = A.UTC_STATUS) { s with dev.ts.leaps := t.dev.ts.leaps } t) ∧
      (t.dev.altLeap.all (· = t.dev.nextLeap) = false →
        t.dev.flag F.UTC_STATUS_DISAGREE = true ∧ t.dev.get (evStatus 18) = 1 ∧
        State.Frame (· = A.UTC_STATUS) { s with dev.ts.leaps := t.dev.ts.leaps } t)) ∧
  (∀ (s : State) (nav : Option Nat) (sec : Nat) (l : Leap), s.Safe → s.dev.loaded = true →
    (nav = none → sec = s.dev.get64 A.LEAP_NEW_SEC % 2 ^ 48 ∧ s.dev.flag F.LEAP_CTRL_SRC = true) →
    (∀ x, nav = some x → x = sec ∧ s.dev.flag F.LEAP_CTRL_SRC = false) →
    (∀ k : Fin 2, s.dev.now16 k + 2 * (sec16 : Int) ≤ ((sec * sec16 : Nat) : Int)) →
    s.dev.ts.leaps.find? (fun x => x.sec = sec) = some l →
    Does (.leapWithdraw nav) s fun t =>
      t.dev.get F.UTC_STATUS_LAST_CODE = 5 ∧ t.dev.ts.leaps = s.dev.ts.leaps.erase l ∧
      (t.dev.altLeap.all (· = t.dev.nextLeap) = true → State.Still (· = A.UTC_STATUS) { s with dev.ts.leaps := t.dev.ts.leaps } t) ∧
      (t.dev.altLeap.all (· = t.dev.nextLeap) = false →
        t.dev.flag F.UTC_STATUS_DISAGREE = true ∧ t.dev.get (evStatus 18) = 1 ∧
        State.Frame (· = A.UTC_STATUS) { s with dev.ts.leaps := t.dev.ts.leaps } t)) ∧
  (∀ (s : State) (pre post : List Leap) (l : Leap), s.Safe → s.dev.ts.leaps = pre ++ l :: post → l.applied = false →
    ((l.sec * sec16 : Nat) : Int) ≤ s.dev.now16 0 →
    (∀ x ∈ pre, x.applied = true ∨ s.dev.now16 0 < ((x.sec * sec16 : Nat) : Int)) →
    Does .leapApplied s fun t =>
      t.dev.ts.leaps = pre ++ { l with applied := true } :: post ∧ t.dev.get (evStatus 17) = 1 ∧
      t.dev.get F.UTC_STATUS_OFFSET_NOW = ofSigned 16 (utcOffset s.dev.ts.leaps s.dev.utcBase (s.dev.now16 0)) ∧
      State.Frame (· = A.UTC_STATUS) { s with dev.ts.leaps := t.dev.ts.leaps } t) ∧
  (∀ (s : State) (v : Word), s.Safe → s.dev.loaded = true →
    s.Limits (.utcBaseWrite v) A.UTC_BASE (putBits 15 0 (s.dev.reg A.UTC_BASE) (bits 15 0 v)) A.TS_STATUS) ∧
  (∀ (s : State) (v : Word), s.Safe → s.dev.loaded = true →
    s.dev.limitOk [(A.UTC_BASE, putBits 15 0 (s.dev.reg A.UTC_BASE) (bits 15 0 v))] = true →
    Does (.utcBaseWrite v) s fun t =>
      t.dev.get F.UTC_BASE_OFFSET = v.toNat % 2 ^ 16 ∧ t.dev.flag F.UTC_STATUS_VALID = true ∧
      t.dev.get F.UTC_STATUS_OFFSET_NOW = ofSigned 16 (utcOffset s.dev.ts.leaps (toSigned 16 v.toNat) (s.dev.now16 0)) ∧
      State.Still (fun a => a = A.UTC_BASE ∨ a = A.UTC_STATUS) s t)

/-- With LOAD completed, for a requester that reaches the bus, REGISTER_WRITE: (1) of SLOT_WTR with S of 0 to 3,600 stores it, or, against a limit of the Position, keeps the register and sets LIMIT_ERR (R61); with a greater S, a reserved encoding, it keeps the register and sets WRITE_ERR (R12, R461); (2) of GBL_STATUS clears exactly the bits written 1 (W1C); (3) of the low word of CASTLE_EPOCH holds it in the requester's staging and leaves the register; of the high word commits both words at once, the low one from that staging or else as it stands, or discards both against a limit, and empties that staging only (R16, R17); (4) of an unmapped keeper offset sets GBL_STATUS.UNMAPPED (R458); (5) of another size than 4 or 8 bytes, or unaligned, sets HD_STATUS.BAR0_ERR (R333). In (2) to (4) the requester holds no arming in the block; (6) one that it holds is cleared by the write of CASTLE_EPOCH, which sets GUARD_FAIL (R19). Nothing else changes. Where the spec leaves a point open the clauses follow the model's readings: Guards (log entry 87); Checks of a write (log entry 88); Bus access paths (log entry 102); Staging after a discarded commit (log entry 120). -/
def Obligations.WritesByAccessCode : Prop :=
  ∀ (s : State) (q : Sys2Proof.Req), s.Safe → s.dev.loaded = true → s.dev.onBus q = true →
    (∀ (i : Fin 12) (v : Nat) (ok : Bool), v < 2 ^ 32 → v % 4096 ≤ 3600 →
      ok = s.dev.limitOk [(A.SLOT_WTR i, putBits 11 0 (s.dev.reg (A.SLOT_WTR i)) (v % 4096))] →
      Does (.registerWrite q (A.SLOT_WTR i) 4 v) s fun t =>
        (ok = true → t.dev.get (F.SLOT_WTR_S i) = v % 4096 ∧
          State.Frame (· = A.SLOT_WTR i) { s with dev.hist := t.dev.hist } t) ∧
        (ok = false → t.dev.flag F.RF_STATUS_LIMIT_ERR = true ∧ State.Frame (· = A.RF_STATUS) s t)) ∧
    (∀ (i : Fin 12) (v : Nat), v < 2 ^ 32 → 3600 < v % 4096 →
      Does (.registerWrite q (A.SLOT_WTR i) 4 v) s fun t =>
        t.dev.flag F.RF_STATUS_WRITE_ERR = true ∧ State.Frame (· = A.RF_STATUS) s t) ∧
    (∀ v : Nat, v < 2 ^ 32 → (∀ x ∈ s.dev.pos.limits, x.addr ≠ A.GBL_STATUS) → s.dev.armOf q A.GUARD = none →
      Does (.registerWrite q A.GBL_STATUS 4 v) s fun t =>
        (∀ b < 4, t.dev.flag ⟨A.GBL_STATUS, b, b⟩ = (s.dev.flag ⟨A.GBL_STATUS, b, b⟩ && !bit v b)) ∧
        State.Frame (· = A.GBL_STATUS) s t) ∧
    (∀ v : Nat, v < 2 ^ 32 →
      Does (.registerWrite q A.CASTLE_EPOCH 4 v) s fun t =>
        ((q, A.CASTLE_EPOCH), BitVec.ofNat 32 v) ∈ t.dev.bus.staged ∧
        (∀ x ∈ s.dev.bus.staged, x.1 ≠ (q, A.CASTLE_EPOCH) → x ∈ t.dev.bus.staged) ∧
        (s.dev.armOf q A.TS_GUARD = none → State.Frame (fun _ => False) { s with dev.bus.staged := t.dev.bus.staged } t) ∧
        (∀ x, s.dev.armOf q A.TS_GUARD = some x → t.dev.armOf q A.TS_GUARD = none ∧ t.dev.flag ⟨A.TS_STATUS, 1, 1⟩ = true ∧
          State.Frame (· = A.TS_STATUS) { s with dev := { s.dev with bus.staged := t.dev.bus.staged, bus.arms := t.dev.bus.arms } } t)) ∧
    (∀ (v : Nat) (lo : Word) (ok : Bool), v < 2 ^ 32 → s.dev.armOf q A.TS_GUARD = none → lo = s.dev.lower q A.CASTLE_EPOCH →
      ok = s.dev.limitOk [(A.CASTLE_EPOCH, lo), (A.CASTLE_EPOCH_HI, BitVec.ofNat 32 v)] →
      Does (.registerWrite q A.CASTLE_EPOCH_HI 4 v) s fun t =>
        (∀ x ∈ t.dev.bus.staged, x.1 ≠ (q, A.CASTLE_EPOCH)) ∧ (∀ x ∈ s.dev.bus.staged, x.1.1 ≠ q → x ∈ t.dev.bus.staged) ∧
        (ok = true → t.dev.get64 A.CASTLE_EPOCH = lo.toNat + 2 ^ 32 * v ∧
          State.Frame (Span A.CASTLE_EPOCH 8) { s with dev.bus.staged := t.dev.bus.staged } t) ∧
        (ok = false → t.dev.flag ⟨A.TS_STATUS, 2, 2⟩ = true ∧
          State.Frame (· = A.TS_STATUS) { s with dev.bus.staged := t.dev.bus.staged } t)) ∧
    (∀ a v : Nat, a % 4 = 0 → a < 0x100000 → lookup a = none → (∀ g, guardOf a = some g → s.dev.armOf q g = none) →
      Does (.registerWrite q a 4 v) s fun t =>
        t.dev.flag F.GBL_STATUS_UNMAPPED = true ∧ State.Frame (· = A.GBL_STATUS) s t) ∧
    (∀ a size v : Nat, (size ≠ 4 ∨ a % 4 ≠ 0) → (size ≠ 8 ∨ a % 8 ≠ 0) →
      Does (.registerWrite q a size v) s fun t =>
        t.dev.flag F.HD_STATUS_BAR0_ERR = true ∧ State.Frame (· = A.HD_STATUS) s t)

/-- For each of the registers SLEW_AMOUNT, FREQ_ADJ and INCR of a scale and CASTLE_EPOCH, two-word groups, and a requester that reaches the bus after LOAD: reading the lowest word returns its value and latches the higher word for that requester at the same instant; a read of the higher word returns the value latched for that requester, whatever the register holds meanwhile, and without a latch (none made since reset) its current value (R14, R15). Latches of the other requester stay (R17). A read changes nothing else, but for what the requester gets and the count of accesses. Where the spec leaves a point open the clauses follow the model's readings: Bus access paths (log entry 102); Latched reads (log entry 104). -/
def Obligations.LatchServesHigherWords : Prop :=
  ∀ (s : State) (q : Sys2Proof.Req) (k : Fin 2) (a : Nat), s.Safe → s.dev.loaded = true → s.dev.onBus q = true →
    a ∈ [A.SLEW_AMOUNT k, A.FREQ_ADJ k, A.INCR k, A.CASTLE_EPOCH] →
    (Does (.multiwordLatchRead q a 4) s fun t =>
      t.dev.out.head? = some (.readData q a (s.dev.reg a)) ∧
      t.dev.bus.latched.find? (·.1 == (q, a + 4)) = some ((q, a + 4), s.dev.reg (a + 4)) ∧
      (∀ x ∈ s.dev.bus.latched, x.1.1 ≠ q → x ∈ t.dev.bus.latched) ∧
      State.Frame (fun _ => False)
        { s with dev := { s.dev with bus.latched := t.dev.bus.latched, out := .readData q a (s.dev.reg a) :: s.dev.out } } t) ∧
    (∀ v, v = ((s.dev.bus.latched.find? (·.1 == (q, a + 4))).map (·.2)).getD (s.dev.reg (a + 4)) →
      Does (.multiwordLatchRead q (a + 4) 4) s fun t =>
        t.dev.out.head? = some (.readData q (a + 4) v) ∧
        State.Frame (fun _ => False) { s with dev.out := .readData q (a + 4) v :: s.dev.out } t)

/-- For a requester that reaches the bus after LOAD (and, for a die's queue, with that die powered): TS_W0_POP, RES_W0_POP, TSQ_W0_POP and GR_EVQ_W0_POP return the first little-endian word of the oldest record of the stamp FIFO, result FIFO, transmit-stamp queue or ring-event FIFO (zero when it is empty), latch the record's other words for that requester, drop that record and show the level left (R163, R169, R345, R393). DISPATCH_STATUS_READ and CAL_STATE_READ return the register and set its PEAK to zero, the other field staying (R264, R266). Nothing else changes. Where the spec leaves a point open the clauses follow the model's readings: Bus access paths (log entry 102); Latched reads (log entry 104). -/
def Obligations.FifoReadsPop : Prop :=
  ∀ (s : State) (q : Sys2Proof.Req), s.Safe → s.dev.loaded = true → s.dev.onBus q = true →
    (∀ (n : Fin 8) (b : List Byte), b = (s.dev.tim n).stamps.headD [] → n < s.dev.tin.length → (s.dev.tim n).stamps.length ≤ 1024 →
      Does (.tsW0Pop q n) s fun t =>
        t.dev.out.head? = some (.readData q (A.TS_W n 0) (BitVec.ofNat 32 (leNat b))) ∧
        (∀ j, 1 ≤ j → j < 4 → t.dev.bus.latched.find? (·.1 == (q, A.TS_W n j)) =
          some ((q, A.TS_W n j), BitVec.ofNat 32 (leNat b / 2 ^ (32 * j)))) ∧
        (t.dev.tim n).stamps = (s.dev.tim n).stamps.tail ∧
        t.dev.get (F.IN_STATUS_FIFO_LEVEL n) = (s.dev.tim n).stamps.length - 1 ∧
        State.Frame (· = A.IN_STATUS n)
          { s with dev := { s.dev with tin := setAt s.dev.tin n { s.dev.tim n with stamps := (s.dev.tim n).stamps.tail },
                                       bus.latched := t.dev.bus.latched,
                                       out := .readData q (A.TS_W n 0) (BitVec.ofNat 32 (leNat b)) :: s.dev.out } } t) ∧
    (∀ (n : Fin 8) (b : List Byte), b = (s.dev.tim n).results.headD [] → n < s.dev.tin.length → (s.dev.tim n).results.length ≤ 16 →
      Does (.resW0Pop q n) s fun t =>
        t.dev.out.head? = some (.readData q (A.RES_W n 0) (BitVec.ofNat 32 (leNat b))) ∧
        (∀ j, 1 ≤ j → j < 16 → t.dev.bus.latched.find? (·.1 == (q, A.RES_W n j)) =
          some ((q, A.RES_W n j), BitVec.ofNat 32 (leNat b / 2 ^ (32 * j)))) ∧
        (t.dev.tim n).results = (s.dev.tim n).results.tail ∧
        t.dev.get (F.MEAS_STATUS_RES_LEVEL n) = (s.dev.tim n).results.length - 1 ∧
        State.Frame (· = A.MEAS_STATUS n)
          { s with dev := { s.dev with tin := setAt s.dev.tin n { s.dev.tim n with results := (s.dev.tim n).results.tail },
                                       bus.latched := t.dev.bus.latched,
                                       out := .readData q (A.RES_W n 0) (BitVec.ofNat 32 (leNat b)) :: s.dev.out } } t) ∧
    (∀ (n l : Fin 4) (b : List Byte), b = (s.dev.lnk n l).tsq.headD [] → s.dev.diePowered n = true →
      s.dev.dies.length = 4 → (s.dev.die n).links.length = 4 → (s.dev.lnk n l).tsq.length ≤ 64 →
      Does (.tsqW0Pop q n l) s fun t =>
        t.dev.out.head? = some (.readData q (A.TSQ_W n l 0) (BitVec.ofNat 32 (leNat b))) ∧
        (∀ j, 1 ≤ j → j < 8 → t.dev.bus.latched.find? (·.1 == (q, A.TSQ_W n l j)) =
          some ((q, A.TSQ_W n l j), BitVec.ofNat 32 (leNat b / 2 ^ (32 * j)))) ∧
        t.dev.lnk n l = { s.dev.lnk n l with tsq := (s.dev.lnk n l).tsq.tail } ∧
        t.dev.get (F.TSQ_STATUS_LEVEL n l) = (s.dev.lnk n l).tsq.length - 1 ∧
        State.Frame (· = A.TSQ_STATUS n l)
          { s with dev := { s.dev with dies := t.dev.dies, bus.latched := t.dev.bus.latched,
                                       out := .readData q (A.TSQ_W n l 0) (BitVec.ofNat 32 (leNat b)) :: s.dev.out } } t) ∧
    (∀ b : List Byte, b = s.dev.ring.evq.headD [] → s.dev.ring.evq.length ≤ 32 →
      Does (.grEvqW0Pop q) s fun t =>
        t.dev.out.head? = some (.readData q (A.GR_EVQ_W 0) (BitVec.ofNat 32 (leNat b))) ∧
        (∀ j, 1 ≤ j → j < 8 → t.dev.bus.latched.find? (·.1 == (q, A.GR_EVQ_W j)) =
          some ((q, A.GR_EVQ_W j), BitVec.ofNat 32 (leNat b / 2 ^ (32 * j)))) ∧
        t.dev.get F.GR_EVQ_STATUS_LEVEL = s.dev.ring.evq.length - 1 ∧
        State.Frame (· = A.GR_EVQ_STATUS)
          { s with dev := { s.dev with ring.evq := s.dev.ring.evq.tail, bus.latched := t.dev.bus.latched,
                                       out := .readData q (A.GR_EVQ_W 0) (BitVec.ofNat 32 (leNat b)) :: s.dev.out } } t) ∧
    (∀ (n : Fin 4) (v : Word), s.dev.diePowered n = true →
      v.toNat = s.dev.get (F.DISPATCH_STATUS_LEVEL n) + 2 ^ 16 * s.dev.get (F.DISPATCH_STATUS_PEAK n) →
      Does (.dispatchStatusRead q n) s fun t =>
        t.dev.out.head? = some (.readData q (A.DISPATCH_STATUS n) v) ∧ t.dev.get (F.DISPATCH_STATUS_PEAK n) = 0 ∧
        t.dev.get (F.DISPATCH_STATUS_LEVEL n) = s.dev.get (F.DISPATCH_STATUS_LEVEL n) ∧
        State.Frame (· = A.DISPATCH_STATUS n) { s with dev.out := .readData q (A.DISPATCH_STATUS n) v :: s.dev.out } t) ∧
    (∀ (n l : Fin 4) (v : Word), s.dev.diePowered n = true →
      v.toNat = s.dev.get (F.CAL_STATE_COMMITTED n l) + 2 ^ 16 * s.dev.get (F.CAL_STATE_PEAK n l) →
      Does (.calStateRead q n l) s fun t =>
        t.dev.out.head? = some (.readData q (A.CAL_STATE n l) v) ∧ t.dev.get (F.CAL_STATE_PEAK n l) = 0 ∧
        t.dev.get (F.CAL_STATE_COMMITTED n l) = s.dev.get (F.CAL_STATE_COMMITTED n l) ∧
        State.Frame (· = A.CAL_STATE n l) { s with dev.out := .readData q (A.CAL_STATE n l) v :: s.dev.out } t)

/-- For a requester that reaches the bus after LOAD: GUARD_WRITE of 0x5A5A_0000 plus the low 16 bits of the offset of a guarded register of the block (RESET_CTRL, a STEP_REL or STEP_ABS high word, an OPLL_PSTEP) arms that register from now, any other value clears the requester's arming, neither sets GUARD_FAIL (R18). STEP_REL, STEP_ABS or OPLL_PSTEP without an arming of that register by the requester, less than 8,000 ticks old, only sets GUARD_FAIL and clears its arming (R19). Armed, the arming is used up and: where the Position does not permit it (PRIV; STEP_ABS is free with INIT 0) GUARD_FAIL is set (R20); a value against a limit sets LIMIT_ERR (R61), nanoseconds above 999,999,999 WRITE_ERR (R5), and the staged words are gone (the model's choice, log entry 120); with a set pending LAST_CODE is BUSY (1) (R115). Else STEP_REL enters the set at the epoch, 16,384 ticks ahead or, with AT_SECOND, the whole second from there on, with CAUSE STEP and the amount added, STEP_ABS with the given time and CAUSE STEP or, with INIT 0, INIT (R113 to R115); lower words come from the staging. OPLL_PSTEP beyond 1 ms in all answers LAST_CODE 1, else queues the step for 16,384 ticks ahead (R212). Only the registers named, staging and armings change. Where the spec leaves a point open the clauses follow the model's readings: Order of refusals (log entry 14); Guards (log entry 87); Staging after a discarded commit (log entry 120). -/
def Obligations.GuardedStepsNeedArming : Prop :=
  ∀ (s : State) (q : Sys2Proof.Req), s.Safe → s.dev.loaded = true → s.dev.onBus q = true →
    (∀ (b : Fin 3) (v : Word) (g : Nat) (l : List Nat),
      (g, l) = [(A.GUARD, [0x210]), (A.TS_GUARD, [0x1054, 0x2054, 0x106C, 0x206C]), (A.CK_GUARD, [0x308, 0x348])].getD b (0, []) →
      Does (.guardWrite q b v) s fun t =>
        t.dev.armOf q g = (if v.toNat / 65536 = 0x5A5A ∧ v.toNat % 65536 ∈ l then
          some { req := q, target := v.toNat % 65536, since := s.dev.raw } else none) ∧
        (∀ x ∈ s.dev.bus.arms, x.1 ≠ g ∨ x.2.req ≠ q → x ∈ t.dev.bus.arms) ∧
        State.Frame (fun _ => False) { s with dev.bus.arms := t.dev.bus.arms } t) ∧
    (∀ (k : Fin 2) (v : Word) (c : Instr) (a g st : Nat),
      (c, a, g, st) ∈ [(Instr.stepRel q k v, A.STEP_REL_HI k, A.TS_GUARD, A.TS_STATUS),
        (Instr.stepAbs q k v, A.STEP_ABS_SEC_HI k, A.TS_GUARD, A.TS_STATUS),
        (Instr.opllPstep q k v, A.OPLL_PSTEP k, A.CK_GUARD, A.CK_STATUS)] →
      ¬ s.dev.Armed q g a →
      Does c s fun t =>
        t.dev.flag ⟨st, 1, 1⟩ = true ∧ t.dev.armOf q g = none ∧
        State.Frame (· = st) { s with dev.bus.arms := t.dev.bus.arms } t) ∧
    (∀ (k : Fin 2) (v lo : Word) (e : Nat) (l : List (Nat × Word)), s.dev.Armed q A.TS_GUARD (A.STEP_REL_HI k) →
      lo = s.dev.lower q (A.STEP_REL k) → l = [(A.STEP_REL k, lo), (A.STEP_REL_HI k, v)] →
      e = (if s.dev.flag (F.SC_CTRL_AT_SECOND k) then (s.dev.scale k).secondTick (s.dev.raw + 16384) else s.dev.raw + 16384) →
      Does (.stepRel q k v) s fun t =>
        t.dev.armOf q A.TS_GUARD = none ∧
        (s.dev.priv k = false → t.dev.flag ⟨A.TS_STATUS, 1, 1⟩ = true ∧
          State.Frame (· = A.TS_STATUS) { s with dev.bus.arms := t.dev.bus.arms } t) ∧
        (s.dev.priv k = true → (∀ x ∈ t.dev.bus.staged, x.1 ≠ (q, A.STEP_REL k)) ∧
          (s.dev.limitOk l = false → t.dev.flag ⟨A.TS_STATUS, 2, 2⟩ = true ∧
            State.Frame (· = A.TS_STATUS) { s with dev := { s.dev with bus.arms := t.dev.bus.arms, bus.staged := t.dev.bus.staged } } t) ∧
          (s.dev.limitOk l = true → t.dev.reg (A.STEP_REL k) = lo ∧ t.dev.reg (A.STEP_REL_HI k) = v ∧
            ((s.dev.scale k).pend.isSome = true → t.dev.get (F.SC_STATUS_LAST_CODE k) = 1 ∧ t.dev.ts = s.dev.ts) ∧
            (∀ p, (s.dev.scale k).pend = none → (s.dev.scale k).before e = some p →
              s.Steps t k e p none (toSigned 64 (lo.toNat + 2 ^ 32 * v.toNat) * 2 ^ 56) 0x10) ∧
            State.Frame (fun a => a = A.SC_STATUS k ∨ Span (A.STEP_REL k) 8 a)
              { s with dev := { s.dev with ts := t.dev.ts, bus.arms := t.dev.bus.arms, bus.staged := t.dev.bus.staged } } t))) ∧
    (∀ (k : Fin 2) (v f ns lo hi : Word) (e : Nat) (l : List (Nat × Word)), s.dev.Armed q A.TS_GUARD (A.STEP_ABS_SEC_HI k) →
      f = putBits 15 0 (s.dev.reg (A.STEP_ABS k)) (bits 15 0 (s.dev.lower q (A.STEP_ABS k))) →
      ns = putBits 29 0 (s.dev.reg (A.STEP_ABS_NS k)) (bits 29 0 (s.dev.lower q (A.STEP_ABS_NS k))) →
      lo = s.dev.lower q (A.STEP_ABS_SEC_LO k) → hi = putBits 15 0 (s.dev.reg (A.STEP_ABS_SEC_HI k)) (bits 15 0 v) →
      l = [(A.STEP_ABS k, f), (A.STEP_ABS_NS k, ns), (A.STEP_ABS_SEC_LO k, lo), (A.STEP_ABS_SEC_HI k, hi)] →
      e = (if s.dev.flag (F.SC_CTRL_AT_SECOND k) then (s.dev.scale k).secondTick (s.dev.raw + 16384) else s.dev.raw + 16384) →
      Does (.stepAbs q k v) s fun t =>
        t.dev.armOf q A.TS_GUARD = none ∧
        (s.dev.priv k = false → s.dev.flag (F.SC_STATUS_INIT k) = true → t.dev.flag ⟨A.TS_STATUS, 1, 1⟩ = true ∧
          State.Frame (· = A.TS_STATUS) { s with dev.bus.arms := t.dev.bus.arms } t) ∧
        (s.dev.priv k = true ∨ s.dev.flag (F.SC_STATUS_INIT k) = false →
          (∀ x ∈ t.dev.bus.staged, x.1.1 = q → ¬ Span (A.STEP_ABS k) 16 x.1.2) ∧
          (ns.toNat ≤ 999999999 → s.dev.limitOk l = false → t.dev.flag ⟨A.TS_STATUS, 2, 2⟩ = true ∧
            State.Frame (· = A.TS_STATUS) { s with dev := { s.dev with bus.arms := t.dev.bus.arms, bus.staged := t.dev.bus.staged } } t) ∧
          (999999999 < ns.toNat → t.dev.flag ⟨A.TS_STATUS, 0, 0⟩ = true ∧
            State.Frame (· = A.TS_STATUS) { s with dev := { s.dev with bus.arms := t.dev.bus.arms, bus.staged := t.dev.bus.staged } } t) ∧
          (ns.toNat ≤ 999999999 → s.dev.limitOk l = true → (∀ x ∈ l, t.dev.reg x.1 = x.2) ∧
            ((s.dev.scale k).pend.isSome = true → t.dev.get (F.SC_STATUS_LAST_CODE k) = 1 ∧ t.dev.ts = s.dev.ts) ∧
            (∀ p, (s.dev.scale k).pend = none → (s.dev.scale k).before e = some p →
              s.Steps t k e p (some (joinTime (lo.toNat + 2 ^ 32 * hi.toNat) ns.toNat (f.toNat % 65536) * 2 ^ 56)) 0
                (if s.dev.flag (F.SC_STATUS_INIT k) then 0x10 else 0x20)) ∧
            State.Frame (fun a => a = A.SC_STATUS k ∨ Span (A.STEP_ABS k) 16 a)
              { s with dev := { s.dev with ts := t.dev.ts, bus.arms := t.dev.bus.arms, bus.staged := t.dev.bus.staged } } t))) ∧
    (∀ (k : Fin 2) (v : Word) (m : Nat), s.dev.Armed q A.CK_GUARD (A.OPLL_PSTEP k) → s.dev.cks.oplls.length = 2 →
      m = ((s.dev.opll k).target + (s.dev.opll k).queuedSum + toSigned 32 v.toNat).natAbs →
      Does (.opllPstep q k v) s fun t =>
        t.dev.armOf q A.CK_GUARD = none ∧
        (s.dev.priv (2 + k) = false → t.dev.flag ⟨A.CK_STATUS, 1, 1⟩ = true ∧
          State.Frame (· = A.CK_STATUS) { s with dev.bus.arms := t.dev.bus.arms } t) ∧
        (s.dev.priv (2 + k) = true → s.dev.limitOk [(A.OPLL_PSTEP k, v)] = false → t.dev.flag ⟨A.CK_STATUS, 2, 2⟩ = true ∧
          State.Frame (· = A.CK_STATUS) { s with dev.bus.arms := t.dev.bus.arms } t) ∧
        (s.dev.priv (2 + k) = true → s.dev.limitOk [(A.OPLL_PSTEP k, v)] = true → t.dev.reg (A.OPLL_PSTEP k) = v ∧
          (1000000000 < m → t.dev.get (F.OPLL_STATUS_LAST_CODE k) = 1 ∧ t.dev.cks = s.dev.cks) ∧
          (m ≤ 1000000000 → t.dev.get (F.OPLL_STATUS_LAST_CODE k) = 0 ∧
            (t.dev.opll k).queued = (s.dev.opll k).queued ++ [(s.dev.raw + 16384, toSigned 32 v.toNat)]) ∧
          State.Frame (Span (A.OPLL_CFG k) 0x20)
            { s with dev := { s.dev with cks := t.dev.cks, bus.arms := t.dev.bus.arms } } t))

/-- After LOAD, a write of ENABLE of a timing input, the GNSS unit, a timing output, a link or ring of a powered die, or the bignum unit shows the request in ENABLE. A block at rest begins its transition at once; a running transition latches a request that names the other state and clears the latch for one that names the state it will reach (R46, R47, R50). So does an engine, but for an absent one (LAST_CODE 3) and a park that would leave fewer than E_MIN unparked (LAST_CODE 2), which change nothing but the code and raise "Engine park change"; and each present answer die of a write of DIE_CTRL in the modes that run dies, its code 1 for a latched request; an absent die's code is 3, and outside those modes ENABLE alone follows. A ring that starts has HEAD and TAIL 0; a bignum unit that stops wipes. A write against a limit of the Position only sets LIMIT_ERR of the block (R61). Where the spec leaves a point open the clauses follow the model's readings: R48 re-check (log entry 53); Parked dies (log entry 80); Limits on action commands (log entry 168). -/
def Obligations.EnableRequestsLatch : Prop :=
  ∀ (s : State) (want : Bool), s.Safe → s.Shaped →
    (s.dev.loaded = true →
      (∀ n : Fin 8, s.Limits (.inCtrlEnable n want) (A.IN_CTRL n) (s.dev.bit0 (A.IN_CTRL n) want) A.TM_STATUS) ∧
      s.Limits (.gnCtrlEnable want) A.GN_CTRL (s.dev.bit0 A.GN_CTRL want) A.GN_STATUS ∧
      (∀ n : Fin 4, s.Limits (.outCtrlEnable n want) (A.OUT_CTRL n) (s.dev.bit0 (A.OUT_CTRL n) want) A.CK_STATUS) ∧
      (∀ n l : Fin 4, s.dev.diePowered n = true →
        s.Limits (.linkCtrlEnable n l want) (A.LINK_CTRL n l) (s.dev.bit0 (A.LINK_CTRL n l) want) (A.PORT_STATUS n)) ∧
      s.Limits (.bnCtrlEnable want) A.BN_CTRL (s.dev.bit0 A.BN_CTRL want) A.BN_STATUS ∧
      (∀ n e : Fin 4, s.dev.diePowered n = true →
        s.Limits (.engCtrlEnable n e want) (A.ENG_CTRL n e) (s.dev.bit0 (A.ENG_CTRL n e) want) (A.ENG_BLK_STATUS n))) ∧
    (∀ (r : RingId) (b : Nat), b = ringBank r + 0xC → s.dev.ringReach r = true →
      s.Limits (.ringCtrlEnable r want) b (s.dev.bit0 b want) (match r with
        | .cmd | .ev => A.HD_STATUS
        | .rx n _ | .tx n _ => A.RING_BLK_STATUS n)) ∧
    (∀ v : Fin 16, s.Limits (.dieCtrlEnable v) A.DIE_CTRL (putBits 3 0 (s.dev.reg A.DIE_CTRL) v) A.GBL_STATUS) ∧
    (s.dev.loaded = true → ∀ n : Fin 8, s.dev.limitOk [(A.IN_CTRL n, s.dev.bit0 (A.IN_CTRL n) want)] = true →
      Does (.inCtrlEnable n want) s fun t =>
        EnableRule (F.IN_CTRL_ENABLE n) (F.IN_CTRL_STATE n) (F.IN_CTRL_LATCHED n) want s.dev t.dev ∧
        (∀ m : Fin 8, m ≠ n → t.dev.tim m = s.dev.tim m) ∧
        t.dev.tim n = { s.dev.tim n with goodLines := (t.dev.tim n).goodLines } ∧
        State.Still (· = A.IN_CTRL n) { s with dev.tin := t.dev.tin } t) ∧
    (s.dev.loaded = true → s.dev.limitOk [(A.GN_CTRL, s.dev.bit0 A.GN_CTRL want)] = true → Does (.gnCtrlEnable want) s fun t =>
      EnableRule F.GN_CTRL_ENABLE F.GN_CTRL_STATE F.GN_CTRL_LATCHED want s.dev t.dev ∧
      State.Still (· = A.GN_CTRL) { s with dev.gn.asleep := s.dev.gn.asleep && !want } t) ∧
    (s.dev.loaded = true → ∀ n : Fin 4, s.dev.limitOk [(A.OUT_CTRL n, s.dev.bit0 (A.OUT_CTRL n) want)] = true → Does (.outCtrlEnable n want) s fun t =>
      EnableRule (F.OUT_CTRL_ENABLE n) (F.OUT_CTRL_STATE n) (F.OUT_CTRL_LATCHED n) want s.dev t.dev ∧
      (∀ m : Fin 4, m ≠ n → t.dev.tout m = s.dev.tout m) ∧
      State.Still (· = A.OUT_CTRL n) { s with dev.cks.outs := t.dev.cks.outs } t) ∧
    (∀ n l : Fin 4, s.dev.loaded = true → s.dev.diePowered n = true →
      s.dev.limitOk [(A.LINK_CTRL n l, s.dev.bit0 (A.LINK_CTRL n l) want)] = true → Does (.linkCtrlEnable n l want) s fun t =>
      EnableRule (F.LINK_CTRL_ENABLE n l) (F.LINK_CTRL_STATE n l) (F.LINK_CTRL_LATCHED n l) want s.dev t.dev ∧
      (∀ m k : Fin 4, m ≠ n ∨ k ≠ l → t.dev.lnk m k = s.dev.lnk m k) ∧
      State.Still (fun a => a = A.LINK_CTRL n l ∨ Span (A.GRID_ORIGIN n l) 8 a)
        { s with dev := { s.dev with dies := t.dev.dies, bus.shadow := t.dev.bus.shadow, freeCtr := t.dev.freeCtr } } t) ∧
    (s.dev.loaded = true → s.dev.limitOk [(A.BN_CTRL, s.dev.bit0 A.BN_CTRL want)] = true → Does (.bnCtrlEnable want) s fun t =>
      EnableRule F.BN_CTRL_ENABLE F.BN_CTRL_STATE F.BN_CTRL_LATCHED want s.dev t.dev ∧
      (s.dev.get F.BN_CTRL_STATE = 0 → want = false →
        t.dev.bn = none ∧ t.dev.flag F.BN_OP_BUSY = false ∧ t.dev.flag F.BN_OP_WIPING = true) ∧
      ((s.dev.get F.BN_CTRL_STATE ≠ 0 ∨ want = true) → State.Still (· = A.BN_CTRL) s t)) ∧
    (∀ (r : RingId) (b : Nat), b = ringBank r → s.dev.ringReach r = true →
      s.dev.limitOk [(b + 0xC, s.dev.bit0 (b + 0xC) want)] = true → Does (.ringCtrlEnable r want) s fun t =>
      EnableRule (ringEnableF b) (ringState b) (ringLatched b) want s.dev t.dev ∧
      (s.dev.get (ringState b) = 2 → want = true → t.dev.get (ringHead b) = 0 ∧ t.dev.get (ringTail b) = 0) ∧
      ((s.dev.get (ringState b) ≠ 0 ∨ want = true) →
        State.Still (Span (b + 0xC) 12) { s with dev.pcie.rings := t.dev.pcie.rings } t)) ∧
    (∀ n e : Fin 4, s.dev.loaded = true → s.dev.diePowered n = true →
      s.dev.limitOk [(A.ENG_CTRL n e, s.dev.bit0 (A.ENG_CTRL n e) want)] = true →
      (s.dev.parkRefusal n e want (s.dev.flag (F.ENG_CTRL_ENABLE n e)) = none → Does (.engCtrlEnable n e want) s fun t =>
        EnableRule (F.ENG_CTRL_ENABLE n e) (F.ENG_CTRL_STATE n e) (F.ENG_CTRL_LATCHED n e) want s.dev t.dev ∧
        t.dev.get (F.ENG_CTRL_LAST_CODE n e) = boolNat (t.dev.flag (F.ENG_CTRL_LATCHED n e)) ∧
        State.Still (fun a => a = A.ENG_CTRL n e ∨ a = A.DIE_INFO n ∨ a = A.ENG_FAULT n)
          { s with dev.bus.shadow := t.dev.bus.shadow } t) ∧
      (∀ c : Nat, (want = true ∧ bit (s.dev.get (F.DIE_INFO_ENG_MASK n)) e = false ∧ c = 3) ∨
          (want = false ∧ s.dev.flag (F.ENG_CTRL_ENABLE n e) = true ∧
            s.dev.unparkedBut n e < s.dev.get (F.DIE_INFO_E_MIN n) ∧ c = 2) →
        Does (.engCtrlEnable n e want) s fun t =>
          t.dev.get (F.ENG_CTRL_LAST_CODE n e) = c ∧ t.dev.get (evStatus (64 + 16 * n + 7)) = 1 ∧
          t.dev.flag (F.ENG_CTRL_ENABLE n e) = s.dev.flag (F.ENG_CTRL_ENABLE n e) ∧
          t.dev.get (F.ENG_CTRL_STATE n e) = s.dev.get (F.ENG_CTRL_STATE n e) ∧ State.Frame (· = A.ENG_CTRL n e) s t)) ∧
    (∀ v : Fin 16, s.dev.limitOk [(A.DIE_CTRL, putBits 3 0 (s.dev.reg A.DIE_CTRL) v)] = true → Does (.dieCtrlEnable v) s fun t => ∀ n : Fin 4,
      (bit v n = true → s.dev.diePresent n = false →
        t.dev.get ⟨A.DIE_STATE, 19 + 4 * n, 16 + 4 * n⟩ = 3 ∧
        t.dev.flag ⟨A.DIE_CTRL, n, n⟩ = s.dev.flag ⟨A.DIE_CTRL, n, n⟩ ∧ t.dev.dieSt n = s.dev.dieSt n) ∧
      ((bit v n = true → s.dev.diePresent n = true) → s.dev.diesRun = true →
        EnableRule ⟨A.DIE_CTRL, n, n⟩ ⟨A.DIE_STATE, 2 * n + 1, 2 * n⟩ ⟨A.DIE_STATE, 8 + n, 8 + n⟩ (bit v n) s.dev t.dev ∧
        t.dev.get ⟨A.DIE_STATE, 19 + 4 * n, 16 + 4 * n⟩ = boolNat (t.dev.flag ⟨A.DIE_STATE, 8 + n, 8 + n⟩)) ∧
      ((bit v n = true → s.dev.diePresent n = true) → s.dev.diesRun = false →
        t.dev.flag ⟨A.DIE_CTRL, n, n⟩ = bit v n ∧ t.dev.dieSt n = s.dev.dieSt n))

/-- SELECTOR_EVALUATION, with any frequencies of recovered clocks, for each scale: a slot of rank 0 becomes DISABLED (0); a DISABLED slot of another rank ABSENT (1); a QUALIFYING, QUALIFIED, SELECTED or DISQUALIFIED slot of another rank without valid signal (and no recovered clock that gives it one now) ABSENT with JUMPED and the wait-to-restore cleared (R130 rows 1 to 3). While the host owns the scale in force the selector reads FREE_RUN with no switch in progress (R138 last row); with SC_CTRL.DISCIPLINE 1 the scale's journal, pending and end sets stay (R109, R146). A set that the selector forms where none was pending lies at least 16,384 ticks ahead (R105). Only the registers of the reference block, the scales' FREQ_ADJ and SC_STATUS and SOL_UNC change, with selectors, slots' samples, scales and the count of free values. Where the spec leaves a point open the clauses follow the model's readings: Owner of a scale (log entry 132); Coasting and return (log entry 133). -/
def Obligations.SelectorEvaluationRows : Prop :=
  ∀ (s : State) (ys : List (Nat × Int)), s.Safe →
    Does (.selectorEvaluation ys) s fun t =>
      (∀ (k : Fin 2) (i : Fin 12), s.dev.rank k i = 0 → t.dev.slotSt k i = 0) ∧
      (∀ (k : Fin 2) (i : Fin 12), s.dev.rank k i ≠ 0 → s.dev.slotSt k i = 0 → t.dev.slotSt k i = 1) ∧
      (∀ (k : Fin 2) (i : Fin 12), s.dev.rank k i ≠ 0 → 2 ≤ s.dev.slotSt k i → s.dev.slotSt k i ≤ 5 →
        s.dev.flag (F.SLOT_STATE_SIG_VALID i) = false →
        (s.dev.get (F.SLOT_CFG_TYPE i) = 6 → ∀ y ∈ ys, y.1 ≠ s.dev.get (F.SLOT_CFG_BIND i)) →
        t.dev.slotSt k i = 1 ∧ t.dev.flag (slotJumpedF k i) = false ∧ t.dev.get (slotWtrF k i) = 0) ∧
      (∀ k : Fin 2, (s.dev.scale k).hostOwns = true →
        t.dev.selSt k = 0 ∧ (t.dev.sel k).sw = none ∧ t.dev.get (F.SEL_STATUS_TARGET k) = 15) ∧
      (∀ k : Fin 2, s.dev.flag (F.SC_CTRL_DISCIPLINE k) = true →
        (t.dev.scale k).journal = (s.dev.scale k).journal ∧ (t.dev.scale k).pend = (s.dev.scale k).pend ∧
        (t.dev.scale k).ends = (s.dev.scale k).ends) ∧
      (∀ (k : Fin 2) (n : Sys2Proof.Machine.PSet), (s.dev.scale k).pend = none → (t.dev.scale k).pend = some n → s.dev.raw + 16384 ≤ n.epoch) ∧
      State.Frame (fun a => Span 0x20000 0x3000 a ∨ Span 0x11000 0x2000 a ∨ a = A.SOL_UNC)
        { s with dev := { s.dev with ts := t.dev.ts, refs := t.dev.refs, freeCtr := t.dev.freeCtr } } t

/-- With twelve views per selector: DISQ sets reason HOST of the slot for both selectors, RELEASE clears that reason only, and neither changes a register or another slot (R133; after LOAD). WTR_EXPIRY of a QUALIFYING slot with valid signal, no reason and its wait ended makes it QUALIFIED with JUMPED cleared and "Slot state change" raised (R130 row 9, R132). DISAGREEMENT_PERSISTS of a candidate of the best rank whose disagreement has lasted 10 s: with three or more candidates that have a frequency it becomes DISQUALIFIED with reason DISAGREE, with exactly two it carries DISAG and "Reference disagreement" is raised unless one carries it already (R135). SIGNAL_TIMEOUT of a slot but a GNSS one, whose source lost its signal or was not heard for the type's limit (2 s; three Sync intervals of a PTP stream; 10 ms of a chain peer), makes its signal invalid and drops its samples, and for a chain peer clears PEER_VALID (R128). Where the spec leaves a point open the clauses follow the model's readings: Frequency of a source (log entry 19); When a slot was last heard (log entry 137). -/
def Obligations.SlotsQualifiedAndDisqualified : Prop :=
  ∀ (s : State) (i : Fin 12), s.Safe → s.Shaped →
    (s.dev.loaded = true → ∀ (c : Instr) (b : Bool), (c, b) ∈ [(Instr.disq i, true), (Instr.release i, false)] →
      Does c s fun t =>
        (∀ k : Fin 2, (t.dev.view k i).reasons = putBit (s.dev.view k i).reasons 4 b ∧
          ∀ j, j ≠ i.val → t.dev.view k j = s.dev.view k j) ∧
        State.Still (fun _ => False) { s with dev.refs := t.dev.refs } t ∧ t.dev.refs.srcs = s.dev.refs.srcs) ∧
    (∀ k : Fin 2, s.dev.slotSt k i = 2 → (s.dev.view k i).wtrEnd ≤ s.dev.raw →
      s.dev.flag (F.SLOT_STATE_SIG_VALID i) = true → (s.dev.view k i).reasons = 0 →
      Does (.wtrExpiry k i) s fun t =>
        t.dev.slotSt k i = 3 ∧ t.dev.flag (slotJumpedF k i) = false ∧ t.dev.get (slotWtrF k i) = 0 ∧
        (t.dev.view k i).everQualified = true ∧ t.dev.flag (F.SLOT_STATE_CHANGED i) = true ∧ t.dev.get (evStatus 24) = 1 ∧
        State.Frame (fun a => a = A.SLOT_STATE i ∨ a = A.SLOT_WTR_REMAIN i) { s with dev.refs := t.dev.refs } t) ∧
    (∀ (k : Fin 2) (l : List Nat) (since : Nat), (s.dev.view k i).disSince = some since → since + 10 * secTicks ≤ s.dev.raw →
      l = (s.dev.disagreeSet k).filter (fun o => (s.dev.src o).freq.isSome) → i.val ∈ s.dev.disagreeing k →
      (3 ≤ l.length → bit (s.dev.view k i).reasons 2 = false →
        Does (.disagreementPersists k i) s fun t =>
          t.dev.slotSt k i = 5 ∧ (t.dev.view k i).reasons = putBit (s.dev.view k i).reasons 2 true ∧
          (bit (s.dev.view k i).reasons 1 = false → t.dev.get (slotReasonF k i) = 2) ∧ t.dev.get (evStatus 24) = 1 ∧
          State.Frame (· = A.SLOT_STATE i) { s with dev.refs := t.dev.refs } t) ∧
      (l.length = 2 →
        Does (.disagreementPersists k i) s fun t =>
          t.dev.flag (slotDisagF k i) = true ∧ t.dev.slotSt k i = s.dev.slotSt k i ∧
          ((∀ o ∈ s.dev.disagreeSet k, s.dev.flag (slotDisagF k o) = false) → t.dev.get (evStatus 25) = 1) ∧
          State.Frame (· = A.SLOT_STATE i) s t)) ∧
    (∀ (lost : Bool) (ty lim : Nat) (lg : Int), ty = s.dev.get (F.SLOT_CFG_TYPE i) → ty ≠ 4 →
      lg = toSigned 8 (s.dev.get (F.STR_REQ_LOG_SYNC (s.dev.get (F.SLOT_CFG_BIND i)))) →
      (lost = true ∨ ty ≠ 6 ∧ (s.dev.src i).heard + 65536 * lim ≤ 65536 * s.dev.raw) →
      lim = (if ty = 5 then (if 0 ≤ lg then 2400000000 * 2 ^ lg.toNat else 2400000000 / 2 ^ (-lg).toNat)
             else if ty = 7 then 8000000 else 1600000000) →
      Does (.signalTimeout i lost) s fun t =>
        t.dev.flag (F.SLOT_STATE_SIG_VALID i) = false ∧ (t.dev.src i).has = false ∧ (t.dev.src i).hist = [] ∧
        (t.dev.src i).freq = none ∧ (∀ j, j ≠ i.val → t.dev.src j = s.dev.src j) ∧
        (∀ p : Fin 2, s.dev.get (F.SLOT_CFG_TYPE i) = 7 → s.dev.get (F.SLOT_CFG_BIND i) = p →
          t.dev.flag (F.GR_PSTATUS_PEER_VALID p) = false ∧
          State.Still (fun a => a = A.SLOT_STATE i ∨ a = A.GR_PSTATUS p)
            { s with dev := { s.dev with refs := t.dev.refs, ring.ports := t.dev.ring.ports } } t) ∧
        (s.dev.get (F.SLOT_CFG_TYPE i) ≠ 7 → State.Still (· = A.SLOT_STATE i) { s with dev.refs := t.dev.refs } t))

/-- LOCK_QUALIFIED of an ACQUIRING selector whose SELECTED slot's offset has lain within LOCK_WINDOW with no slew left for 10 s makes it LOCKED and publishes a quality record of LOCKED 16,384 ticks ahead (R138, R145). HOLDOVER_EXPIRED of a selector in HOLDOVER for tau whole seconds: where E(tau) exceeds HOLD_LIMIT, or no slot has been followed since FREE_RUN and E is unbounded (DEDUCED, log entry 121), it becomes LOST with HOLD_REMAIN 0, "Holdover expired" and "Selector state change" raised; else HOLD_REMAIN is not 0 and nothing else changes (R143). TB_PLL_COAST_TIMEOUT makes LOST each selector in HOLDOVER whose coast began 100 ms ago or earlier, with the TB-PLL not off (R138, R143). MEASURE_END takes the sixteenth offset, keeps the mean of the 16 and shows COMMIT (R136). STEP_ON_RECOVER_WRITE, after LOAD, stores 0 or, with PRIV [4] and the scale's step bit, 1, and else sets only PRIV_ERR (R144), or LIMIT_ERR against a limit (R61). The other selector and both scales' sets stay. Where the spec leaves a point open the clauses follow the model's readings: Unbounded E before the first commit (log entry 121); Windows of the selector (log entry 135); Limits on action commands (log entry 168). -/
def Obligations.SelectorsLockExpireAndMeasure : Prop :=
  ∀ (s : State) (k j : Fin 2), s.Safe → j ≠ k →
    (∀ (i : Fin 12) (p : Int) (since : Nat), s.dev.selSt k = 1 → s.dev.get (F.SEL_STATUS_SELECTED k) = i → s.dev.slotSt k i = 4 →
      (s.dev.sel k).slewLeft = 0 → (s.dev.scale k).slewRemain (ticks16 s.dev.raw) = 0 → s.dev.slotPhi k i = some p →
      p.natAbs ≤ s.dev.get (F.LOCK_WINDOW_NS k) * 65536 → (s.dev.sel k).lockSince = some since →
      since + 10 * secTicks ≤ s.dev.raw →
      Does (.lockQualified k) s fun t =>
        t.dev.selSt k = 2 ∧ t.dev.flag (F.SEL_STATUS_DONE k) = true ∧ t.dev.get (evStatus (20 + k)) = 1 ∧
        (t.dev.sel k).everLocked = true ∧ (t.dev.sel k).extra = 0 ∧
        (∃ q l, (t.dev.scale k).quality = q :: l ∧ q.state = 2 ∧ q.q = s.dev.raw + 16384) ∧
        (t.dev.scale k).sets = (s.dev.scale k).sets ∧ t.dev.scale j = s.dev.scale j ∧ t.dev.sel j = s.dev.sel j ∧
        State.Frame (fun a => a = A.SEL_STATUS k ∨ a = A.E_NOW k ∨ a = A.E_RATE k)
          { s with dev := { s.dev with ts := t.dev.ts, refs := t.dev.refs, freeCtr := t.dev.freeCtr } } t) ∧
    (∀ tau : Nat, s.dev.selSt k = 3 → tau = (s.dev.raw - (s.dev.sel k).entry) / secTicks → tau < 2 ^ 33 →
      ((s.dev.sel k).committed = false ∨ s.dev.get (F.HOLD_LIMIT_NS k) * 1000 < s.dev.holdBound k ((s.dev.sel k).entry + tau * secTicks) →
        Does (.holdoverExpired k) s fun t =>
          t.dev.selSt k = 4 ∧ t.dev.get (F.HOLD_REMAIN_S k) = 0 ∧ t.dev.get (evStatus (22 + k)) = 1 ∧
          t.dev.get (evStatus (20 + k)) = 1 ∧ t.dev.flag (F.SEL_STATUS_DONE k) = true ∧
          (∃ q l, (t.dev.scale k).quality = q :: l ∧ q.state = 4 ∧ q.q = s.dev.raw + 16384) ∧
          (t.dev.scale k).sets = (s.dev.scale k).sets ∧ t.dev.scale j = s.dev.scale j ∧ t.dev.sel j = s.dev.sel j ∧
          t.dev.refs.srcs = s.dev.refs.srcs ∧
          State.Frame (fun a => a = A.SEL_STATUS k ∨ a = A.E_NOW k ∨ a = A.E_RATE k ∨ a = A.HOLD_REMAIN k)
            { s with dev := { s.dev with ts := t.dev.ts, refs := t.dev.refs } } t) ∧
      ((s.dev.sel k).committed = true → s.dev.holdBound k ((s.dev.sel k).entry + tau * secTicks) ≤ s.dev.get (F.HOLD_LIMIT_NS k) * 1000 →
        Does (.holdoverExpired k) s fun t =>
          t.dev.get (F.HOLD_REMAIN_S k) ≠ 0 ∧ State.Still (· = A.HOLD_REMAIN k) s t)) ∧
    (∀ since : Nat, s.dev.coarse = false → s.dev.selSt k = 3 → (s.dev.sel k).coast = some since →
      since + 100 * msTicks ≤ s.dev.raw →
      Does .tbPllCoastTimeout s fun t =>
        t.dev.selSt k = 4 ∧ t.dev.get (evStatus (22 + k)) = 1 ∧ t.dev.get (F.HOLD_REMAIN_S k) = 0 ∧
        (t.dev.scale k).sets = (s.dev.scale k).sets ∧ ((s.dev.sel j).coast = none → t.dev.selSt j = s.dev.selSt j) ∧
        t.dev.refs.srcs = s.dev.refs.srcs ∧
        State.Frame (fun a => Span 0x21000 0x2000 a) { s with dev := { s.dev with ts := t.dev.ts, refs := t.dev.refs } } t) ∧
    (∀ (w : SelSwitch) (p : Int), (s.dev.sel k).sw = some w → w.count = 15 → w.measured = none → w.commit = none →
      w.init = false → w.target < 12 → s.dev.slotPhi k w.target = some p →
      Does (.measureEnd k) s fun t =>
        (t.dev.sel k).sw = some { w with count := 16, sum := w.sum + p, measured := some ((w.sum + p) / 16, s.dev.raw) } ∧
        t.dev.get (F.SEL_STATUS_SWITCH k) = 2 ∧ t.dev.get (F.SEL_STATUS_TARGET k) = w.target ∧ t.dev.sel j = s.dev.sel j ∧
        State.Still (· = A.SEL_STATUS k) { s with dev.refs := t.dev.refs } t) ∧
    (s.dev.loaded = true → ∀ v : Bool, s.Limits (.stepOnRecoverWrite k v) (A.SEL_CTRL k) (s.dev.bit0 (A.SEL_CTRL k) v) A.RF_STATUS) ∧
    (s.dev.loaded = true → ∀ v : Bool, s.dev.limitOk [(A.SEL_CTRL k, s.dev.bit0 (A.SEL_CTRL k) v)] = true →
      ((v = true → s.dev.priv 4 = true ∧ s.dev.priv k = true) →
        Does (.stepOnRecoverWrite k v) s fun t =>
          t.dev.flag (F.SEL_CTRL_STEP_ON_RECOVER k) = v ∧ State.Still (· = A.SEL_CTRL k) s t) ∧
      (v = true → (s.dev.priv 4 && s.dev.priv k) = false →
        Does (.stepOnRecoverWrite k v) s fun t =>
          t.dev.flag F.RF_STATUS_PRIV_ERR = true ∧ State.Still (· = A.RF_STATUS) s t))

/-- INPUT_EDGE at a timing input whose level changes: an open candidate has its run of hold restarted or broken; an input that is not RUNNING only shows the level; within 10 ns of the last stamp an edge of a selected polarity counts in DEAD_CNT; else it is stamped, under DIVIDE, which starts the next dead time, and with FILT opens a candidate with that stamp, from the calibrated code or, with the TB-PLL off, the count truncated to 80 ticks (R149, R151, R155, R156). A candidate that has held for FILT, in a run begun within BOUNCE (CANDIDATE_ACCEPT), or without FILT the edge itself, is accepted with that stamp: on an input that measures in TIMESTAMP mode, at the 2^d-th edge, a record of the stamp is appended to the FIFO, or counted in FIFO_DROP with FIFO_OVF where it holds 1,024 (R162, R163); before the 2^d-th it is only counted. CANDIDATE_REJECT drops a candidate that can no longer hold in time and counts it in GLITCH_CNT. Where the spec leaves a point open the clauses follow the model's readings: DIVIDE (log entry 21). -/
def Obligations.EdgesFilteredAndStamped : Prop :=
  ∀ (s : State) (n : Fin 8) (level : Bool) (code : Fin 512) (irig : Option (Option Int)) (x : TimIn) (stamp : Nat),
    s.Safe → s.Shaped → s.dev.tim n = x →
    stamp = (if s.dev.coarse then ticks16 (s.dev.raw / 80 * 80)
      else (((s.dev.raw + 1) * 65536 : Nat) - (tapPos (x.tables.getD (s.dev.get (F.IN_STATUS_LINE n)) none) code : Int)
        - toSigned 32 (s.dev.get (F.IN_COMP_COMP n))).toNat) →
    (∀ c, x.cand = some c →
      Does (.inputEdge n level code irig) s fun t =>
        t.dev.tim n = { x with level := level, cand := some { c with run := if level = c.level then some s.dev.raw else none } } ∧
        (∀ m, m ≠ n.val → t.dev.tim m = s.dev.tim m) ∧
        State.Still (fun _ => False) { s with dev.tin := t.dev.tin } t) ∧
    (x.cand = none → s.dev.get (F.IN_CTRL_STATE n) ≠ 0 →
      Does (.inputEdge n level code irig) s fun t =>
        t.dev.tim n = { x with level := level } ∧ t.dev.flag (F.IN_STATUS_LEVEL n) = level ∧
        State.Still (· = A.IN_STATUS n) { s with dev.tin := setAt s.dev.tin n { x with level := level } } t) ∧
    (x.cand = none → s.dev.get (F.IN_CTRL_STATE n) = 0 →
      (s.dev.get (F.IN_CFG_EDGE n) = 2 ∨ s.dev.get (F.IN_CFG_EDGE n) = (if level then 0 else 1)) →
      (∀ l, x.lastStamp = some l → stamp < l + 8 * 65536 →
        Does (.inputEdge n level code irig) s fun t =>
          t.dev.reg (A.DEAD_CNT n) = s.dev.reg (A.DEAD_CNT n) + 1 ∧
          State.Still (· = A.DEAD_CNT n) { s with dev.tin := setAt s.dev.tin n { x with level := level } } t) ∧
      ((∀ l, x.lastStamp = some l → l + 8 * 65536 ≤ stamp) → s.dev.get (F.IN_FILT_FILT n) ≠ 0 →
        Does (.inputEdge n level code irig) s fun t =>
          (t.dev.tim n).cand = some { stamp := stamp, level := level, edge := s.dev.raw, run := some s.dev.raw } ∧
          (t.dev.tim n).lastStamp = (if 2 ^ s.dev.get (F.IN_CFG_DIVIDE n) ≤ x.divCount + 1 then some stamp else x.lastStamp) ∧
          (∀ m, m ≠ n.val → t.dev.tim m = s.dev.tim m) ∧
          State.Still (fun _ => False) { s with dev.tin := t.dev.tin } t)) ∧
    (∀ (c : Instr) (st : Nat),
      (c = .inputEdge n level code irig ∧ st = stamp ∧ x.cand = none ∧ s.dev.get (F.IN_CTRL_STATE n) = 0 ∧
        (s.dev.get (F.IN_CFG_EDGE n) = 2 ∨ s.dev.get (F.IN_CFG_EDGE n) = (if level then 0 else 1)) ∧
        (∀ l, x.lastStamp = some l → l + 8 * 65536 ≤ stamp) ∧ s.dev.get (F.IN_FILT_FILT n) = 0) ∨
      (c = .candidateAccept n irig ∧ ∃ y r, x.cand = some y ∧ y.stamp = st ∧ y.level = level ∧ y.run = some r ∧
        r ≤ y.edge + s.dev.get (F.IN_FILT_BOUNCE n) * usTicks ∧ r + s.dev.get (F.IN_FILT_FILT n) * 8 ≤ s.dev.raw) →
      (x.divCount + 1 < 2 ^ s.dev.get (F.IN_CFG_DIVIDE n) → Does c s fun t =>
        (t.dev.tim n).divCount = x.divCount + 1 ∧ (t.dev.tim n).stamps = x.stamps ∧ (t.dev.tim n).cand = none ∧
        t.dev.flag (F.IN_STATUS_LEVEL n) = level ∧
        State.Still (· = A.IN_STATUS n) { s with dev := { s.dev with tin := t.dev.tin, refs.srcs := t.dev.refs.srcs } } t) ∧
      (s.dev.get (F.IN_CFG_ROLE n) = 0 → s.dev.get (F.MEAS_CFG_MODE n) = 0 →
      2 ^ s.dev.get (F.IN_CFG_DIVIDE n) ≤ x.divCount + 1 →
      Does c s fun t =>
        (t.dev.tim n).cand = none ∧ (t.dev.tim n).divCount = 0 ∧
        (c = .inputEdge n level code irig → (t.dev.tim n).lastStamp = some st) ∧ t.dev.flag (F.IN_STATUS_LEVEL n) = level ∧
        (x.stamps.length < 1024 →
          (t.dev.tim n).stamps = x.stamps ++ [s.dev.refRecord (s.dev.get (F.MEAS_CFG_REF n)) st (s.dev.flag (F.MEAS_CFG_UTC n)) 0] ∧
          t.dev.get (F.IN_STATUS_FIFO_LEVEL n) = x.stamps.length + 1) ∧
        (1024 ≤ x.stamps.length →
          (t.dev.tim n).stamps = x.stamps ∧ t.dev.reg (A.FIFO_DROP n) = s.dev.reg (A.FIFO_DROP n) + 1 ∧
          t.dev.flag (F.MEAS_STATUS_FIFO_OVF n) = true ∧ t.dev.get (evStatus 29) = 1) ∧
        State.Frame (fun a => Span 0x30100 0x800 a ∨ Span 0x20100 0x300 a)
          { s with dev := { s.dev with tin := t.dev.tin, refs.srcs := t.dev.refs.srcs } } t)) ∧
    (∀ c, x.cand = some c →
      (c.run = none ∧ c.edge + s.dev.get (F.IN_FILT_BOUNCE n) * usTicks < s.dev.raw ∨
        ∃ r, c.run = some r ∧ c.edge + s.dev.get (F.IN_FILT_BOUNCE n) * usTicks < r) →
      Does (.candidateReject n) s fun t =>
        (t.dev.tim n).cand = none ∧ t.dev.reg (A.GLITCH_CNT n) = s.dev.reg (A.GLITCH_CNT n) + 1 ∧
        State.Still (· = A.GLITCH_CNT n) { s with dev.tin := setAt s.dev.tin n { x with cand := none } } t)

/-- With the TB-PLL off neither command changes anything (R156). Else CALIBRATION_COMPLETE with the hits of 512 taps into the line that is not live: fewer than 448 taps hit, or a bin wider than 10 ps (a count h with h × 1.25 ns / 2^20 above 10 ps), fails: CAL_WARN and CAL_FAIL are set, a measurement that runs notes it, the warning is raised and both tables stay (R153, R169); else that line's table is the histogram, ready for the swap, and CAL_WARN clears once both lines have completed a good calibration since the last failure. CAL_SPAN of the line shows the taps hit. DELAY_LINE_SWAP with a fresh table makes that line live, else nothing changes (R152). A table's position of a code, pos(c), is the sum of the lower widths and half the bin, rounded to the nearest unit (R151). -/
def Obligations.LinesCalibratedAndSwapped : Prop :=
  ∀ (s : State) (n : Fin 8) (x : TimIn) (line : Nat), s.Safe → s.Shaped → s.dev.tim n = x →
    line = 1 - s.dev.get (F.IN_STATUS_LINE n) →
    (s.dev.coarse = true → ∀ c : Instr, c = .delayLineSwap n ∨ (∃ hits, c = .calibrationComplete n hits) →
      Does c s fun t => State.Still (fun _ => False) s t) ∧
    (∀ hits : List Nat, hits.length = 512 → s.dev.coarse = false →
      (((hits.filter (· ≠ 0)).length < 448 ∨ ∃ h ∈ hits, 10000 * 2 ^ 20 < h * 1250000) →
        Does (.calibrationComplete n hits) s fun t =>
          t.dev.flag (F.IN_STATUS_CAL_WARN n) = true ∧ t.dev.flag (F.IN_STATUS_CAL_FAIL n) = true ∧
          t.dev.get (evStatus 30) = 1 ∧
          t.dev.get (if line = 0 then F.CAL_SPAN_SPAN0 n else F.CAL_SPAN_SPAN1 n) = (hits.filter (· ≠ 0)).length ∧
          (t.dev.tim n).tables = x.tables ∧ (t.dev.tim n).goodLines = 0 ∧ (∀ g ∈ (t.dev.tim n).gates, g.calWarn = true) ∧
          (∀ st, (t.dev.tim n).start = some st → st.calWarn = true) ∧ (∀ m, m ≠ n.val → t.dev.tim m = s.dev.tim m) ∧
          { t.dev.tim n with goodLines := x.goodLines, gates := x.gates, start := x.start } = x ∧
          State.Frame (fun a => a = A.IN_STATUS n ∨ a = A.CAL_SPAN n) { s with dev.tin := t.dev.tin } t) ∧
      (448 ≤ (hits.filter (· ≠ 0)).length → (∀ h ∈ hits, h * 1250000 ≤ 10000 * 2 ^ 20) →
        Does (.calibrationComplete n hits) s fun t =>
          (t.dev.tim n).tables.getD line none = some hits ∧ (t.dev.tim n).swapReady = true ∧
          (t.dev.tim n).tables.getD (1 - line) none = x.tables.getD (1 - line) none ∧
          (x.goodLines ||| 2 ^ line = 3 → t.dev.flag (F.IN_STATUS_CAL_WARN n) = false) ∧
          (x.goodLines ||| 2 ^ line ≠ 3 →
            t.dev.flag (F.IN_STATUS_CAL_WARN n) = s.dev.flag (F.IN_STATUS_CAL_WARN n)) ∧
          t.dev.get (if line = 0 then F.CAL_SPAN_SPAN0 n else F.CAL_SPAN_SPAN1 n) = (hits.filter (· ≠ 0)).length ∧
          State.Still (fun a => a = A.IN_STATUS n ∨ a = A.CAL_SPAN n) { s with dev.tin := t.dev.tin } t)) ∧
    (x.swapReady = true → s.dev.coarse = false → Does (.delayLineSwap n) s fun t =>
      t.dev.get (F.IN_STATUS_LINE n) = line ∧
      State.Still (· = A.IN_STATUS n) { s with dev.tin := setAt s.dev.tin n { x with swapReady := false } } t) ∧
    (x.swapReady = false → Does (.delayLineSwap n) s fun t => State.Still (fun _ => False) s t) ∧
    (∀ (h : List Nat) (c : Nat), c < h.length → (h.foldl (· + ·) 0 = 2 ^ 20) →
      (2 * (16 * tapPos (some h) c : Int) - (2 * (h.take c).sum + h.getD c 0)).natAbs ≤ 16)

/-- After LOAD, ARM shows BUSY (1) where armed, BAD_CFG (2) for FREQUENCY with no gate or INTERVAL with START_SEL its own input and EDGE not both, DISABLED (3) unless RUNNING, in that order, and changes nothing else; else code 0, ARMED, and with an internal gate in FREQUENCY or PERIOD the first open, without ALIGN 800 ticks ahead (R159, R171). GATE_OPEN at a due open adds a gate from there to MEAS_GATE.MS ms later and, with CONT and no STOP, the next open there. GATE_CLOSE with no open due shows whether a gate is open. STOP opens no further gate and disarms a unit with none (R159). START_TIMEOUT of a start older than MEAS_TIMEOUT drops it and counts NOSTOP_CNT (R164). FLUSH empties both FIFOs (R170). Where the spec leaves a point open the clauses follow the model's readings: Bits written together (log entry 103); Stamps kept for gates (log entry 138). -/
def Obligations.MeasurementsArmedGatedAndTimed : Prop :=
  ∀ (s : State) (n : Fin 8) (x : TimIn) (mode : Nat), s.Safe → s.Shaped → s.dev.tim n = x →
    mode = s.dev.get (F.MEAS_CFG_MODE n) →
    (∀ code : Nat, s.dev.loaded = true →
      code = (if s.dev.flag (F.MEAS_STATUS_ARMED n) then 1
        else if (mode = 2 ∧ s.dev.get (F.MEAS_CFG_GATE_SEL n) = 15) ∨
          (mode = 1 ∧ s.dev.get (F.MEAS_CFG_START_SEL n) = n ∧ s.dev.get (F.IN_CFG_EDGE n) ≠ 2) then 2
        else if s.dev.get (F.IN_CTRL_STATE n) ≠ 0 then 3 else 0) →
      Does (.arm n) s fun t =>
        t.dev.get (F.MEAS_STATUS_LAST_CODE n) = code ∧
        (code ≠ 0 → State.Still (· = A.MEAS_STATUS n) s t) ∧
        (code = 0 → t.dev.flag (F.MEAS_STATUS_ARMED n) = true ∧ (t.dev.tim n).gates = [] ∧
          (t.dev.tim n).stopping = false ∧ (t.dev.tim n).start = none ∧ (t.dev.tim n).stop = none ∧
          (t.dev.tim n).carry = none ∧ (t.dev.tim n).armedAt = s.dev.raw ∧
          ((s.dev.get (F.MEAS_CFG_GATE_SEL n) ≠ 8 ∨ mode < 2) → (t.dev.tim n).nextOpen = none) ∧
          (s.dev.get (F.MEAS_CFG_GATE_SEL n) = 8 → 2 ≤ mode → s.dev.flag (F.MEAS_CFG_ALIGN n) = false →
            (t.dev.tim n).nextOpen = some (s.dev.raw + 800)) ∧
          (t.dev.tim n).stamps = x.stamps ∧ (t.dev.tim n).results = x.results ∧
          (∀ m, m ≠ n.val → t.dev.tim m = s.dev.tim m) ∧
          State.Still (· = A.MEAS_STATUS n) { s with dev.tin := t.dev.tin } t)) ∧
    (∀ o : Nat, x.nextOpen = some o → o ≤ s.dev.raw →
      Does (.gateOpen n) s fun t =>
        (∃ g, (t.dev.tim n).gates = x.gates ++ [g] ∧ g.opened = ticks16 o ∧ g.n = 0 ∧ g.m = 0 ∧
          g.closed = some (ticks16 (o + s.dev.get (F.MEAS_GATE_MS n) * msTicks))) ∧
        (t.dev.tim n).nextOpen = (if s.dev.flag (F.MEAS_CTRL_CONT n) && !x.stopping then
          some (o + s.dev.get (F.MEAS_GATE_MS n) * msTicks) else none) ∧
        (s.dev.raw < o + s.dev.get (F.MEAS_GATE_MS n) * msTicks → t.dev.flag (F.MEAS_STATUS_GATE_OPEN n) = true) ∧
        (∀ m, m ≠ n.val → t.dev.tim m = s.dev.tim m) ∧
        State.Still (· = A.MEAS_STATUS n) { s with dev.tin := t.dev.tin } t) ∧
    ((∀ o, x.nextOpen = some o → s.dev.raw < o) →
      Does (.gateClose n) s fun t =>
        (t.dev.flag (F.MEAS_STATUS_GATE_OPEN n) = true ↔
          ∃ g ∈ x.gates, g.opened ≤ ticks16 s.dev.raw ∧ ∀ c, g.closed = some c → ticks16 s.dev.raw < c) ∧
        State.Still (· = A.MEAS_STATUS n) s t) ∧
    (s.dev.loaded = true → x.gates = [] → Does (.stop n) s fun t =>
      t.dev.flag (F.MEAS_STATUS_ARMED n) = false ∧ t.dev.flag (F.MEAS_STATUS_START_ARMED n) = false ∧
      State.Still (· = A.MEAS_STATUS n)
        { s with dev.tin := setAt s.dev.tin n { x with stopping := true, nextOpen := none, start := none, carry := none } } t) ∧
    (s.dev.loaded = true → x.gates ≠ [] → Does (.stop n) s fun t =>
      State.Still (fun _ => False) { s with dev.tin := setAt s.dev.tin n { x with stopping := true, nextOpen := none } } t) ∧
    (s.dev.loaded = true → Does (.flush n) s fun t =>
      t.dev.get (F.IN_STATUS_FIFO_LEVEL n) = 0 ∧ t.dev.get (F.MEAS_STATUS_RES_LEVEL n) = 0 ∧
      State.Still (fun a => a = A.IN_STATUS n ∨ a = A.MEAS_STATUS n)
        { s with dev.tin := setAt s.dev.tin n { x with stamps := [], results := [] } } t) ∧
    (∀ st : Start, x.start = some st →
      st.since + max 1 (s.dev.get (F.MEAS_TIMEOUT_US n)) * usTicks ≤ s.dev.raw →
      Does (.startTimeout n) s fun t =>
        t.dev.flag (F.MEAS_STATUS_START_ARMED n) = false ∧ t.dev.reg (A.NOSTOP_CNT n) = s.dev.reg (A.NOSTOP_CNT n) + 1 ∧
        State.Still (fun a => a = A.MEAS_STATUS n ∨ a = A.NOSTOP_CNT n)
          { s with dev.tin := setAt s.dev.tin n { x with start := none } } t)

/-- An accepted stop of an armed INTERVAL unit (CANDIDATE_ACCEPT, START_SEL another input) is held until its tick is over, so that a start of the same tick counts first (R164); a stop held from an earlier tick, met with an armed start at the next stop, and GATE_RESULT of the oldest closed gate with no candidate stamped before its close each form one record: with fewer than 16 in the FIFO it is appended, 64 bytes long, with its mode, input n, SEQ, and for an interval the start's record, the exact difference of the two times, truncated to 2^-16 ns, with ORDER, SUBRES, CAL_WARN and DEAD; RES_LEVEL and DONE are set and "Measurement result" is raised; else RES_DROP counts it, RES_OVF is set and the overflow is raised (R160, R164, R165, R169). With no start armed the held stop counts in ORPHAN_CNT. Without CONT the unit disarms after an interval. INPUT_TRANSITION_COMPLETE of a shutdown with no candidate disarms, ends every gate, with one SHORT record where one gate was open (what one of an armed unit with no gate holds is the model's choice), and takes the samples from the bound slots; of a start-up, once both lines are calibrated or with the TB-PLL off, it clears the six counters, and before does nothing; a latched request then starts the other transition (R48, R170). Where the spec leaves a point open the clauses follow the model's readings: Statistics of a gate (log entry 22); Stamps kept for gates (log entry 138); Start and stop of one tick (log entry 139); A SHORT record without a gate (log entry 140); Start-up of an input (log entry 141). -/
def Obligations.ResultsRecorded : Prop :=
  ∀ (s : State) (n : Fin 8) (x : TimIn), s.Safe → s.Shaped → s.dev.tim n = x →
    (∀ (irig : Option (Option Int)) (y : Candidate) (r : Nat), x.cand = some y → y.run = some r →
      r ≤ y.edge + s.dev.get (F.IN_FILT_BOUNCE n) * usTicks → r + s.dev.get (F.IN_FILT_FILT n) * 8 ≤ s.dev.raw →
      s.dev.get (F.IN_CFG_ROLE n) = 0 → s.dev.get (F.MEAS_CFG_MODE n) = 1 →
      2 ^ s.dev.get (F.IN_CFG_DIVIDE n) ≤ x.divCount + 1 → s.dev.flag (F.MEAS_STATUS_ARMED n) = true →
      s.dev.get (F.MEAS_CFG_START_SEL n) ≠ n →
      (∀ h, x.stop = some h → s.dev.raw ≤ h.1 ∨ x.start = none) →
      Does (.candidateAccept n irig) s fun t =>
        (t.dev.tim n).stop = some (s.dev.raw, y.stamp) ∧ (t.dev.tim n).start = x.start ∧ (t.dev.tim n).results = x.results ∧
        (∀ h, x.stop = some h → h.1 < s.dev.raw → t.dev.reg (A.ORPHAN_CNT n) = s.dev.reg (A.ORPHAN_CNT n) + 1) ∧
        ((∀ h, x.stop = some h → s.dev.raw ≤ h.1) → t.dev.reg (A.ORPHAN_CNT n) = s.dev.reg (A.ORPHAN_CNT n)) ∧
        State.Frame (fun a => Span 0x30100 0x800 a ∨ Span 0x20100 0x300 a)
          { s with dev := { s.dev with tin := t.dev.tin, refs.srcs := t.dev.refs.srcs } } t) ∧
    (∀ (c : Instr) (P : List Byte → Prop) (irig : Option (Option Int)),
      ((∃ y r at' st s0 dt, c = .candidateAccept n irig ∧ x.cand = some y ∧ y.run = some r ∧
          r ≤ y.edge + s.dev.get (F.IN_FILT_BOUNCE n) * usTicks ∧ r + s.dev.get (F.IN_FILT_FILT n) * 8 ≤ s.dev.raw ∧
          s.dev.get (F.IN_CFG_ROLE n) = 0 ∧ s.dev.get (F.MEAS_CFG_MODE n) = 1 ∧
          2 ^ s.dev.get (F.IN_CFG_DIVIDE n) ≤ x.divCount + 1 ∧ s.dev.flag (F.MEAS_STATUS_ARMED n) = true ∧
          s.dev.get (F.MEAS_CFG_START_SEL n) ≠ n ∧ x.stop = some (at', st) ∧ at' < s.dev.raw ∧ x.start = some s0 ∧
          s0.rec'.length = 16 ∧ dt = s.dev.refTime18 (s.dev.get (F.MEAS_CFG_REF n)) st - s0.t18 ∧
          P = fun b => slice b 0 16 = s0.rec' ∧ b[16]? = some 1 ∧ slice b 24 8 = leBytes 8 (ofSigned 64 (dt.tdiv 4)) ∧
            ((b.getD 17 0).getLsbD 0 ↔ dt < 0) ∧ ((b.getD 17 0).getLsbD 1 ↔ dt.natAbs < 5 * 128) ∧
            ((b.getD 17 0).getLsbD 5 ↔ s0.calWarn = true) ∧
            ((b.getD 17 0).getLsbD 6 ↔ s.dev.get (F.DEAD_CNT_CNT n) ≠ s0.dead0) ∧ slice b 52 5 = leBytes 5 1) ∨
        (∃ g rest cl, c = .gateResult n ∧ x.gates = g :: rest ∧ g.closed = some cl ∧ cl ≤ ticks16 s.dev.raw ∧
          (∀ y, x.cand = some y → cl ≤ y.stamp) ∧
          P = fun b => b[16]? = some 2 ∧ s.dev.get (F.MEAS_CFG_MODE n) = 2 ∧ 16 ≤ g.n + g.tail.length ∨
            b[16]? = some 3 ∧ ((b.getD 17 0).getLsbD 4 ↔ g.n + g.tail.length < 2))) →
      Does c s fun t =>
        (x.results.length < 16 → ∃ b, (t.dev.tim n).results = x.results ++ [b] ∧ b.length = 64 ∧ P b ∧
          b[18]? = some (byte n) ∧ slice b 20 4 = leBytes 4 x.seq ∧
          t.dev.get (F.MEAS_STATUS_RES_LEVEL n) = x.results.length + 1 ∧
          t.dev.flag (F.MEAS_STATUS_DONE n) = true ∧ t.dev.get (evStatus 28) = 1) ∧
        (16 ≤ x.results.length → (t.dev.tim n).results = x.results ∧
          t.dev.reg (A.RES_DROP n) = s.dev.reg (A.RES_DROP n) + 1 ∧
          t.dev.flag (F.MEAS_STATUS_RES_OVF n) = true ∧ t.dev.get (evStatus 29) = 1) ∧
        (t.dev.tim n).seq = (x.seq + 1) % 2 ^ 32 ∧ (t.dev.tim n).stamps = x.stamps ∧
        (c = .gateResult n → (t.dev.tim n).gates = x.gates.tail) ∧
        (c ≠ .gateResult n → (t.dev.tim n).start = none ∧
          t.dev.flag (F.MEAS_STATUS_ARMED n) = s.dev.flag (F.MEAS_CTRL_CONT n)) ∧
        State.Frame (fun a => Span 0x30100 0x800 a ∨ Span 0x20100 0x300 a)
          { s with dev := { s.dev with tin := t.dev.tin, refs.srcs := t.dev.refs.srcs } } t) ∧
    (s.dev.get (F.IN_CTRL_STATE n) = 1 → x.cand = none →
      Does (.inputTransitionComplete n) s fun t =>
        t.dev.get (F.IN_CTRL_STATE n) = (if s.dev.flag (F.IN_CTRL_LATCHED n) then 3 else 2) ∧
        t.dev.flag (F.IN_CTRL_LATCHED n) = false ∧ t.dev.flag (F.MEAS_STATUS_ARMED n) = false ∧
        (t.dev.tim n).gates = [] ∧ (t.dev.tim n).start = none ∧ (t.dev.tim n).stop = none ∧ (t.dev.tim n).stamps = x.stamps ∧
        (∀ g, x.stop = none → x.gates = [g] → x.results.length < 16 →
          ∃ b, (t.dev.tim n).results = x.results ++ [b] ∧ b.length = 64 ∧ (b.getD 17 0).getLsbD 3 = true ∧
            t.dev.flag (F.MEAS_STATUS_DONE n) = true ∧ t.dev.get (evStatus 28) = 1) ∧
        (∀ i : Fin 12, s.dev.get (F.SLOT_CFG_TYPE i) ∈ [1, 2, 3] → s.dev.get (F.SLOT_CFG_BIND i) = n →
          t.dev.flag (F.SLOT_STATE_SIG_VALID i) = false ∧ (t.dev.src i).has = false) ∧
        State.Frame (fun a => Span (A.IN_CFG n) 0x100 a ∨ Span 0x20100 0x300 a)
          { s with dev := { s.dev with tin := t.dev.tin, refs.srcs := t.dev.refs.srcs } } t) ∧
    (s.dev.get (F.IN_CTRL_STATE n) = 3 → x.goodLines ≠ 3 → s.dev.coarse = false →
      Does (.inputTransitionComplete n) s fun t => State.Still (fun _ => False) s t) ∧
    (s.dev.get (F.IN_CTRL_STATE n) = 3 → x.goodLines = 3 ∨ s.dev.coarse = true →
      Does (.inputTransitionComplete n) s fun t =>
        t.dev.get (F.IN_CTRL_STATE n) = (if s.dev.flag (F.IN_CTRL_LATCHED n) then 1 else 0) ∧
        t.dev.flag (F.IN_CTRL_LATCHED n) = false ∧
        (∀ a ∈ [A.GLITCH_CNT n, A.DEAD_CNT n, A.ORPHAN_CNT n, A.NOSTOP_CNT n, A.FIFO_DROP n, A.RES_DROP n], t.dev.reg a = 0) ∧
        State.Still (fun a => a = A.IN_CTRL n ∨
            a ∈ [A.GLITCH_CNT n, A.DEAD_CNT n, A.ORPHAN_CNT n, A.NOSTOP_CNT n, A.FIFO_DROP n, A.RES_DROP n])
          { s with dev.tin := setAt s.dev.tin n { x with lastStamp := none, divCount := 0, seq := 0 } } t)

/-- BAND_DOWN shows the band down and drops every channel tracking or acquiring on it; BAND_UP shows it up and sends to acquisition each idle channel of it whose signal is enabled and whose satellite another band's channel tracks in the same constellation (R172, R175). AGC_UPDATE holds while the band is down or the unit off (R192), else shows the measured rms and a code moved toward TARGET by a step whose size is a free value, up where the rms lies above it, down below, held at it; JAMMED exactly where J/N has reached JN_THR, J/N 0 without calibration (R176, R178). JAM_CAL, after LOAD, takes the present code and rms as calibration, so that J/N reads 0 (with rms 0 a free value). SPECTRUM: a line above THR in its tenth spectrum in a row takes a free enabled notch with its frequency from the band centre (IF_KHZ and Q_INV applied: the model's reading, in the assumption log) and depth; a notch follows its line to the next bin; a notch with no line releases in its hundredth quiet spectrum, and at once where it is no longer enabled (R173, R177). Nothing else changes. Where the spec leaves a point open the clauses follow the model's readings: AGC (log entry 23); Decibels (log entry 24); GNSS signal processing (log entry 142); IF_CFG (log entry 145); Notches (log entry 146); J/N against an empty calibration (log entry 147). -/
def Obligations.BandsAgcAndJamming : Prop :=
  ∀ (s : State) (b o : Fin 2), s.Safe → s.Shaped → o ≠ b →
    (Does (.bandDown b) s fun t =>
      t.dev.flag (bandUpF b) = false ∧
      (∀ c : Fin 96, t.dev.chan c = if (s.dev.chan c).signal / 3 = b ∧ (s.dev.chan c).state ≠ 0 then
        { s.dev.chan c with state := 0, used := false } else s.dev.chan c) ∧
      (t.dev.gnBand b) = { s.dev.gnBand b with clkStamps := [] } ∧ t.dev.gnBand o = s.dev.gnBand o ∧
      State.Still (· = A.GN_STATE)
        { s with dev.gn := { s.dev.gn with channels := t.dev.gn.channels, bands := t.dev.gn.bands, epochEdge := t.dev.gn.epochEdge } } t) ∧
    (Does (.bandUp b) s fun t =>
      t.dev.flag (bandUpF b) = true ∧
      (∀ c d : Fin 96, (s.dev.chan c).state = 0 → (s.dev.chan c).sv ≠ 0 → (s.dev.chan c).signal / 3 = b →
        s.dev.get F.GN_CTRL_STATE = 0 → bit (s.dev.get F.GN_CTRL_BANDS) b = true →
        bit (s.dev.get F.GN_CTRL_CONST) ((s.dev.chan c).signal % 3) = true →
        (s.dev.chan d).state = 2 → (s.dev.chan d).signal / 3 ≠ b → (s.dev.chan d).sv = (s.dev.chan c).sv →
        (s.dev.chan d).signal % 3 = (s.dev.chan c).signal % 3 →
        t.dev.chan c = { s.dev.chan c with state := 1 }) ∧
      (∀ c : Fin 96, (s.dev.chan c).state ≠ 0 ∨ (s.dev.chan c).signal / 3 ≠ b ∨
        bit (s.dev.get F.GN_CTRL_CONST) ((s.dev.chan c).signal % 3) = false → t.dev.chan c = s.dev.chan c) ∧
      State.Still (· = A.GN_STATE) { s with dev.gn.channels := t.dev.gn.channels } t) ∧
    (∀ rms : Nat, rms < 2 ^ 16 →
      (s.dev.flag (bandUpF b) = false ∨ s.dev.get F.GN_CTRL_STATE = 2 →
        Does (.agcUpdate b rms) s fun t => State.Still (fun _ => False) s t) ∧
      (s.dev.flag (bandUpF b) = true → s.dev.get F.GN_CTRL_STATE ≠ 2 → Does (.agcUpdate b rms) s fun t =>
        t.dev.get (F.AGC_STATUS_RMS b) = rms ∧
        t.dev.get (F.AGC_STATUS_CODE b) =
          (if s.dev.get (F.AGC_CFG_TARGET b) < rms then min 4095 (s.dev.get (F.AGC_STATUS_CODE b) + Config.agcStep s.dev.freeCtr)
           else if rms < s.dev.get (F.AGC_CFG_TARGET b) then s.dev.get (F.AGC_STATUS_CODE b) - Config.agcStep s.dev.freeCtr
           else s.dev.get (F.AGC_STATUS_CODE b)) ∧
        t.dev.flag (F.JAM_JAMMED b) = decide (s.dev.get (F.JAM_JN_THR b) ≤ t.dev.get (F.JAM_JN b)) ∧
        (s.dev.flag (F.JAM_CAL_VALID b) = false → t.dev.get (F.JAM_JN b) = 0) ∧
        State.Still (fun a => a = A.AGC_STATUS b ∨ a = A.JAM b) { s with dev.freeCtr := s.dev.freeCtr + 1 } t)) ∧
    (s.dev.loaded = true → Does (.jamCal b) s fun t =>
      (t.dev.gnBand b).calCode = s.dev.get (F.AGC_STATUS_CODE b) ∧ (t.dev.gnBand b).calRms = s.dev.get (F.AGC_STATUS_RMS b) ∧
      t.dev.flag (F.JAM_CAL_VALID b) = true ∧ (s.dev.get (F.AGC_STATUS_RMS b) ≠ 0 → t.dev.get (F.JAM_JN b) = 0) ∧
      t.dev.gnBand o = s.dev.gnBand o ∧
      State.Still (· = A.JAM b) { s with dev.gn.bands := t.dev.gn.bands } t) ∧
    (s.dev.flag (bandUpF b) = true → s.dev.get F.GN_CTRL_STATE ≠ 2 →
      (∀ (bin h run : Nat) (f g : Int), s.dev.get (F.NOTCH_CFG_THR b) < h →
        (s.dev.gnBand b).lines.find? (fun l => l.1 = bin) = some (bin, run) → 9 ≤ run →
        (s.dev.gnBand b).notch = [none, none, none, none] → bit (s.dev.get (F.NOTCH_CFG_ENABLE b)) 0 = true →
        g = (if s.dev.flag (F.IF_CFG_Q_INV b) then -f else f) - 100 * toSigned 16 (s.dev.get (F.IF_CFG_IF_KHZ b)) →
        Does (.spectrum b [(bin, f, h)]) s fun t =>
          (t.dev.gnBand b).notch = [some (bin, 0), none, none, none] ∧ t.dev.flag (F.NOTCH_ACTIVE b 0) = true ∧
          t.dev.get (F.NOTCH_FREQ b 0) = ofSigned 24 g ∧ t.dev.get (F.NOTCH_DEPTH b 0) = min 127 (h / 2) ∧
          t.dev.gnBand o = s.dev.gnBand o ∧ State.Still (· = A.NOTCH b 0) { s with dev.gn.bands := t.dev.gn.bands } t) ∧
      (∀ (k : Fin 4) (bin q : Nat), (s.dev.gnBand b).notch.length = 4 → (s.dev.gnBand b).notch.getD k none = some (bin, q) →
        (∀ (bin' h : Nat) (f : Int), bin' ≤ bin + 1 → bin ≤ bin' + 1 → s.dev.get (F.NOTCH_CFG_THR b) ≤ h + 12 →
          bit (s.dev.get (F.NOTCH_CFG_ENABLE b)) k = true →
          Does (.spectrum b [(bin', f, h)]) s fun t =>
            (t.dev.gnBand b).notch.getD k none = some (bin', 0) ∧ t.dev.flag (F.NOTCH_ACTIVE b k) = true ∧
            t.dev.get (F.NOTCH_DEPTH b k) = min 127 (h / 2) ∧ t.dev.gnBand o = s.dev.gnBand o ∧
            State.Still (Span (A.NOTCH b 0) 16) { s with dev.gn.bands := t.dev.gn.bands } t) ∧
        (12 < s.dev.get (F.NOTCH_CFG_THR b) →
        Does (.spectrum b []) s fun t =>
          (99 ≤ q ∨ bit (s.dev.get (F.NOTCH_CFG_ENABLE b)) k = false →
            (t.dev.gnBand b).notch.getD k none = none ∧ t.dev.flag (F.NOTCH_ACTIVE b k) = false) ∧
          (q < 99 → bit (s.dev.get (F.NOTCH_CFG_ENABLE b)) k = true →
            (t.dev.gnBand b).notch.getD k none = some (bin, q + 1) ∧ t.dev.flag (F.NOTCH_ACTIVE b k) = true) ∧
          t.dev.gnBand o = s.dev.gnBand o ∧
          State.Still (Span (A.NOTCH b 0) 16) { s with dev.gn.bands := t.dev.gn.bands } t)))

/-- ACQUISITION_SEARCH that finds one cell of a signal that may be tracked (unit RUNNING, band up and enabled, constellation enabled) and that no channel acquires or tracks, unaided on L1 C/A only or aided by a tracked satellite or the hot-start record, with 30 dB-Hz or more, gives the channel that lost the signal, else the lowest free one, that signal in acquisition; else nothing changes (R172, R179, R181). Of two cells of L1 C/A with one channel free, the satellite of the higher elevation takes it (R180). DETECTION_VERIFICATION makes a channel tracking, while its signal is still enabled, or idle. CHANNEL_LOSS_OF_LOCK makes a tracking channel lost whose C/N0 has been below 24 dB-Hz for 1 s or whose PLL failed (R181), and no other. MEASUREMENT_EPOCH on the band's clock 81,840,000 edges after the last interpolates r_k between the stamps of the two edges, of each 8,184, that bracket it (R174, R183), shows a tracking channel's C/N0 and use, and its multipath delay and ratio, within 0.05 to 1.5 chips and 0 to 0.9, where the ratio passes 0.1, in 1/256 (R182); navigation data that come with it are held, a first message that disagrees with the hot-start record makes the start cold (R194), UTC data that two GPS satellites give alike set UTC_BASE where GNSS is authoritative and none is valid (R188). Other channels stay, and nothing else changes. Where the spec leaves a point open the clauses follow the model's readings: GNSS signal processing (log entry 142); Stamped sample-clock edges (log entry 143); UTC from the navigation message (log entry 149). -/
def Obligations.ChannelsSearchedAndTracked : Prop :=
  ∀ (s : State) (c : Fin 96), s.Safe → s.Shaped →
    (∀ (sig : Fin 6) (sv cn0 : Nat) (elev : Int) (aided on : Bool),
      on = (decide (s.dev.get F.GN_CTRL_STATE = 0) && s.dev.flag (bandUpF (sig / 3)) &&
        bit (s.dev.get F.GN_CTRL_BANDS) (sig / 3) && bit (s.dev.get F.GN_CTRL_CONST) (sig % 3)) →
      (on = true → (aided = false → sig.val = 0) →
        (aided = true → s.dev.flag F.HOT_STATUS_VALID = true ∨ ∃ d : Fin 96, (s.dev.chan d).state = 2) → 120 ≤ cn0 →
        (∀ d : Fin 96, (s.dev.chan d).signal = sig → (s.dev.chan d).sv = sv → (s.dev.chan d).state ∉ [1, 2]) →
        ((s.dev.chan c).state = 3 ∧ (s.dev.chan c).signal = sig ∧ (s.dev.chan c).sv = sv ∧
            (∀ d : Fin 96, d < c → (s.dev.chan d).signal = sig → (s.dev.chan d).sv = sv → (s.dev.chan d).state ≠ 3) ∨
          (s.dev.chan c).state = 0 ∧ (∀ d : Fin 96, d < c → (s.dev.chan d).state ≠ 0) ∧
            (∀ d : Fin 96, (s.dev.chan d).signal = sig → (s.dev.chan d).sv = sv → (s.dev.chan d).state ≠ 3)) →
        Does (.acquisitionSearch aided [(sig.val, sv, cn0, elev)]) s fun t =>
          t.dev.chan c = { state := 1, signal := sig, sv := sv, cn0 := cn0, elev := elev } ∧
          (∀ d : Fin 96, d ≠ c → t.dev.chan d = s.dev.chan d) ∧
          State.Still (fun _ => False) { s with dev.gn.channels := t.dev.gn.channels } t) ∧
      ((on = false ∨ cn0 < 120 ∨ (aided = false ∧ sig.val ≠ 0) ∨
          ((s.dev.chan c).signal = sig ∧ (s.dev.chan c).sv = sv ∧ (s.dev.chan c).state ∈ [1, 2]) ∨
          (aided = true ∧ s.dev.flag F.HOT_STATUS_VALID = false ∧ ∀ d : Fin 96, (s.dev.chan d).state ≠ 2)) →
        Does (.acquisitionSearch aided [(sig.val, sv, cn0, elev)]) s fun t => State.Still (fun _ => False) s t)) ∧
    (∀ (x y cx cy : Nat) (ex ey : Int), s.dev.get F.GN_CTRL_STATE = 0 → s.dev.flag (bandUpF 0) = true →
      bit (s.dev.get F.GN_CTRL_BANDS) 0 = true → bit (s.dev.get F.GN_CTRL_CONST) 0 = true → x ≠ y → 120 ≤ cx → 120 ≤ cy → ex < ey →
      (s.dev.chan c).state = 0 →
      (∀ d : Fin 96, d ≠ c → (s.dev.chan d).state = 2 ∧ (s.dev.chan d).sv ≠ x ∧ (s.dev.chan d).sv ≠ y) →
      Does (.acquisitionSearch false [(0, x, cx, ex), (0, y, cy, ey)]) s fun t =>
        t.dev.chan c = { state := 1, signal := 0, sv := y, cn0 := cy, elev := ey } ∧
        (∀ d : Fin 96, d ≠ c → t.dev.chan d = s.dev.chan d) ∧
        State.Still (fun _ => False) { s with dev.gn.channels := t.dev.gn.channels } t) ∧
    (∀ v : Bool, (s.dev.chan c).state = 1 → (s.dev.chan c).signal < 6 → Does (.detectionVerification c v) s fun t =>
      t.dev.chan c = { s.dev.chan c with lowSince := none, state := if v ∧ s.dev.get F.GN_CTRL_STATE = 0 ∧ s.dev.flag (bandUpF ((s.dev.chan c).signal / 3)) = true ∧ bit (s.dev.get F.GN_CTRL_BANDS) ((s.dev.chan c).signal / 3) = true ∧ bit (s.dev.get F.GN_CTRL_CONST) ((s.dev.chan c).signal % 3) = true then 2 else 0 } ∧
      (∀ d : Fin 96, d ≠ c → t.dev.chan d = s.dev.chan d) ∧
      State.Still (fun _ => False) { s with dev.gn.channels := t.dev.gn.channels } t) ∧
    (∀ (pll : Bool) (low : Prop), low = (∃ since, (s.dev.chan c).lowSince = some since ∧ since + 800000000 ≤ s.dev.raw) →
      ((s.dev.chan c).state = 2 → (pll = true ∨ low) → Does (.channelLossOfLock c pll) s fun t =>
        t.dev.chan c = { s.dev.chan c with state := 3, used := false, lowSince := none } ∧
        (∀ d : Fin 96, d ≠ c → t.dev.chan d = s.dev.chan d) ∧
        State.Still (fun _ => False) { s with dev.gn.channels := t.dev.gn.channels } t) ∧
      (((s.dev.chan c).state ≠ 2 ∨ (pll = false ∧ ¬ low)) →
        Does (.channelLossOfLock c pll) s fun t => State.Still (fun _ => False) s t)) ∧
    (∀ (b : Fin 2) (edge s0 s1 cn0 dl ra : Nat) (used : Bool) (nav : Option (Nat × List Byte × Bool)) (a a' : Nat) (ofs : Int)
        (utc : List (Nat × Nat × Int × Option (Nat × Bool))), (s.dev.chan c).state = 2 →
      s.dev.get F.GN_CTRL_STATE ≠ 2 → s.dev.flag (bandUpF b) = true →
      (∀ e, s.dev.gn.epochEdge = some e → e.1 = b → edge = e.2 + 81840000) → s.dev.gn.utcSeen = [] → s.dev.ts.leaps = [] →
      a ≠ a' → utc = [(0, a, ofs, none), (0, a', ofs, none)] ∨ utc = [] →
      Does (.measurementEpoch b edge s0 s1 [(c.val, cn0, used, dl, ra)] nav utc) s fun t =>
        t.dev.gn.epoch = some (s0 + (s1 - s0) * (edge % 8184) / 8184) ∧ t.dev.gn.epochEdge = some (b.val, edge) ∧
        t.dev.chan c = { s.dev.chan c with
          cn0 := cn0, used := used, mp := decide (256 < min ra 230 * 10),
          lowSince := if cn0 < 96 then some ((s.dev.chan c).lowSince.getD s.dev.raw) else none,
          mpDelay := if 256 < min ra 230 * 10 then max 13 (min dl 384) else 0,
          mpRatio := if 256 < min ra 230 * 10 then min ra 230 else 0 } ∧
        (∀ d : Fin 96, d ≠ c → t.dev.chan d = s.dev.chan d) ∧
        (∀ m bs st, nav = some (m, bs, st) → t.dev.gn.ephCount = m ∧ t.dev.gn.nav = bs ∧ t.dev.gn.fresh = false ∧
          (st = true → s.dev.gn.fresh = true → t.dev.get F.GN_STATE_START_KIND = 3)) ∧
        (nav = none → t.dev.gn.ephCount = s.dev.gn.ephCount ∧ t.dev.gn.nav = s.dev.gn.nav ∧
          t.dev.gn.fresh = s.dev.gn.fresh ∧ t.dev.get F.GN_STATE_START_KIND = s.dev.get F.GN_STATE_START_KIND) ∧
        (utc ≠ [] → s.dev.md.coresDown = none → s.dev.flag F.LEAP_CTRL_SRC = false → s.dev.flag F.UTC_STATUS_VALID = false →
          (s.dev.chan c).signal % 3 = 0 → t.dev.flag F.UTC_STATUS_VALID = true ∧ t.dev.get F.UTC_BASE_OFFSET = ofSigned 16 ofs) ∧
        (s.dev.gn.posNext = none → t.dev.gn.pos = s.dev.gn.pos) ∧
        (∀ p, s.dev.gn.posNext = some p → t.dev.gn.pos = p ∧ t.dev.gn.posSet = true ∧ t.dev.gn.posNext = none) ∧
        State.Frame (fun x => x = A.GN_STATE ∨ (utc ≠ [] ∧ (x = A.UTC_STATUS ∨ x = A.UTC_BASE)))
          { s with dev := { s.dev with ts.altLeap := t.dev.ts.altLeap,
                                       gn := { t.dev.gn with sol := s.dev.gn.sol, fails := s.dev.gn.fails, passes := s.dev.gn.passes,
                                                             shortSince := s.dev.gn.shortSince, surveySince := s.dev.gn.surveySince } } } t)

/-- SOLUTION_PUBLISH for the last epoch with a solution of enough satellites, RUNNING with the TB-PLL on and the cores up, shows the epoch's raw stamp, drift, satellites and uncertainty (3 sigma in ns, rounded up), holds it as TAI, later by RF_DELAY and GN_CABLE (R184; its sign is the model's reading, in the assumption log), and ends short holdover; otherwise a held solution enters short holdover (R174, R183 to R187, R421). GNSS_SUSPECT_SET of a check failed at PERSIST epochs in a row, GNSS_SUSPECT_CLEAR after CLEAR good ones and SUSPECT_CLR set and clear SUSPECT with CHANGED and its event; the GNSS slot is valid only without suspicion (R190, R191). SHORT_HOLDOVER_END after GN_HOLD drops the solution and the slot's signal. SURVEY_COMPLETE after GN_SURVEY holds the mean of the surveyed positions; SET gives the position at once (held where the unit runs and HOLD_MODE is not 2), or while holding from the next epoch; SURVEY_RESTART of a running unit goes back to a survey not begun (R185). Where the spec leaves a point open the clauses follow the model's readings: Acts of firmware (log entry 116); GNSS signal processing (log entry 142); RF delay (log entry 144); Held position (log entry 150). -/
def Obligations.SolutionsPublishedAndSuspected : Prop :=
  ∀ s : State, s.Safe → s.Shaped →
    (∀ (q : Sys2Proof.GnSolution) (r16 : Nat), s.dev.gn.epoch = some r16 → s.dev.get F.GN_CTRL_STATE = 0 → s.dev.coarse = false →
      s.dev.md.coresDown = none → s.dev.gnNeeds q.twoSystems ≤ q.nsat →
      q.nsat < 256 → r16 < 2 ^ 80 → cdiv (3 * q.sigmaPs) 1000 < 2 ^ 32 →
      Does (.solutionPublish (some q)) s fun t =>
        (∃ x, t.dev.gn.sol = some x ∧ x.r16 = r16 ∧ x.drift = q.drift ∧ x.unc = cdiv (3 * q.sigmaPs) 1000 ∧
          (q.iono.val < 2 → x.time = q.sysTime + (if s.dev.get F.GN_CTRL_TIMESYS = 2 then 33 else 19) * (sec16 : Int) +
            toSigned 64 (s.dev.get64 (A.RF_DELAY q.iono)) + toSigned 64 (s.dev.get64 A.GN_CABLE))) ∧
        t.dev.gn.epoch = none ∧
        t.dev.flag F.GN_STATE_SHORT_HOLD = false ∧ t.dev.get F.GN_STATE_NSAT_USED = q.nsat ∧
        (s.dev.gnHolding = true → t.dev.get F.GN_STATE_SOLN = 3) ∧
        (s.dev.get F.GN_CTRL_HOLD_MODE = 2 → t.dev.get F.GN_STATE_SOLN = 1 ∧ t.dev.gn.pos = q.pos) ∧
        t.dev.wide A.SOL_RAW 3 = r16 % 65536 + 2 ^ 32 * (r16 / 65536) ∧
        t.dev.get F.SOL_DRIFT_D = ofSigned 32 q.drift ∧ t.dev.get F.SOL_UNC_UNC = cdiv (3 * q.sigmaPs) 1000 ∧
        (∀ i : Fin 12, s.dev.get (F.SLOT_CFG_TYPE i) = 4 → s.dev.get (F.SLOT_CFG_BIND i) = 0 →
          t.dev.flag (F.SLOT_STATE_SIG_VALID i) = !t.dev.flag F.GN_STATE_SUSPECT) ∧
        State.Frame (fun a => Span 0x40000 0x1000 a ∨ Span 0x20100 0x300 a)
          { s with dev := { s.dev with gn := t.dev.gn, refs.srcs := t.dev.refs.srcs } } t) ∧
    (∀ q : Option Sys2Proof.GnSolution,
      (q = none ∨ s.dev.coarse = true ∨ s.dev.md.coresDown.isSome = true ∨ s.dev.gn.epoch = none ∨ s.dev.get F.GN_CTRL_STATE ≠ 0) →
      (s.dev.gn.sol.isSome = true → s.dev.flag F.GN_STATE_SHORT_HOLD = false →
        Does (.solutionPublish q) s fun t =>
          t.dev.flag F.GN_STATE_SHORT_HOLD = true ∧
          State.Still (· = A.GN_STATE) { s with dev.gn.shortSince := some s.dev.raw } t) ∧
      (s.dev.gn.sol = none ∨ s.dev.flag F.GN_STATE_SHORT_HOLD = true →
        Does (.solutionPublish q) s fun t => State.Still (fun _ => False) s t)) ∧
    (∀ i : Fin 5, s.dev.flag F.GN_STATE_SUSPECT = false → s.dev.get F.GN_CHK_CFG_PERSIST ≠ 0 →
      s.dev.get F.GN_CHK_CFG_PERSIST ≤ s.dev.gn.fails.getD i 0 →
      Does .gnssSuspectSet s fun t =>
        t.dev.flag F.GN_STATE_SUSPECT = true ∧ t.dev.flag F.GN_SUSPECT_CHANGED = true ∧
        bit (t.dev.get F.GN_SUSPECT_CAUSE) i = true ∧ t.dev.get (evStatus 31) = 1 ∧
        (∀ j : Fin 12, s.dev.get (F.SLOT_CFG_TYPE j) = 4 → s.dev.get (F.SLOT_CFG_BIND j) = 0 →
          t.dev.flag (F.SLOT_STATE_SIG_VALID j) = false) ∧
        State.Frame (fun a => a = A.GN_STATE ∨ a = A.GN_SUSPECT ∨ Span 0x20100 0x300 a) s t) ∧
    (s.dev.flag F.GN_STATE_SUSPECT = true →
      (∀ c : Instr, (c = .gnssSuspectClear ∧ s.dev.get F.GN_CHK_CFG_CLEAR ≤ s.dev.gn.passes) ∨
          (c = .suspectClr ∧ s.dev.loaded = true) →
        Does c s fun t =>
          t.dev.flag F.GN_STATE_SUSPECT = false ∧ t.dev.flag F.GN_SUSPECT_CHANGED = true ∧ t.dev.get (evStatus 31) = 1 ∧
          (∀ j : Fin 12, s.dev.get (F.SLOT_CFG_TYPE j) = 4 → s.dev.get (F.SLOT_CFG_BIND j) = 0 →
            t.dev.flag (F.SLOT_STATE_SIG_VALID j) = (s.dev.gn.sol.isSome && !s.dev.coarse)) ∧
          State.Frame (fun a => a = A.GN_STATE ∨ a = A.GN_SUSPECT ∨ Span 0x20100 0x300 a)
            { s with dev := { s.dev with refs.srcs := t.dev.refs.srcs, gn.fails := t.dev.gn.fails, gn.passes := t.dev.gn.passes } } t)) ∧
    (∀ since : Nat, s.dev.gn.shortSince = some since → since + s.dev.get F.GN_HOLD_S * secTicks ≤ s.dev.raw →
      Does .shortHoldoverEnd s fun t =>
        t.dev.flag F.GN_STATE_SHORT_HOLD = false ∧
        (∀ j : Fin 12, s.dev.get (F.SLOT_CFG_TYPE j) = 4 → s.dev.get (F.SLOT_CFG_BIND j) = 0 →
          t.dev.flag (F.SLOT_STATE_SIG_VALID j) = false) ∧
        State.Still (fun a => a = A.GN_STATE ∨ Span 0x20100 0x300 a)
          { s with dev := { s.dev with gn.sol := none, gn.shortSince := none } } t) ∧
    (∀ since : Nat, s.dev.get F.GN_STATE_SOLN = 2 → s.dev.gn.surveySince = some since →
      since + s.dev.get F.GN_SURVEY_S * secTicks ≤ s.dev.raw →
      Does .surveyComplete s fun t =>
        t.dev.get F.GN_STATE_SOLN = 3 ∧
        State.Still (· = A.GN_STATE)
          { s with dev.gn := { s.dev.gn with pos := s.dev.gn.surveySum.map (fun x : Int => x.tdiv s.dev.gn.surveyN), posSet := true, surveySince := none } } t) ∧
    (∀ p : List Int, s.dev.loaded = true → p = [toSigned 64 (s.dev.get64 A.GN_POS_X), toSigned 64 (s.dev.get64 A.GN_POS_Y),
        toSigned 64 (s.dev.get64 A.GN_POS_Z)] →
      (s.dev.get F.GN_STATE_SOLN = 3 → Does .set s fun t =>
        State.Still (fun _ => False) { s with dev := { s.dev with gn.posNext := some p, gn.skipTime := true } } t) ∧
      (s.dev.get F.GN_STATE_SOLN ≠ 3 → Does .set s fun t =>
        t.dev.get F.GN_STATE_SOLN = (if s.dev.get F.GN_CTRL_STATE = 0 ∧ s.dev.get F.GN_CTRL_HOLD_MODE ≠ 2 then 3
          else s.dev.get F.GN_STATE_SOLN) ∧
        State.Still (· = A.GN_STATE)
          { s with dev := { s.dev with gn := { s.dev.gn with pos := p, posSet := true, surveySince := none, skipTime := true } } } t)) ∧
    (s.dev.loaded = true → Does .surveyRestart s fun t =>
      t.dev.get F.GN_STATE_SOLN = (if s.dev.get F.GN_CTRL_STATE = 0 then 1 else s.dev.get F.GN_STATE_SOLN) ∧
      State.Still (· = A.GN_STATE) { s with dev.gn := { s.dev.gn with surveySince := none, posNext := none } } t)

/-- GNSS_TRANSITION_COMPLETE of a shutdown frees every channel, saves the hot-start record and shows no solution; of a start-up it loads the record and shows the start's kind by R196: with a record and a position, hot with 4 fresh ephemerides (1 while holding), warm with a fresh almanac, else cold; with none cold, or warm after a SET with Scale A set (the model's reading, in the assumption log; how fresh a record's entries are at an age is a free function of the record); a latched request then starts the other transition (R48, R192, R196). While the duty cycle runs (STANDBY, ENABLE 1, STBY_DUTY or the TB-PLL off), DUTY_WAKE after PERIOD_S begins a period and starts a sleeping unit, DUTY_SLEEP after ON_S of AON counts of a longer period stops it; where none runs, DUTY_WAKE starts a sleeping unit with ENABLE 1 (R193, R194). SAVE, and HOT_START_PERIODIC_SAVE 60 s after the last save with a solution, write the copy that is not the newest, which then is valid and the newest, and leave the other (R195). ERASE leaves no copy. Only the GNSS registers named change. Where the spec leaves a point open the clauses follow the model's readings: Start kind (log entry 148). -/
def Obligations.GnssStartsSleepsAndSaves : Prop :=
  ∀ s : State, s.Safe → s.Shaped →
    (s.dev.get F.GN_CTRL_STATE = 1 → Does .gnssTransitionComplete s fun t =>
      t.dev.get F.GN_CTRL_STATE = (if s.dev.flag F.GN_CTRL_LATCHED then 3 else 2) ∧ t.dev.flag F.GN_CTRL_LATCHED = false ∧
      t.dev.get F.GN_STATE_SOLN = 0 ∧ t.dev.get F.GN_STATE_NSAT_USED = 0 ∧ (∀ c : Fin 96, t.dev.chan c = {}) ∧
      (s.dev.gn.sol.isSome = true → t.dev.flag F.GN_STATE_SHORT_HOLD = true) ∧ t.dev.ret.hotNew = 1 - s.dev.ret.hotNew ∧
      State.Still (fun a => a = A.GN_CTRL ∨ a = A.GN_STATE ∨ a = A.HOT_STATUS)
        { s with dev := { s.dev with gn := t.dev.gn, ret.hot := t.dev.ret.hot, ret.hotNew := t.dev.ret.hotNew } } t) ∧
    (s.dev.get F.GN_CTRL_STATE = 3 → Does .gnssTransitionComplete s fun t =>
      t.dev.get F.GN_CTRL_STATE = (if s.dev.flag F.GN_CTRL_LATCHED then 1 else 0) ∧ t.dev.flag F.GN_CTRL_LATCHED = false ∧
      (s.dev.ret.newestHot = none → t.dev.get F.GN_STATE_START_KIND =
        (if s.dev.gn.posSet = true ∧ s.dev.flag (F.SC_STATUS_INIT 0) = true then 2 else 3)) ∧
      (∀ (k : Nat) (h : List Byte) (age : Nat) (pos : Prop), s.dev.ret.newestHot = some (k, h) → age = s.dev.recordAge h / sec16 →
        pos = (s.dev.gn.posSet = true ∨ leAt h 0x4C 1 ≠ 0 ∧ leAt h 0x48 4 ≤ 100000000) →
        (¬ pos → t.dev.get F.GN_STATE_START_KIND = 3) ∧
        (pos → 4 ≤ Config.freshEphemeris h age → t.dev.get F.GN_STATE_START_KIND = 1) ∧
        (pos → leAt h 0x4C 1 = 3 → 1 ≤ Config.freshEphemeris h age → t.dev.get F.GN_STATE_START_KIND = 1) ∧
        (pos → Config.freshEphemeris h age = 0 → t.dev.get F.GN_STATE_START_KIND = (if Config.freshAlmanac h age then 2 else 3))) ∧
      t.dev.gn.channels = s.dev.gn.channels ∧ t.dev.gn.sol = s.dev.gn.sol ∧ t.dev.gn.fresh = true ∧
      State.Still (fun a => a = A.GN_CTRL ∨ a = A.GN_STATE) { s with dev.gn := t.dev.gn } t) ∧
    (s.dev.flag F.GN_CTRL_ENABLE = true →
      (s.dev.mode = .standby → (s.dev.flag F.GN_CTRL_STBY_DUTY = true ∨ s.dev.coarse = true) →
        (s.dev.get F.GN_DUTY_PERIOD_S * 2500000 ≤ aonSince s.dev.ret.aon s.dev.gn.dutyAt →
          Does .dutyWake s fun t =>
            t.dev.get F.GN_CTRL_STATE =
              (if s.dev.gn.asleep = true ∧ s.dev.get F.GN_CTRL_STATE = 2 then 3 else s.dev.get F.GN_CTRL_STATE) ∧
            State.Still (· = A.GN_CTRL)
              { s with dev := { s.dev with gn.dutyAt := s.dev.ret.aon, gn.asleep := false } } t) ∧
        (aonSince s.dev.ret.aon s.dev.gn.dutyAt < s.dev.get F.GN_DUTY_PERIOD_S * 2500000 →
          Does .dutyWake s fun t => State.Still (fun _ => False) s t) ∧
        (s.dev.gn.asleep = false → s.dev.get F.GN_DUTY_ON_S * 2500000 ≤ aonSince s.dev.ret.aon s.dev.gn.dutyAt →
          aonSince s.dev.ret.aon s.dev.gn.dutyAt < s.dev.get F.GN_DUTY_PERIOD_S * 2500000 →
          Does .dutySleep s fun t =>
            t.dev.get F.GN_CTRL_STATE = (if s.dev.get F.GN_CTRL_STATE = 0 then 1 else s.dev.get F.GN_CTRL_STATE) ∧
            State.Still (· = A.GN_CTRL) { s with dev.gn.asleep := true } t)) ∧
      (s.dev.mode ≠ .standby ∨ (s.dev.flag F.GN_CTRL_STBY_DUTY = false ∧ s.dev.coarse = false) →
        Does .dutyWake s fun t =>
          t.dev.get F.GN_CTRL_STATE =
            (if s.dev.gn.asleep = true ∧ s.dev.get F.GN_CTRL_STATE = 2 then 3 else s.dev.get F.GN_CTRL_STATE) ∧
          State.Still (· = A.GN_CTRL) { s with dev.gn.asleep := false } t)) ∧
    (∀ c : Instr, (c = .save ∧ s.dev.loaded = true) ∨
        (c = .hotStartPeriodicSave ∧ s.dev.get F.GN_CTRL_STATE = 0 ∧ s.dev.gn.sol.isSome = true ∧
          s.dev.gn.lastSave + 60 * secTicks ≤ s.dev.raw) →
      Does c s fun t =>
        (∃ r, t.dev.ret.hot.getD (1 - s.dev.ret.hotNew) none = some r ∧ hotValid r = true) ∧
        t.dev.ret.hot.getD s.dev.ret.hotNew none = s.dev.ret.hot.getD s.dev.ret.hotNew none ∧
        t.dev.flag F.HOT_STATUS_VALID = true ∧ t.dev.get F.HOT_STATUS_COPY = 1 - s.dev.ret.hotNew ∧
        State.Still (· = A.HOT_STATUS)
          { s with dev := { s.dev with ret.hot := t.dev.ret.hot, ret.hotNew := 1 - s.dev.ret.hotNew, gn.lastSave := s.dev.raw } } t) ∧
    (s.dev.loaded = true → Does .erase s fun t =>
      t.dev.flag F.HOT_STATUS_VALID = false ∧
      State.Still (· = A.HOT_STATUS) { s with dev.ret.hot := [none, none] } t)

/-- PLL_WINDOW of a powered PLL whose reference runs, with an expected count N and count C, shows the deviation in ppm; within LOCK_PPM it counts a good window (8 at most) and keeps its mean control value as the one to freeze, else none, and a bad one beyond UNLOCK_PPM (R200, R202); else nothing changes. PLL_LOCK_DECLARED after 8 good windows locks an unlocked PLL and ends its coasting; an ENG-PLL in fallback gets its return epoch 32,768 ticks ahead (R207); in LOAD the TB-PLL's lock starts the raw counter at 0 and both scales (R86). PLL_UNLOCK_DECLARED after two bad windows of a locked powered PLL, and REFERENCE_LOSS, make it coast on the frozen control value, not locked, with the sticky bit set and the unlock counted, saturating (R201, R202); a TB-PLL unlock opens fault 0x0B and takes LOCKED and ACQUIRING selectors to HOLDOVER (R203), a SerDes PLL unlock takes its die's links down (R208). "PLL lock change" is raised, on a keeper PLL. Where the spec leaves a point open the clauses follow the model's readings: PLL windows (log entry 27); PLL control value (log entry 152); Completions inside boot (log entry 153). -/
def Obligations.PllsLockAndCoast : Prop :=
  ∀ (s : State) (p : Fin 12) (b : Nat), s.Safe → s.Shaped →
    b = (if p.val < 4 then A.PLL_STATUS p else if p.val < 8 then A.DPLL_STATUS (p - 4) 0 else A.DPLL_STATUS (p - 8) 1) →
    (∀ (count : Nat) (ctl : Int), s.dev.pllOn p = false ∨ (p.val < 4 ∧ s.dev.flag F.OSC_STATUS_PRESENT = false) →
      Does (.pllWindow p count ctl) s fun t => State.Still (fun _ => False) s t) ∧
    (∀ (count : Nat) (ctl n dev : Int), s.dev.pllOn p = true → (p.val < 4 → s.dev.flag F.OSC_STATUS_PRESENT = true) →
      n = s.dev.pllExpect p → 0 < n → dev = ((count : Int) - n) * 1000000 →
      Does (.pllWindow p count ctl) s fun t =>
        t.dev.get ⟨b + 0xC, 31, 0⟩ = ofSigned 32 (dev.tdiv n) ∧ t.dev.flag ⟨b, 2, 2⟩ = false ∧
        (dev.natAbs ≤ s.dev.get ⟨b + 4, 9, 0⟩ * n.toNat →
          t.dev.get ⟨b, 11, 8⟩ = min 8 (s.dev.get ⟨b, 11, 8⟩ + 1) ∧
          t.dev.pll p = { s.dev.pll p with badWin := 0, control := ctl, frozen := ctl }) ∧
        (s.dev.get ⟨b + 4, 9, 0⟩ * n.toNat < dev.natAbs → t.dev.get ⟨b, 11, 8⟩ = 0 ∧
          t.dev.pll p = { s.dev.pll p with control := ctl, badWin := if dev.natAbs ≤ s.dev.get ⟨b + 4, 25, 16⟩ * n.toNat then 0 else (s.dev.pll p).badWin + 1 }) ∧
        (∀ q : Fin 12, q ≠ p → t.dev.pll q = s.dev.pll q) ∧
        State.Still (fun a => a = b ∨ a = b + 0xC) { s with dev.cks.plls := t.dev.cks.plls } t) ∧
    (8 ≤ s.dev.get ⟨b, 11, 8⟩ → s.dev.flag ⟨b, 0, 0⟩ = false →
      Does (.pllLockDeclared p) s fun t =>
        t.dev.flag ⟨b, 0, 0⟩ = true ∧ t.dev.flag ⟨b, 1, 1⟩ = false ∧ t.dev.flag ⟨b, 2, 2⟩ = false ∧
        (p.val < 4 → t.dev.get (evStatus 33) = 1) ∧
        (∀ n : Fin 4, p.val = 4 + n.val → s.dev.flag ⟨b, 4, 4⟩ = true → s.dev.raw + 32768 < 2 ^ 64 →
          t.dev.get64 (A.ENG_FB_EPOCH n) = s.dev.raw + 32768) ∧
        (p.val = 0 → s.dev.md.load = 2 → s.dev.clk.running = false →
          t.dev.raw = 0 ∧ t.dev.clk.running = true ∧ ∀ k : Fin 2, t.dev.scale k = Scale.atLoad) ∧
        ((p.val ≠ 0 ∨ (s.dev.flag ⟨b, 1, 1⟩ = false ∧ (s.dev.md.load ≠ 2 ∨ s.dev.clk.running = true))) → State.Frame (fun a => a = b ∨ (4 ≤ p.val ∧ p.val < 8 ∧ Span (A.ENG_FB_EPOCH (p - 4)) 8 a)) s t)) ∧
    (∀ (c : Instr) (bitNo : Nat),
      (c = .pllUnlockDeclared p ∧ bitNo = 16 ∧ s.dev.pllOn p = true ∧ s.dev.flag ⟨b, 0, 0⟩ = true ∧
        2 ≤ (s.dev.pll p).badWin) ∨
      (c = .referenceLoss p ∧ bitNo = 17 ∧ s.dev.pllOn p = true ∧ s.dev.flag ⟨b, 2, 2⟩ = false) →
      Does c s fun t =>
        t.dev.flag ⟨b, 1, 1⟩ = true ∧ t.dev.flag ⟨b, 0, 0⟩ = false ∧ t.dev.get ⟨b, 11, 8⟩ = 0 ∧
        t.dev.flag ⟨b, bitNo, bitNo⟩ = true ∧ (bitNo = 17 → t.dev.flag ⟨b, 2, 2⟩ = true) ∧
        t.dev.get ⟨b + 0x10, 15, 0⟩ = min (s.dev.get ⟨b + 0x10, 15, 0⟩ + 1) 65535 ∧ t.dev.pll p = { s.dev.pll p with badWin := 0, control := (s.dev.pll p).frozen } ∧
        (p.val < 4 → t.dev.get (evStatus 33) = 1) ∧
        (p.val = 0 → s.dev.flag ⟨b, 1, 1⟩ = false →
          (∃ f ∈ t.dev.openFaults, f.fr.code = 0x0B ∧ f.fr.die = 0xFF ∧ f.fr.tick = s.dev.raw) ∧
          ∀ k : Fin 2, (s.dev.selSt k = 1 ∨ s.dev.selSt k = 2) → t.dev.selSt k = 3) ∧
        (bitNo = 16 → 8 ≤ p.val → ∀ l : Fin 4, t.dev.flag (F.LINK_STATUS_LINK_UP (p - 8) l) = false) ∧
        (p.val ≠ 0 → p.val < 8 ∨ bitNo = 17 →
          State.Frame (fun a => a = b ∨ a = b + 0x10) { s with dev.cks.plls := t.dev.cks.plls } t) ∧
        State.Frame (fun a => a = b ∨ a = b + 0x10 ∨ (p.val = 0 ∧ Span 0x21000 0x2000 a) ∨
            (8 ≤ p.val ∧ (Span (dieBase (p - 8)) 0x100000 a ∨ Span 0x20100 0x300 a)))
          { s with dev := { s.dev with cks.plls := t.dev.cks.plls, ts := t.dev.ts, refs := t.dev.refs, freeCtr := t.dev.freeCtr,
                                       openFaults := t.dev.openFaults, dies := t.dev.dies } } t)

/-- OSCILLATOR_LOSS of a present oscillator shows it absent, the AON clock on the RC oscillator and LOSS, opens fault 0x0C, and makes the powered PLLs 0 to 3 and the four fractional stages coast, with "AON clock on RC" raised; OSCILLATOR_RETURN ends that, the fault included, and the stages ramp toward their targets again (R198, R204, R210). RATIO_RAMP_COMPLETE at the target shows the ratio and clears RAMPING (R210). FAST_CHECK_WINDOW of an ENG-PLL in service beyond 500 ppm sets FALLBACK and its sticky bit, withdraws a return epoch, and at the changeover opens fault 0x03 and shows the slow clock on the die's engines (R205, R207); FALLBACK_RETURN at the return epoch ends both and the fault; requests stamped between the changeover and the epoch stay with the FALLBACK table. Within 500 ppm nothing changes. Where the spec leaves a point open the clauses follow the model's readings: PLL windows (log entry 27); Fault 0x03 (log entry 48). -/
def Obligations.OscillatorAndFallback : Prop :=
  ∀ s : State, s.Safe → s.Shaped →
    (s.dev.flag F.OSC_STATUS_PRESENT = true →
      Does .oscillatorLoss s fun t =>
        t.dev.flag F.OSC_STATUS_PRESENT = false ∧ t.dev.flag F.OSC_STATUS_AON_RC = true ∧
        t.dev.flag F.OSC_STATUS_LOSS = true ∧ t.dev.get (evStatus 32) = 1 ∧
        (∃ f ∈ t.dev.openFaults, f.fr.code = 0x0C ∧ f.fr.die = 0xFF ∧ f.fr.tick = s.dev.raw) ∧
        (∀ p : Fin 4, s.dev.pllOn p = true →
          t.dev.flag (F.PLL_STATUS_COAST p) = true ∧ t.dev.flag (F.PLL_STATUS_LOCKED p) = false) ∧
        (∀ n : Fin 4, t.dev.flag (F.FRAC_STATUS_COAST n) = true) ∧
        State.Frame (fun a => Span 0x50000 0x300 a ∨ Span 0x21000 0x2000 a)
          { s with dev := { s.dev with ts := t.dev.ts, refs := t.dev.refs, freeCtr := t.dev.freeCtr,
                                       openFaults := t.dev.openFaults, cks := t.dev.cks } } t) ∧
    (s.dev.flag F.OSC_STATUS_PRESENT = false → s.dev.flag F.OSC_STATUS_AON_RC = true →
      Does .oscillatorReturn s fun t =>
        t.dev.flag F.OSC_STATUS_PRESENT = true ∧ t.dev.flag F.OSC_STATUS_AON_RC = false ∧
        (∀ n : Fin 4, t.dev.flag (F.FRAC_STATUS_COAST n) = false) ∧
        t.dev.openFaults = s.dev.openFaults.map (fun f =>
          if f.fr.code = 0x0C ∧ f.fr.die = 0xFF ∧ f.fr.index = 0 ∧ f.ended = none then
            { f with ended := some s.dev.raw } else f) ∧
        State.Still (fun a => a = A.OSC_STATUS ∨ Span 0x50200 0x40 a)
          { s with dev := { s.dev with openFaults := t.dev.openFaults, cks.fracs := t.dev.cks.fracs } } t) ∧
    (∀ (n : Fin 4) (x : Frac), s.dev.cks.fracs[n.val]? = some x → s.dev.fracAt n s.dev.raw = x.target →
      Does (.ratioRampComplete n) s fun t =>
        t.dev.get (F.FRAC_FREQ_FREQ n) = ofSigned 32 x.target ∧ t.dev.flag (F.FRAC_STATUS_RAMPING n) = false ∧
        (∀ m : Fin 4, m ≠ n → t.dev.die m = s.dev.die m) ∧
        State.Still (fun a => a = A.FRAC_FREQ n ∨ a = A.FRAC_STATUS n) { s with dev.dies := t.dev.dies } t) ∧
    (∀ (n : Fin 4) (ppm : Int), s.dev.pllOn (4 + n) = true → 500 < ppm.natAbs →
      Does (.fastCheckWindow n ppm) s fun t =>
        t.dev.flag (F.DPLL_STATUS_FALLBACK n 0) = true ∧ t.dev.flag ⟨A.DPLL_STATUS n 0, 18, 18⟩ = true ∧
        t.dev.flag (F.DPLL_STATUS_LOCKED n 0) = false ∧ t.dev.get64 (A.ENG_FB_EPOCH n) = 0 ∧
        t.dev.get (evStatus (64 + 16 * n + 2)) = 1 ∧
        (s.dev.flag (F.DPLL_STATUS_FALLBACK n 0) = false →
          (∃ f ∈ t.dev.openFaults, f.fr.code = 0x03 ∧ f.fr.die = n ∧ f.fr.tick = s.dev.raw) ∧
          (∀ e : Fin 4, t.dev.flag (F.ENG_STATUS_SLOW_CLK n e) = true) ∧ (t.dev.die n).fbAt = some (ticks16 s.dev.raw)) ∧
        (∀ m : Fin 4, m ≠ n → t.dev.die m = s.dev.die m) ∧
        State.Frame (fun a => a = A.DPLL_STATUS n 0 ∨ Span (A.ENG_FB_EPOCH n) 8 a ∨ ∃ e : Fin 4, a = A.ENG_STATUS n e)
          { s with dev := { s.dev with dies := t.dev.dies, openFaults := t.dev.openFaults, cks.plls := t.dev.cks.plls } } t) ∧
    (∀ (n : Fin 4) (ppm : Int), ppm.natAbs ≤ 500 → Does (.fastCheckWindow n ppm) s fun t => State.Still (fun _ => False) s t) ∧
    (∀ n : Fin 4, s.dev.flag (F.DPLL_STATUS_FALLBACK n 0) = true → s.dev.get64 (A.ENG_FB_EPOCH n) ≠ 0 →
      s.dev.get64 (A.ENG_FB_EPOCH n) ≤ s.dev.raw →
      Does (.fallbackReturn n) s fun t =>
        t.dev.flag (F.DPLL_STATUS_FALLBACK n 0) = false ∧ t.dev.get64 (A.ENG_FB_EPOCH n) = 0 ∧
        (∀ e : Fin 4, t.dev.flag (F.ENG_STATUS_SLOW_CLK n e) = false) ∧ (t.dev.die n).fbAt = none ∧
        (∀ b, (s.dev.die n).fbAt = some b →
          (b, ticks16 (s.dev.get64 (A.ENG_FB_EPOCH n))) ∈ (t.dev.die n).fbPast) ∧
        (∀ f ∈ t.dev.openFaults, f.fr.code = 0x03 → f.fr.die = n → f.fr.index = 0 → f.ended ≠ none) ∧
        State.Still (fun a => a = A.DPLL_STATUS n 0 ∨ Span (A.ENG_FB_EPOCH n) 8 a ∨ ∃ e : Fin 4, a = A.ENG_STATUS n e)
          { s with dev := { s.dev with dies := t.dev.dies, openFaults := t.dev.openFaults } } t)

/-- PHASE_MOVE_START at or after the start of the oldest queued step v takes that step from the queue, adds v to the target and to the remainder still to be moved, and shows MOVING (R212). PHASE_MOVE_COMPLETE of a move with nothing left clears MOVING, sets DONE, shows ALIGNED where no step waits, and raises "Output phase move complete". REALIGN_RESUME at the first whole second of the source, by its sets as they stand, from 1 ms after the step on clears REALIGN_WAIT and leaves nothing of an earlier catch-up (R213); before it nothing changes. Only the registers of that output PLL change, and the other output PLL's mover stays. Where the spec leaves a point open the clauses follow the model's readings: Output PLLs (log entry 25); Pins of the outputs (log entry 155). -/
def Obligations.OutputPllsMoveAndRealign : Prop :=
  ∀ (s : State) (k j : Fin 2) (x : Opll), s.Safe → s.Shaped → j ≠ k → s.dev.opll k = x →
    (∀ (at' : Nat) (v : Int) (q : List (Nat × Int)), x.queued = (at', v) :: q → at' ≤ s.dev.raw →
      Does (.phaseMoveStart k) s fun t =>
        (t.dev.opll k).target = x.target + v ∧ (t.dev.opll k).remain0 = x.remainAt s.dev.raw + v ∧
        (t.dev.opll k).since = s.dev.raw ∧ (t.dev.opll k).queued = q ∧ t.dev.opll j = s.dev.opll j ∧
        t.dev.flag (F.OPLL_STATUS_MOVING k) = true ∧
        t.dev.get64 (A.OPLL_REMAIN k) = ofSigned 64 (x.remainAt s.dev.raw + v + (q.map (·.2)).sum) ∧
        State.Still (Span (A.OPLL_CFG k) 0x20) { s with dev.cks.oplls := t.dev.cks.oplls } t) ∧
    (s.dev.flag (F.OPLL_STATUS_MOVING k) = true → x.remainAt s.dev.raw = 0 →
      Does (.phaseMoveComplete k) s fun t =>
        t.dev.flag (F.OPLL_STATUS_MOVING k) = false ∧ t.dev.flag (F.OPLL_STATUS_DONE k) = true ∧
        t.dev.get (evStatus 34) = 1 ∧ (x.queued = [] → t.dev.flag (F.OPLL_STATUS_ALIGNED k) = true) ∧
        (t.dev.opll k).remain0 = 0 ∧ (t.dev.opll k).target = x.target ∧ t.dev.opll j = s.dev.opll j ∧
        State.Frame (Span (A.OPLL_CFG k) 0x20) { s with dev.cks.oplls := t.dev.cks.oplls } t) ∧
    (s.dev.flag (F.OPLL_STATUS_REALIGN_WAIT k) = true → s.dev.codeSecond (s.dev.get (F.OPLL_CFG_SCALE k)) x.resumeFrom ≤ s.dev.raw →
      Does (.realignResume k) s fun t =>
        t.dev.flag (F.OPLL_STATUS_REALIGN_WAIT k) = false ∧ (t.dev.opll k).remain0 = x.target - x.ofsAt s.dev.raw ∧
        (t.dev.opll k).target = x.target ∧ (t.dev.opll k).queued = x.queued ∧ t.dev.opll j = s.dev.opll j ∧
        State.Still (Span (A.OPLL_CFG k) 0x20) { s with dev.cks.oplls := t.dev.cks.oplls } t) ∧
    (s.dev.raw < s.dev.codeSecond (s.dev.get (F.OPLL_CFG_SCALE k)) x.resumeFrom →
      Does (.realignResume k) s fun t => State.Still (fun _ => False) s t)

/-- OUTPUT_TRANSITION_COMPLETE at the first whole second of the source, by its sets as they stand, from its tick on makes a starting output RUNNING, or STOPPING again where a shutdown was latched, and a stopping one STOPPED with no setting staged and the ball high-Z or inactive, or STARTING where an enable was latched (R48, R217). STAGED_APPLY at such a second puts the staged settings in force together and clears STAGED (R218). IRIG_B_FRAME of a RUNNING output of type IRIG-B in the settings of the second, whose output PLL does not wait for a realign, within two ticks of the second it encodes and once for it, puts out one frame of 100 cells, markers exactly at cell 0 and at the cells ending in 9, forms its pulses at the ball, and with EXT shows its time quality, 0 while the scale is LOCKED; without EXT TQ and CTQ stay (R220, R223). That a frame is formed once, within two ticks of its second, is the model's timing of the command (assumption log). Nothing else changes. Where the spec leaves a point open the clauses follow the model's readings: Staged outputs (log entry 26); IRIG at an inserted second (log entry 30); Pins of the outputs (log entry 155); IRIG frames (log entry 156). -/
def Obligations.OutputsSwitchAndSendIrig : Prop :=
  ∀ (s : State) (n : Fin 4) (x : TOut) (due : Nat → Prop), s.Safe → s.Shaped → s.dev.tout n = x →
    (∀ r, due r ↔ s.dev.codeSecond (s.dev.get (F.OPLL_CFG_SCALE (s.dev.get (F.OUT_CFG_SRC n)))) r ≤ s.dev.raw) →
    (due x.transFrom → s.dev.get (F.OUT_CTRL_STATE n) = 3 →
      Does (.outputTransitionComplete n) s fun t =>
        t.dev.get (F.OUT_CTRL_STATE n) = (if s.dev.flag (F.OUT_CTRL_LATCHED n) then 1 else 0) ∧
        t.dev.flag (F.OUT_CTRL_LATCHED n) = false ∧ (∀ m : Fin 4, m ≠ n → t.dev.tout m = s.dev.tout m) ∧
        (t.dev.tout n).live = x.live ∧ (t.dev.tout n).pin = x.pin ∧
        State.Still (· = A.OUT_CTRL n) { s with dev.cks.outs := t.dev.cks.outs } t) ∧
    (∀ ball : Option Bool, ball = (if bit (s.dev.reg (A.OUT_CFG n)).toNat 7 then none else some (bit (s.dev.reg (A.OUT_CFG n)).toNat 6)) →
      due x.transFrom → s.dev.get (F.OUT_CTRL_STATE n) = 1 →
      Does (.outputTransitionComplete n) s fun t =>
        t.dev.get (F.OUT_CTRL_STATE n) = (if s.dev.flag (F.OUT_CTRL_LATCHED n) then 3 else 2) ∧
        t.dev.flag (F.OUT_CTRL_LATCHED n) = false ∧ t.dev.flag (F.OUT_STATUS_STAGED n) = false ∧
        (t.dev.tout n).live = none ∧ (t.dev.tout n).pin = ball ∧
        (x.pin = ball → t.dev.out = s.dev.out) ∧ (x.pin ≠ ball → ∃ i, t.dev.out = .pin n ball i :: s.dev.out) ∧
        (∀ m : Fin 4, m ≠ n → t.dev.tout m = s.dev.tout m) ∧
        State.Still (fun a => a = A.OUT_CTRL n ∨ a = A.OUT_STATUS n)
          { s with dev := { s.dev with cks.outs := t.dev.cks.outs, out := t.dev.out } } t) ∧
    (¬ due x.transFrom ∨ s.dev.get (F.OUT_CTRL_STATE n) = 0 ∨ s.dev.get (F.OUT_CTRL_STATE n) = 2 →
      Does (.outputTransitionComplete n) s fun t => State.Still (fun _ => False) s t) ∧
    (x.live.isSome = true → due x.stagedFrom →
      Does (.stagedApply n) s fun t =>
        t.dev.flag (F.OUT_STATUS_STAGED n) = false ∧ (t.dev.tout n).live = none ∧
        State.Still (· = A.OUT_STATUS n)
          { s with dev.cks.outs := setAt s.dev.cks.outs n { x with live := none } } t) ∧
    (x.live = none ∨ ¬ due x.stagedFrom → Does (.stagedApply n) s fun t => State.Still (fun _ => False) s t) ∧
    (∀ (u sec : Int) (r16 : Nat), u = s.dev.outTime n s.dev.raw false → sec = u / sec72 → r16 = (s.dev.edgeInstant n u (sec * sec72)).toNat →
      s.dev.get (F.OUT_CTRL_STATE n) = 0 → bits 1 0 ((s.dev.outSettings n sec)[0]?.getD 0) = 3 →
      u % sec72 < (2 * s.dev.tickStep * 65536 * s.dev.incrOf (s.dev.outCode n) : Nat) →
      s.dev.flag (F.OPLL_STATUS_REALIGN_WAIT (s.dev.get (F.OUT_CFG_SRC n))) = false → (∀ f, x.frame = some f → f.1 ≠ sec) →
      Does (.irigBFrame n) s fun t =>
        (∃ pins cells, t.dev.out = pins ++ .irig n sec.toNat cells :: s.dev.out ∧ cells.length = 100 ∧
          (t.dev.tout n).frame = some (sec, cells) ∧ pins.length ≤ 1 ∧ (∀ o ∈ pins, ∃ l i, o = .pin n l i) ∧
          ∀ c : Fin 100, cells[c.val]? = some 2 ↔ c.val = 0 ∨ c.val % 10 = 9) ∧
        (bit ((s.dev.outSettings n sec)[3]?.getD 0).toNat 3 = true → (s.dev.qualityOf (s.dev.outCode n) r16).state = 2 →
          t.dev.get (F.OUT_STATUS_TQ n) = 0) ∧
        (bit ((s.dev.outSettings n sec)[3]?.getD 0).toNat 3 = false → t.dev.reg (A.OUT_STATUS n) = s.dev.reg (A.OUT_STATUS n)) ∧
        (∀ m : Fin 4, m ≠ n → t.dev.tout m = s.dev.tout m) ∧
        State.Still (· = A.OUT_STATUS n) { s with dev := { s.dev with cks.outs := t.dev.cks.outs, out := t.dev.out } } t)

/-- NEGOTIATION_COMPLETE on a RUNNING link with AN shows AN_DONE and TRAIN_DONE, or AN_FAIL with both clear (R225). BLOCK_LOCK on a RUNNING or STOPPING link shows the locks and HI_BER, counts the errors reported, modulo 2^64, and with LINK_TEST.CHECK the errors of the test pattern on each lane, saturating (R249), takes the deskew of 100G when alignment is gained, and times the locks from when all that the mode has hold (R228, R235, R245). LINK_UP of a link whose locks have held 1 ms shows LINK_UP, sets LINK_CHG, raises "Link state change" and counts its generation modulo 2^16, with no bucket, commitment or session left (R228, R229). LINK_DOWN of a failing link clears LINK_UP with the same event, counts it and gives a running link a new grid origin within a millisecond, with AN_DONE and TRAIN_DONE cleared. AN_RESTART of a RUNNING link clears AN_DONE, TRAIN_DONE and LINK_UP. LINK_TRANSITION_COMPLETE ends a start-up, or a shutdown that has drained with the low byte of LINK_STATUS zero (R48, R227). Where the spec leaves a point open the clauses follow the model's readings: Grid origin (log entry 28); Link training (log entry 31); Link up (log entry 54); Renegotiation (log entry 157); Link test (log entry 163). -/
def Obligations.LinksNegotiateLockRiseAndFall : Prop :=
  ∀ (s : State) (n l : Fin 4) (x : Lnk), s.Safe → s.Shaped → s.dev.lnk n l = x →
    (∀ ok : Bool, s.dev.get (F.LINK_CTRL_STATE n l) = 0 → s.dev.flag (F.LINK_CFG_AN n l) = true →
      Does (.negotiationComplete n l ok) s fun t =>
        (ok = true → t.dev.flag (F.LINK_STATUS_AN_DONE n l) = true ∧ t.dev.flag (F.LINK_STATUS_TRAIN_DONE n l) = true) ∧
        (ok = false → t.dev.flag (F.LINK_STATUS_AN_FAIL n l) = true ∧
          t.dev.flag (F.LINK_STATUS_AN_DONE n l) = false ∧ t.dev.flag (F.LINK_STATUS_TRAIN_DONE n l) = false) ∧
        (∀ m k : Fin 4, m ≠ n ∨ k ≠ l → t.dev.lnk m k = s.dev.lnk m k) ∧
        State.Still (· = A.LINK_STATUS n l) { s with dev.dies := t.dev.dies } t) ∧
    (∀ (pcs am fec ber : Bool) (skew : Nat) (errs prbs : Nat × Nat × Nat × Nat),
      s.dev.get (F.LINK_CTRL_STATE n l) = 0 ∨ s.dev.get (F.LINK_CTRL_STATE n l) = 1 →
      skew < 2 ^ 32 →
      Does (.blockLock n l pcs am fec ber skew errs prbs) s fun t =>
        t.dev.flag (F.LINK_STATUS_PCS_LOCK n l) = pcs ∧ t.dev.flag (F.LINK_STATUS_AM_LOCK n l) = am ∧
        t.dev.flag (F.LINK_STATUS_FEC_LOCK n l) = fec ∧ t.dev.flag (F.LINK_STATUS_HI_BER n l) = ber ∧
        (am = true → s.dev.flag (F.LINK_STATUS_AM_LOCK n l) = false →
          t.dev.get (F.RX_SKEW_SKEW n l) = if s.dev.get (F.LINK_CFG_MODE n l) = 0 then skew else 0) ∧
        (∀ (o e : Nat), (o, e) ∈ [(0x180, errs.1), (0x188, errs.2.1), (0x190, errs.2.2.1), (0x198, errs.2.2.2)] →
          t.dev.get64 (A.STAT_LIVE n l 0 + o) = (s.dev.get64 (A.STAT_LIVE n l 0 + o) + e) % 2 ^ 64) ∧
        (∀ (i e : Nat), (i, e) ∈ [(0, prbs.1), (1, prbs.2.1), (2, prbs.2.2.1), (3, prbs.2.2.2)] →
          t.dev.get (F.PRBS_ERR_COUNT n l i) = if s.dev.flag (F.LINK_TEST_CHECK n l) then
            min (s.dev.get (F.PRBS_ERR_COUNT n l i) + e) (2 ^ 32 - 1) else s.dev.get (F.PRBS_ERR_COUNT n l i)) ∧
        (t.dev.lnk n l).lockedSince =
          (if t.dev.linkLocked n l = true ∧ ber = false then some (x.lockedSince.getD s.dev.raw) else none) ∧
        (∀ m k : Fin 4, m ≠ n ∨ k ≠ l → t.dev.lnk m k = s.dev.lnk m k) ∧
        State.Still (fun a => a = A.LINK_STATUS n l ∨ a = A.RX_SKEW n l ∨ Counted (A.STAT_LIVE n l 0 + 0x180) 0x20 0x200 a ∨
            Span (A.PRBS_ERR n l 0) 16 a)
          { s with dev.dies := t.dev.dies } t) ∧
    (s.dev.linkReady n l = true → s.dev.dieSt n ≠ 2 →
      Does (.linkUp n l) s fun t =>
        t.dev.flag (F.LINK_STATUS_LINK_UP n l) = true ∧ t.dev.flag (F.LINK_STATUS_LINK_CHG n l) = true ∧
        t.dev.get (evStatus (64 + 16 * n)) = 1 ∧ (t.dev.lnk n l).gen = (x.gen + 1) % 65536 ∧
        (t.dev.lnk n l).buckets = [] ∧ (t.dev.lnk n l).commits = [] ∧ (t.dev.lnk n l).sessions = [] ∧
        t.dev.get (F.CAL_STATE_COMMITTED n l) = 0 ∧
        (∀ m : Fin 4, m ≠ n → t.dev.die m = s.dev.die m) ∧
        (x.commits = [] →
          State.Frame (fun a => a = A.LINK_STATUS n l ∨ a = A.CAL_STATE n l ∨ a = A.UC_USED n l ∨ a = A.UC_SESSIONS n l)
            { s with dev.dies := t.dev.dies } t)) ∧
    (s.dev.linkFails n l = true → s.dev.dieSt n ≠ 2 → s.dev.raw + msTicks < 2 ^ 64 →
      Does (.linkDown n l) s fun t =>
        t.dev.flag (F.LINK_STATUS_LINK_UP n l) = false ∧ t.dev.flag (F.LINK_STATUS_LINK_CHG n l) = true ∧
        t.dev.get (evStatus (64 + 16 * n)) = 1 ∧ (t.dev.lnk n l).lockedSince = none ∧
        t.dev.get64 (A.STAT_LIVE n l 0 + 0x1A0) = (s.dev.get64 (A.STAT_LIVE n l 0 + 0x1A0) + 1) % 2 ^ 64 ∧
        (s.dev.get (F.LINK_CTRL_STATE n l) = 0 → s.dev.raw ≤ t.dev.get64 (A.GRID_ORIGIN n l) ∧
          t.dev.get64 (A.GRID_ORIGIN n l) < s.dev.raw + msTicks ∧
          t.dev.flag (F.LINK_STATUS_AN_DONE n l) = false ∧ t.dev.flag (F.LINK_STATUS_TRAIN_DONE n l) = false) ∧
        (∀ m k : Fin 4, m ≠ n ∨ k ≠ l → t.dev.lnk m k = s.dev.lnk m k) ∧
        State.Frame (fun a => a = A.LINK_STATUS n l ∨ Counted (A.STAT_LIVE n l 0 + 0x1A0) 8 0x200 a ∨ Span (A.GRID_ORIGIN n l) 8 a ∨
            Span 0x20100 0x300 a)
          { s with dev := { s.dev with dies := t.dev.dies, refs.srcs := t.dev.refs.srcs, freeCtr := t.dev.freeCtr } } t) ∧
    (s.dev.loaded = true → s.dev.get (F.LINK_CTRL_STATE n l) = 0 →
      Does (.anRestart n l) s fun t =>
        t.dev.flag (F.LINK_STATUS_AN_DONE n l) = false ∧ t.dev.flag (F.LINK_STATUS_TRAIN_DONE n l) = false ∧
        t.dev.flag (F.LINK_STATUS_LINK_UP n l) = false ∧
        (∀ m k : Fin 4, m ≠ n ∨ k ≠ l → t.dev.lnk m k = s.dev.lnk m k) ∧
        State.Frame (fun a => a = A.LINK_STATUS n l ∨ Counted (A.STAT_LIVE n l 0 + 0x1A0) 8 0x200 a ∨ Span (A.GRID_ORIGIN n l) 8 a ∨
            Span 0x20100 0x300 a)
          { s with dev := { s.dev with dies := t.dev.dies, refs.srcs := t.dev.refs.srcs, freeCtr := t.dev.freeCtr } } t) ∧
    (s.dev.get (F.LINK_CTRL_STATE n l) = 3 →
      Does (.linkTransitionComplete n l) s fun t =>
        t.dev.get (F.LINK_CTRL_STATE n l) = (if s.dev.flag (F.LINK_CTRL_LATCHED n l) then 1 else 0) ∧
        t.dev.flag (F.LINK_CTRL_LATCHED n l) = false ∧
        (∀ m k : Fin 4, m ≠ n ∨ k ≠ l → t.dev.lnk m k = s.dev.lnk m k) ∧
        State.Still (· = A.LINK_CTRL n l) { s with dev.dies := t.dev.dies } t) ∧
    (s.dev.get (F.LINK_CTRL_STATE n l) = 1 → s.dev.linkDrained n l = true →
      Does (.linkTransitionComplete n l) s fun t =>
        t.dev.get (F.LINK_CTRL_STATE n l) = (if s.dev.flag (F.LINK_CTRL_LATCHED n l) then 3 else 2) ∧
        t.dev.flag (F.LINK_CTRL_LATCHED n l) = false ∧ t.dev.get ⟨A.LINK_STATUS n l, 7, 0⟩ = 0 ∧
        (∀ m k : Fin 4, m ≠ n ∨ k ≠ l → t.dev.lnk m k = s.dev.lnk m k) ∧
        State.Frame (fun a => a = A.LINK_STATUS n l ∨ a = A.LINK_CTRL n l ∨ Counted (A.STAT_LIVE n l 0 + 0x1A0) 8 0x200 a ∨
            Span (A.GRID_ORIGIN n l) 8 a ∨ Span 0x20100 0x300 a)
          { s with dev := { s.dev with dies := t.dev.dies, refs.srcs := t.dev.refs.srcs, freeCtr := t.dev.freeCtr } } t)

/-- GRID_MEASUREMENT on a link that is up shows the difference; beyond 300 ps with no re-anchor waiting it sets GRID_FAULT, clears GRID_OK, opens fault 0x06 and fixes the granule of the re-anchor; within 100 ps it counts a good measurement, else none, also while a re-anchor waits (R240, R241). GRID_OK_RESTORED after 16 sets GRID_OK. GRID_REANCHOR from that granule on moves the map there by the last difference, gives each later commitment its launch instant by the new map, and ends the fault. CALENDAR_CYCLE_START puts the calendar settings written since in force and counts cycles from the cycle that opens (R71, R266). Nothing else changes. TABLE_SCRUB of a link clears VALID of exactly the 64-byte entries of the link's client table and session table in the ledger that have it and another link generation than the link's present one; every other byte and everything else stay (R229). Where the spec leaves a point open the clauses follow the model's readings: Re-anchor and remap of a grid (log entry 29); GRID_OK (log entry 65). -/
def Obligations.GridReanchoredTablesScrubbed : Prop :=
  (∀ (s : State) (n l : Fin 4) (x : Lnk), s.Safe → s.Shaped → s.dev.lnk n l = x →
    (∀ err : Int, s.dev.flag (F.LINK_STATUS_LINK_UP n l) = true → x.reanchor = none →
      Does (.gridMeasurement n l err) s fun t =>
        t.dev.get (F.GRID_ERR_ERR n l) = ofSigned 32 err ∧
        (300 < err.natAbs →
          t.dev.flag (F.LINK_STATUS_GRID_FAULT n l) = true ∧ t.dev.flag (F.LINK_STATUS_GRID_OK n l) = false ∧
          (t.dev.lnk n l).reanchor.isSome = true ∧ (t.dev.lnk n l).goodGrid = 0 ∧
          (∃ f ∈ t.dev.openFaults, f.fr.code = 0x06 ∧ f.fr.die = n ∧ f.fr.index = l ∧ f.fr.tick = s.dev.raw)) ∧
        (err.natAbs ≤ 300 → t.dev.openFaults = s.dev.openFaults ∧ (t.dev.lnk n l).reanchor = none ∧
          (t.dev.lnk n l).goodGrid = if err.natAbs ≤ 100 then x.goodGrid + 1 else 0) ∧
        (∀ m : Fin 4, m ≠ n → t.dev.die m = s.dev.die m) ∧
        State.Frame (fun a => a = A.LINK_STATUS n l ∨ a = A.GRID_ERR n l)
          { s with dev := { s.dev with dies := t.dev.dies, openFaults := t.dev.openFaults } } t) ∧
    (∀ (err : Int) (g : Nat), s.dev.flag (F.LINK_STATUS_LINK_UP n l) = true → x.reanchor = some g →
      x.granuleNow (s.dev.grid n l) s.dev.raw < g →
      Does (.gridMeasurement n l err) s fun t =>
        t.dev.get (F.GRID_ERR_ERR n l) = ofSigned 32 err ∧ (t.dev.lnk n l).reanchor = some g ∧
        (t.dev.lnk n l).goodGrid = (if err.natAbs ≤ 100 then x.goodGrid + 1 else 0) ∧
        (∀ m : Fin 4, m ≠ n → t.dev.die m = s.dev.die m) ∧
        State.Still (· = A.GRID_ERR n l) { s with dev.dies := t.dev.dies } t) ∧
    (∀ err : Int, s.dev.flag (F.LINK_STATUS_LINK_UP n l) = false → x.reanchor = none →
      Does (.gridMeasurement n l err) s fun t => State.Still (fun _ => False) s t) ∧
    (16 ≤ x.goodGrid → Does (.gridOkRestored n l) s fun t =>
      t.dev.flag (F.LINK_STATUS_GRID_OK n l) = true ∧ State.Still (· = A.LINK_STATUS n l) s t) ∧
    (∀ g : Nat, x.reanchor = some g → g ≤ x.granuleNow (s.dev.grid n l) s.dev.raw →
      Does (.gridReanchor n l) s fun t =>
        (t.dev.lnk n l).gridK = g ∧ (t.dev.lnk n l).reanchor = none ∧
        (t.dev.lnk n l).gridT = x.at125 (s.dev.grid n l) g + toSigned 32 (s.dev.get (F.GRID_ERR_ERR n l)) * 65536 / 10 ∧
        (t.dev.lnk n l).commits = x.commits.map (fun c => if c.gone = true ∨ c.start < g then c
          else { c with lam := (t.dev.lnk n l).granuleAt (s.dev.grid n l) c.start }) ∧
        (∀ f ∈ t.dev.openFaults, f.fr.code = 0x06 → f.fr.die = n → f.fr.index = l → f.ended ≠ none) ∧
        (∀ m : Fin 4, m ≠ n → t.dev.die m = s.dev.die m) ∧
        State.Still (fun _ => False) { s with dev := { s.dev with dies := t.dev.dies, openFaults := t.dev.openFaults } } t) ∧
    (x.calNew = true → Does (.calendarCycleStart n l) s fun t =>
      (t.dev.lnk n l).cal = s.dev.calRegs n l ∧ (t.dev.lnk n l).calNew = false ∧
      (x.cal.n = 0 → (t.dev.lnk n l).calBase = x.granuleNow (s.dev.grid n l) s.dev.raw) ∧
      (t.dev.lnk n l).commits = x.commits ∧ (∀ m k : Fin 4, m ≠ n ∨ k ≠ l → t.dev.lnk m k = s.dev.lnk m k) ∧
      State.Still (fun _ => False) { s with dev.dies := t.dev.dies } t) ∧
    (x.calNew = false → Does (.calendarCycleStart n l) s fun t => State.Still (fun _ => False) s t)) ∧
  (∀ (s : State) (n l : Fin 4) (stale : Nat → Prop), s.Safe →
    (∀ a, stale a ↔ ∃ base size flags gen, (base, size, flags, gen) ∈
      [(s.dev.get64 (A.CT_BASE n l), (s.dev.reg (A.CT_SIZE n l)).toNat * 4096, 16, 18),
       (s.dev.get64 (A.ST_BASE n l), (s.dev.reg (A.ST_SIZE n l)).toNat * 4096, 10, 60)] ∧
      base ≤ a ∧ a < base + size ∧ (a - base) % 64 = flags ∧ (s.ledger.get a).getLsbD 0 = true ∧
      leNat (s.ledger.read (a - flags + gen) 2) ≠ (s.dev.lnk n l).gen) →
    Does (.tableScrub n l) s fun t =>
      (∀ a, stale a → t.ledger.get a = s.ledger.get a &&& 0xFE) ∧ (∀ a, ¬ stale a → t.ledger.get a = s.ledger.get a) ∧
      t.dev = s.dev ∧ (∀ a, t.host.get a = s.host.get a) ∧ (∀ a, t.flash.get a = s.flash.get a) ∧ t.pending = s.pending)

/-- FRAME_LAUNCH of the earliest commitment whose instant lies before the end of the tick: on a link that is up, with no test pattern or loopback, it puts out, at the committed instant, the scheduled frame, the reply that is ready, not late and not held back by a fault, or the host frame, padded to 60 bytes with its FCS, counted as sent; the reply's request ends. A scheduled frame of a link that is down falls silently; a reply not formed yet there counts TxLinkDownDrop and its outcome waits for what the reply would have been (R228, R427). With near-end loopback the frame reaches the link's own receiver instead (R249). The commitment is gone (R233, R274, R276). LATE_CHECK of the one reply that has not reached the transmit buffer 15 ns before the launch at the plane marks it late and counts CAL_LATE, outside faults with its event (R273, R41); with nothing due it changes nothing. ORDERING_INSTANT takes out exactly the outcomes whose instant has come, in no context's log the counter alone (R276, R426). Where the spec leaves a point open the clauses follow the model's readings: LATE (log entry 41); Replies on a link that is down (log entry 161); Link test (log entry 163). -/
def Obligations.FramesLaunchedOrLate : Prop :=
  ∀ (s : State) (n l : Fin 4) (x : Lnk), s.Safe → s.Shaped → s.dev.lnk n l = x →
    (∀ (c : Commit) (bs : List Byte) (kind : Nat),
      x.commits.find? (fun k => !k.gone && decide (k.lam < ticks16 (s.dev.raw + 1))) = some c →
      x.commits.find? (fun k => decide (k.start = c.start)) = some c →
      s.dev.flag (F.LINK_STATUS_LINK_UP n l) = true → s.dev.get (F.LINK_TEST_PRBS n l) = 0 → s.dev.get (F.LINK_TEST_LOOP n l) ≤ 1 →
      ((∃ pd, c.load = .sched bs pd ∧ kind = 0x118) ∨
        (∃ f, c.load = .hostFrame f ∧ f.bytes = bs ∧ kind = 0x120) ∨
        (∃ id q oc, c.load = .reply id ∧ s.dev.query n id = some q ∧ q.stage = .done ∧ q.reply = some bs ∧
          q.outcome = some oc ∧ oc ≠ 4 ∧ c.late = false ∧ s.dev.replyBlocked n l q.stamp c.lam = false ∧ kind = 0x110)) →
      Does (.frameLaunch n l) s fun t =>
        (∀ f, f = (bs ++ zeros (60 - bs.length)) ++ fcsOf (bs ++ zeros (60 - bs.length)) →
          (s.dev.get (F.LINK_TEST_LOOP n l) = 0 → t.dev.out.filter (fun o => !o.isMsix) =
            .frame n l c.lam f :: s.dev.out.filter (fun o => !o.isMsix)) ∧
          (s.dev.get (F.LINK_TEST_LOOP n l) = 1 → (t.dev.lnk n l).looped = x.looped ++ [f] ∧
            t.dev.out.filter (fun o => !o.isMsix) = s.dev.out.filter (fun o => !o.isMsix))) ∧
        t.dev.get64 (A.STAT_LIVE n l 0 + 0x100) = (s.dev.get64 (A.STAT_LIVE n l 0 + 0x100) + 1) % 2 ^ 64 ∧
        t.dev.get64 (A.STAT_LIVE n l 0 + kind) = (s.dev.get64 (A.STAT_LIVE n l 0 + kind) + 1) % 2 ^ 64 ∧
        (∀ k ∈ (t.dev.lnk n l).commits, k.start = c.start → k.gone = true) ∧
        (∀ id, c.load = .reply id → t.dev.query n id = none) ∧
        (∀ m : Fin 4, m ≠ n → t.dev.die m = s.dev.die m) ∧ (∀ a, t.flash.get a = s.flash.get a) ∧ t.pending = s.pending ∧
        (c.load = .sched bs false →
          State.Frame (fun a => a = A.CAL_STATE n l ∨ Counted (A.STAT_LIVE n l 0 + 0x100) 0x28 0x200 a)
            { s with dev := { s.dev with dies := t.dev.dies, out := t.dev.out } } t)) ∧
    (∀ (c : Commit) (bs : List Byte) (pd : Bool),
      x.commits.find? (fun k => !k.gone && decide (k.lam < ticks16 (s.dev.raw + 1))) = some c →
      x.commits.find? (fun k => decide (k.start = c.start)) = some c → c.load = .sched bs pd →
      s.dev.flag (F.LINK_STATUS_LINK_UP n l) = false →
      Does (.frameLaunch n l) s fun t =>
        (∀ k ∈ (t.dev.lnk n l).commits, k.start = c.start → k.gone = true) ∧
        State.Still (· = A.CAL_STATE n l) { s with dev.dies := t.dev.dies } t) ∧
    (∀ (c : Commit) (id : Nat) (q : Query),
      x.commits.find? (fun k => !k.gone && decide (k.lam < ticks16 (s.dev.raw + 1))) = some c →
      x.commits.find? (fun k => decide (k.start = c.start)) = some c → c.load = .reply id → c.late = false →
      s.dev.flag (F.LINK_STATUS_LINK_UP n l) = false → s.dev.query n id = some q → q.outcome = none →
      q.stage ≠ .lost → q.stage ≠ .full →
      Does (.frameLaunch n l) s fun t =>
        (∀ k ∈ (t.dev.lnk n l).commits, k.start = c.start → k.gone = true) ∧
        t.dev.query n id = some { q with fallen := some (c.lam / 65536) } ∧
        t.dev.get64 (A.STAT_LIVE n l 0 + 0x128) = (s.dev.get64 (A.STAT_LIVE n l 0 + 0x128) + 1) % 2 ^ 64 ∧
        State.Still (fun a => a = A.CAL_STATE n l ∨ Counted (A.STAT_LIVE n l 0 + 0x128) 8 0x200 a)
          { s with dev.dies := t.dev.dies } t) ∧
    (∀ (c : Commit) (id : Nat) (q : Query), x.commits = [c] → c.gone = false → c.late = false →
      s.dev.flag (F.LINK_STATUS_LINK_UP n l) = true →
      5 * (c.lam : Int) - 4 * (s.dev.dTx n l + 15 * 65536) ≤ 5 * (ticks16 s.dev.raw : Int) → c.load = .reply id →
      s.dev.query n id = some q → q.stage ≠ .done → q.stage ≠ .lost → s.dev.replyBlocked n l q.stamp c.lam = false →
      Does (.lateCheck n l) s fun t =>
        (t.dev.lnk n l).commits = [{ c with late := true }] ∧
        t.dev.reg (A.CAL_LATE n l) = s.dev.reg (A.CAL_LATE n l) + 1 ∧ t.dev.flag (F.CAL_FLAGS_LATE_SEEN n l) = true ∧
        (s.dev.inFault n = false → t.dev.get (evStatus 6) = 1 ∧
          ∃ f ∈ t.dev.openFaults, f.fr.code = 0x09 ∧ f.fr.die = n ∧ f.fr.index = l ∧ f.fr.tick = s.dev.raw) ∧
        State.Frame (fun a => a = A.CAL_LATE n l ∨ a = A.CAL_FLAGS n l)
          { s with dev := { s.dev with dies := t.dev.dies, openFaults := t.dev.openFaults } } t) ∧
    ((∀ c ∈ x.commits, c.gone = true ∨ c.late = true ∨
        5 * (ticks16 s.dev.raw : Int) < 5 * (c.lam : Int) - 4 * (s.dev.dTx n l + 15 * 65536)) →
      Does (.lateCheck n l) s fun t => State.Still (fun _ => False) s t) ∧
    (Does (.orderingInstant n) s fun t =>
      (t.dev.die n).orderings = (s.dev.die n).orderings.filter (fun o => decide (s.dev.raw < o.at')) ∧
      (∀ m : Fin 4, m ≠ n → t.dev.die m = s.dev.die m) ∧ t.dev.ts = s.dev.ts ∧ t.dev.openFaults = s.dev.openFaults ∧
      (∀ a, t.flash.get a = s.flash.get a) ∧ (∀ a, ¬ s.dev.EventByte a → t.host.get a = s.host.get a)) ∧
    (∀ o : Sys2Proof.Machine.Ordering, (s.dev.die n).orderings = [o] → o.at' ≤ s.dev.raw → o.log = false → o.ctx ≠ 0 → o.ctx < 256 →
      Does (.orderingInstant n) s fun t =>
        (t.dev.die n).orderings = [] ∧
        t.dev.get64 (A.CTX_CNT n o.ctx 0 + outcomeOfs o.outcome) =
          (s.dev.get64 (A.CTX_CNT n o.ctx 0 + outcomeOfs o.outcome) + 1) % 2 ^ 64 ∧
        State.Still (Counted (A.CTX_CNT n o.ctx 0 + outcomeOfs o.outcome) 8 0x4000) { s with dev.dies := t.dev.dies } t)

/-- HOST_FRAME_FETCH of a ring that is not RUNNING, with DMA off or on a die without power changes nothing. On a RUNNING ring whose next posted descriptor carries EOF and no other flag, with a length of 14 to 9,596 bytes that the 128 KiB buffer still takes, it appends that frame, its bytes read from the descriptor's address, to the ring's frames, and the ring has fetched one descriptor more (R342, R343). HOST_WINDOW_OPEN in a window not yet served, on a link that is up and RUNNING, marks it served; every commitment it adds starts inside the window, and what it leaves of each ring's frames is the tail of what stood there, in order (R270). Outside a window nothing changes. Where the spec leaves a point open the clauses follow the model's readings: Memories (log entry 7); Host windows (log entry 55); LAUNCH_AT (log entry 56). -/
def Obligations.HostFramesFetchedAndPlaced : Prop :=
  ∀ (s : State) (n l : Fin 4) (t0 : Fin 8) (ring : Nat), s.Safe → s.Shaped → ring = A.TXR_BASE n t0 →
    ((s.dev.get (F.TXR_CTRL_STATE n t0) ≠ 0 ∨ s.dev.dmaOk = false ∨ s.dev.diePowered n = false) →
      Does (.hostFrameFetch n t0) s fun t => State.Still (fun _ => False) s t) ∧
    (∀ (i : Nat) (r : List Byte), s.dev.get (F.TXR_CTRL_STATE n t0) = 0 → s.dev.dmaOk = true → s.dev.diePowered n = true →
      (s.dev.ringRt ring).fetched < s.dev.posted' ring →
      i = (s.dev.get (F.TXR_HEAD_I n t0) + (s.dev.ringRt ring).fetched) % 2 ^ s.dev.get (F.TXR_CFG_LOG2 n t0) →
      r = s.host.read (s.dev.descAddr ring i) 32 → leAt r 10 2 % 8 = 1 → 14 ≤ leAt r 8 2 → leAt r 8 2 ≤ 9596 →
      (s.dev.die n).hostBytes + leAt r 8 2 ≤ 131072 →
      Does (.hostFrameFetch n t0) s fun t =>
        (t.dev.die n).txq.getD t0 [] = (s.dev.die n).txq.getD t0 [] ++
          [{ ring := t0, descs := [i], bytes := s.host.read (leAt r 0 8) (leAt r 8 2), tag := leAt r 12 2 }] ∧
        (t.dev.ringRt ring).fetched = (s.dev.ringRt ring).fetched + 1 ∧
        (∀ g, g ≠ ring → t.dev.ringRt g = s.dev.ringRt g) ∧ (∀ m : Fin 4, m ≠ n → t.dev.die m = s.dev.die m) ∧
        State.Still (fun _ => False) { s with dev := { s.dev with dies := t.dev.dies, pcie.rings := t.dev.pcie.rings } } t) ∧
    (∀ (x : Lnk) (w : Nat), s.dev.lnk n l = x → x.inWindow (x.granuleNow (s.dev.grid n l) s.dev.raw) = true →
      w = x.cycleStart (x.granuleNow (s.dev.grid n l) s.dev.raw) + x.cal.ws → x.winAt ≠ some w →
      s.dev.flag (F.LINK_STATUS_LINK_UP n l) = true → s.dev.get (F.LINK_CTRL_STATE n l) = 0 →
      Does (.hostWindowOpen n l) s fun t =>
        (t.dev.lnk n l).winAt = some w ∧
        (∀ k ∈ (t.dev.lnk n l).commits, k ∈ x.commits ∨ (w ≤ k.start ∧ k.start < w + x.cal.wl)) ∧
        (∀ k ∈ x.commits, k ∈ (t.dev.lnk n l).commits) ∧
        (∀ g : Fin 8, ∃ pre, (s.dev.die n).txq.getD g [] = pre ++ (t.dev.die n).txq.getD g []) ∧
        (∀ m : Fin 4, m ≠ n → t.dev.die m = s.dev.die m) ∧
        State.Frame (fun a => a = A.CAL_STATE n l ∨ a = A.CAL_WIN_DEFER n l) { s with dev.dies := t.dev.dies } t) ∧
    (∀ x : Lnk, s.dev.lnk n l = x → x.inWindow (x.granuleNow (s.dev.grid n l) s.dev.raw) = false →
      Does (.hostWindowOpen n l) s fun t => State.Still (fun _ => False) s t)

/-- DISPATCH gives the queued request with the smallest arrival stamp to a thread of the RUNNING engine with fewest of its 32 threads in use, among equals the lowest number, which ungates; with no free thread, or nothing queued, nothing changes (R264). THREAD_COMPLETE of a request in a thread, other than Signaling, whose reply is formed without a new cookie and not refused in silence: the request is done with that reply and outcome and holds no arrival cells, or, where its launch instant has passed on a link that was down, ends with that outcome counted (R228, R427), and the engine's 64-bit count of completed requests rises by 1. ENGINE_CLOCK_GATE gates the clock of a RUNNING engine idle for 64 of its cycles (35 ticks, or 64 on the fallback clock) and no other. Where the spec leaves a point open the clauses follow the model's readings: Engine choice (log entry 44); Clock gate (log entry 52); Replies on a link that is down (log entry 161). -/
def Obligations.RequestsDispatchedAndCompleted : Prop :=
  ∀ (s : State) (n e : Fin 4), s.Safe → s.Shaped →
    (∀ q : Query, q ∈ (s.dev.die n).queries → q.stage = .queued →
      (∀ p ∈ (s.dev.die n).queries, p.stage = .queued → p = q ∨ q.stamp < p.stamp) →
      s.dev.get (F.ENG_CTRL_STATE n e) = 0 → s.dev.threads n e < 32 →
      (∀ k : Fin 4, s.dev.get (F.ENG_CTRL_STATE n k) = 0 →
        s.dev.threads n e < s.dev.threads n k ∨ (s.dev.threads n e = s.dev.threads n k ∧ e ≤ k)) →
      Does (.dispatch n) s fun t =>
        (t.dev.die n).queries = (s.dev.die n).queries.map (fun p => if p.id = q.id then { q with stage := .thread e } else p) ∧
        t.dev.flag (F.ENG_STATUS_GATED n e) = false ∧ t.dev.get (F.ENG_STATUS_THREADS n e) = t.dev.threads n e % 64 ∧
        (∀ m : Fin 4, m ≠ n → t.dev.die m = s.dev.die m) ∧
        State.Still (fun a => a = A.ENG_STATUS n e ∨ a = A.DISPATCH_STATUS n) { s with dev.dies := t.dev.dies } t) ∧
    (((∀ q ∈ (s.dev.die n).queries, q.stage ≠ .queued) ∨
        (∀ k : Fin 4, s.dev.get (F.ENG_CTRL_STATE n k) ≠ 0 ∨ 32 ≤ s.dev.threads n k)) →
      Does (.dispatch n) s fun t => State.Still (fun _ => False) s t) ∧
    (∀ (id : Nat) (q : Query) (r : Option (List Byte)) (oc key : Nat), s.dev.query n id = some q → q.stage = .thread e →
      Img.proto q.img ≠ 3 → q.form (s.dev.seenAt n q.stamp) n (q.lam.getD 0) = (r, oc, 0, key) → oc ≠ 4 →
      (q.fallen = none → Does (.threadComplete n id) s fun t =>
        (t.dev.die n).queries = (s.dev.die n).queries.map (fun p => if p.id = q.id then
          { q with stage := .done, reply := r, outcome := some oc, cells := 0 } else p) ∧
        t.dev.get64 (A.ENG_DONE n e) = (s.dev.get64 (A.ENG_DONE n e) + 1) % 2 ^ 64 ∧
        t.dev.get (F.ENG_STATUS_THREADS n e) = t.dev.threads n e % 64 ∧
        (t.dev.threads n e = 0 → (t.dev.eng n e).idleSince = s.dev.raw) ∧
        (∀ m : Fin 4, m ≠ n → t.dev.die m = s.dev.die m) ∧
        State.Still (fun a => a = A.ENG_STATUS n e ∨ a = A.ARR_STATUS n ∨ Span (A.ENG_DONE n e) 8 a)
          { s with dev.dies := t.dev.dies } t) ∧
      (∀ tick, q.fallen = some tick → Img.b q.img 0 3 = false → 0 < q.ctx → q.ctx < 256 → Does (.threadComplete n id) s fun t =>
        (t.dev.die n).queries = (s.dev.die n).queries.filter (fun p => decide (p.id ≠ q.id)) ∧
        t.dev.get64 (A.CTX_CNT n q.ctx 0 + outcomeOfs oc) = (s.dev.get64 (A.CTX_CNT n q.ctx 0 + outcomeOfs oc) + 1) % 2 ^ 64 ∧
        t.dev.get64 (A.ENG_DONE n e) = (s.dev.get64 (A.ENG_DONE n e) + 1) % 2 ^ 64 ∧
        (∀ m : Fin 4, m ≠ n → t.dev.die m = s.dev.die m) ∧
        State.Still (fun a => a = A.ENG_STATUS n e ∨ a = A.ARR_STATUS n ∨ Span (A.ENG_DONE n e) 8 a ∨
            Counted (A.CTX_CNT n q.ctx 0 + outcomeOfs oc) 8 0x4000 a)
          { s with dev.dies := t.dev.dies } t)) ∧
    (s.dev.get (F.ENG_CTRL_STATE n e) = 0 → s.dev.threads n e = 0 →
      (s.dev.eng n e).idleSince + (if s.dev.flag (F.ENG_STATUS_SLOW_CLK n e) then 64 else 35) ≤ s.dev.raw →
      Does (.engineClockGate n e) s fun t =>
        t.dev.flag (F.ENG_STATUS_GATED n e) = true ∧ State.Still (· = A.ENG_STATUS n e) s t) ∧
    ((s.dev.get (F.ENG_CTRL_STATE n e) ≠ 0 ∨ s.dev.threads n e ≠ 0) →
      Does (.engineClockGate n e) s fun t => State.Still (fun _ => False) s t)

/-- DRAIN_COMPLETE of a stopping engine without threads stops it, gates its clock and raises "Engine park change"; with a latched request for service it starts at once (R48, R410). ENGINE_START_UP_COMPLETE of a starting engine that is not in recovery runs it; a latched park then begins, or is refused with REFUSED_MIN where it would leave fewer than E_MIN unparked. ENGINE_FATAL_ERROR of a clocked engine sets FATAL, counts it, loses every request in its threads, opens fault 0x01 with their number and raises its event; a running one recovers for 10 µs, one that rejoined less than a second ago is stopped and locked out (R413, R414). ENGINE_REJOIN after that time runs it. With E_MIN engines running the die's engine faults end (R415). Where the spec leaves a point open the clauses follow the model's readings: A fatal error while draining (log entry 51); R48 re-check (log entry 53); A locked-out engine (log entry 174). -/
def Obligations.EnginesDrainStartFailAndRejoin : Prop :=
  ∀ (s : State) (n e : Fin 4) (latched : Bool), s.Safe → s.Shaped → s.dev.diePowered n = true →
    s.dev.flag (F.ENG_CTRL_LATCHED n e) = latched →
    (s.dev.get (F.ENG_CTRL_STATE n e) = 1 → s.dev.threads n e = 0 → bit (s.dev.get (F.DIE_INFO_ENG_MASK n)) e = true →
      Does (.drainComplete n e) s fun t =>
        t.dev.get (F.ENG_CTRL_STATE n e) = (if latched then 3 else 2) ∧ t.dev.flag (F.ENG_CTRL_LATCHED n e) = false ∧
        t.dev.flag (F.ENG_STATUS_GATED n e) = true ∧ t.dev.get (evStatus (64 + 16 * n + 7)) = 1 ∧
        t.dev.get (F.DIE_INFO_RUNNING n) = t.dev.runningEngines n ∧
        State.Frame (fun a => a = A.ENG_CTRL n e ∨ a = A.ENG_STATUS n e ∨ a = A.DIE_INFO n ∨ a = A.ENG_FAULT n) s t) ∧
    (s.dev.threads n e ≠ 0 → Does (.drainComplete n e) s fun t => State.Still (fun _ => False) s t) ∧
    (s.dev.get (F.ENG_CTRL_STATE n e) = 3 → (s.dev.eng n e).recoverAt = none →
      Does (.engineStartUpComplete n e) s fun t =>
        (latched = false → t.dev.get (F.ENG_CTRL_STATE n e) = 0 ∧ t.dev.flag (F.ENG_STATUS_GATED n e) = false) ∧
        (latched = true → s.dev.get (F.DIE_INFO_E_MIN n) ≤ s.dev.unparkedBut n e → t.dev.get (F.ENG_CTRL_STATE n e) = 1) ∧
        (latched = true → s.dev.unparkedBut n e < s.dev.get (F.DIE_INFO_E_MIN n) →
          t.dev.get (F.ENG_CTRL_STATE n e) = 0 ∧ t.dev.flag (F.ENG_CTRL_ENABLE n e) = true ∧
          t.dev.get (F.ENG_CTRL_LAST_CODE n e) = 2) ∧
        t.dev.flag (F.ENG_CTRL_LATCHED n e) = false ∧ t.dev.get (evStatus (64 + 16 * n + 7)) = 1 ∧
        (t.dev.eng n e).idleSince = s.dev.raw ∧
        (latched = false → s.dev.get (F.DIE_INFO_E_MIN n) ≤ t.dev.runningEngines n →
          ∀ f ∈ t.dev.openFaults, f.fr.code = 0x01 → f.fr.die = n → f.fr.index < 4 → f.ended ≠ none) ∧
        (∀ m : Fin 4, m ≠ n → t.dev.die m = s.dev.die m) ∧
        State.Frame (fun a => a = A.ENG_CTRL n e ∨ a = A.ENG_STATUS n e ∨ a = A.DIE_INFO n)
          { s with dev := { s.dev with dies := t.dev.dies, openFaults := t.dev.openFaults } } t) ∧
    (s.dev.get (F.ENG_CTRL_STATE n e) ≠ 2 → Does (.engineFatalError n e) s fun t =>
      t.dev.flag (F.ENG_STATUS_FATAL n e) = true ∧ t.dev.get (evStatus (64 + 16 * n + 6)) = 1 ∧
      t.dev.get (F.ENG_FAULT_FATAL_CNT n) = min (s.dev.get (F.ENG_FAULT_FATAL_CNT n) + 1) 255 ∧
      t.dev.reg (A.ENG_LOST n) = s.dev.reg (A.ENG_LOST n) + BitVec.ofNat 32 (s.dev.threads n e) ∧
      ((∀ q ∈ (s.dev.die n).queries, q.stage = .thread e → q.fallen = none) → (t.dev.die n).queries =
        (s.dev.die n).queries.map (fun q => if q.stage == .thread e then { q with stage := .lost, cells := 0 } else q)) ∧
      (∃ f ∈ t.dev.openFaults, f.fr.code = 0x01 ∧ f.fr.die = n ∧ f.fr.index = e ∧ f.fr.tick = s.dev.raw ∧
        f.fr.lost = min 65535 (s.dev.threads n e)) ∧
      (s.dev.get (F.ENG_CTRL_STATE n e) = 1 → bit (s.dev.get (F.DIE_INFO_ENG_MASK n)) e = true →
        t.dev.get (F.ENG_CTRL_STATE n e) = if latched then 3 else 2) ∧
      (s.dev.get (F.ENG_CTRL_STATE n e) ≠ 1 → (∀ r, (s.dev.eng n e).rejoin = some r → r + secTicks ≤ s.dev.raw) →
        t.dev.get (F.ENG_CTRL_STATE n e) = 3 ∧ bit (t.dev.get (F.ENG_FAULT_RECOVERING n)) e = true ∧
        (t.dev.eng n e).recoverAt = some (s.dev.raw + 8000)) ∧
      (∀ r, s.dev.get (F.ENG_CTRL_STATE n e) ≠ 1 → (s.dev.eng n e).rejoin = some r → s.dev.raw < r + secTicks →
        t.dev.get (F.ENG_CTRL_STATE n e) = 2 ∧ bit (t.dev.get (F.ENG_FAULT_LOCKOUT n)) e = true ∧
        t.dev.flag (F.ENG_CTRL_ENABLE n e) = false ∧ t.dev.flag (F.ENG_CTRL_LATCHED n e) = false ∧
        (t.dev.eng n e).recoverAt = none) ∧
      (∀ m : Fin 4, m ≠ n → t.dev.die m = s.dev.die m) ∧
      ((∀ q ∈ (s.dev.die n).queries, q.stage = .thread e → q.fallen = none) →
      State.Frame (fun a => a = A.ENG_CTRL n e ∨ a = A.ENG_STATUS n e ∨ a = A.DIE_INFO n ∨ a = A.ENG_FAULT n ∨
          a = A.ENG_LOST n ∨ a = A.ARR_STATUS n)
        { s with dev := { s.dev with dies := t.dev.dies, openFaults := t.dev.openFaults, bus.shadow := t.dev.bus.shadow } } t)) ∧
    (∀ u : Nat, (s.dev.eng n e).recoverAt = some u → u ≤ s.dev.raw → latched = false →
      Does (.engineRejoin n e) s fun t =>
        t.dev.get (F.ENG_CTRL_STATE n e) = 0 ∧ bit (t.dev.get (F.ENG_FAULT_RECOVERING n)) e = false ∧
        (t.dev.eng n e).recoverAt = none ∧ (t.dev.eng n e).rejoin = some s.dev.raw ∧
        (t.dev.eng n e).idleSince = s.dev.raw ∧ (∀ m : Fin 4, m ≠ n → t.dev.die m = s.dev.die m) ∧
        State.Still (fun a => a = A.ENG_CTRL n e ∨ a = A.DIE_INFO n ∨ a = A.ENG_FAULT n)
          { s with dev := { s.dev with dies := t.dev.dies, openFaults := t.dev.openFaults } } t) ∧
    ((∀ u, (s.dev.eng n e).recoverAt = some u → s.dev.raw < u) →
      Does (.engineRejoin n e) s fun t => State.Still (fun _ => False) s t)

/-- RECEIVE_FRAME on a link that is down, of a die without power, under a test pattern or, in near-end loopback, not sent by the link itself changes nothing (R249). Else a frame under 64 or over 9,600 bytes, with a code error or a bad FCS adds 1 to that drop counter alone (R230). A frame that the MAC passes counts as good, with its bytes. One for the host, with room in the host partition, on a RUNNING ring with DMA allowed and enough posted descriptors, advances HEAD by the descriptors it takes, counts, and holds its cells of the host partition for a free time of at most 5 us (R251, R338 to R341; the time is the model's free value); on a ring that is not RUNNING it counts in RXR_NOBUF alone. One for a context outside service is counted and dropped (R79). In service it adds at most one request, which carries the arrival stamp, the frame without FCS and the link, and for which a launch is committed at its λ, no earlier than the granule that its turnaround allows (R268). Where the spec leaves a point open the clauses follow the model's readings: Arrival stamp (log entry 33); Arrival cells (log entry 160); Link test (log entry 163). -/
def Obligations.FramesCountedDroppedAndPlaced : Prop :=
  ∀ (s : State) (n l : Fin 4) (mii stamp : Nat) (f : List Byte) (codeErr : Bool) (v : Dev) (cl : Sys2Proof.Machine.Class), s.Safe → s.Shaped →
    stamp = stampOf mii ((s.dev.regsAt mii).dRx n l) → v = s.dev.regsAt stamp →
    cl = v.classify n l f (tagsOf f (v.get (F.LINK_TPID_TPID n l))) →
    ((s.dev.diePowered n = false ∨ s.dev.flag (F.LINK_STATUS_LINK_UP n l) = false ∨ s.dev.get (F.LINK_TEST_PRBS n l) ≠ 0 ∨
        (s.dev.get (F.LINK_TEST_LOOP n l) = 1 ∧ f ∉ (s.dev.lnk n l).looped)) →
      Does (.receiveFrame n l mii f codeErr) s fun t => State.Still (fun _ => False) s t) ∧
    (s.dev.diePowered n = true → s.dev.flag (F.LINK_STATUS_LINK_UP n l) = true → s.dev.get (F.LINK_TEST_PRBS n l) = 0 →
      s.dev.get (F.LINK_TEST_LOOP n l) = 0 →
      (∀ o : Nat, (f.length < 64 ∧ o = 0x28) ∨ (9600 < f.length ∧ o = 0x20) ∨
          (64 ≤ f.length ∧ f.length ≤ 9600 ∧ codeErr = true ∧ o = 0x18) ∨
          (64 ≤ f.length ∧ f.length ≤ 9600 ∧ codeErr = false ∧ f.drop (f.length - 4) ≠ fcsOf (f.take (f.length - 4)) ∧ o = 0x10) →
        Does (.receiveFrame n l mii f codeErr) s fun t =>
          t.dev.get64 (A.STAT_LIVE n l 0 + o) = (s.dev.get64 (A.STAT_LIVE n l 0 + o) + 1) % 2 ^ 64 ∧
          State.Still (Counted (A.STAT_LIVE n l 0 + o) 8 0x200) s t) ∧
      (s.dev.macDrop n l f stamp codeErr (tagsOf f (v.get (F.LINK_TPID_TPID n l))) = none →
        (Does (.receiveFrame n l mii f codeErr) s fun t =>
          t.dev.get64 (A.STAT_LIVE n l 0) = (s.dev.get64 (A.STAT_LIVE n l 0) + 1) % 2 ^ 64 ∧
          t.dev.get64 (A.STAT_LIVE n l 0 + 8) = (s.dev.get64 (A.STAT_LIVE n l 0 + 8) + f.length) % 2 ^ 64 ∧
          (∀ m : Fin 4, m ≠ n → t.dev.die m = s.dev.die m) ∧ (∀ a, t.flash.get a = s.flash.get a) ∧ t.pending = s.pending) ∧
        (∀ (r : Fin 8) (reason ctx need : Nat), cl.dest = .host r reason ctx → cl.walk.ip4 ≠ some false →
          (cl.walk.udp = true → udpOk (f.take (f.length - 4)) cl.walk.l3 cl.walk.l4 = true) →
          (s.dev.die n).hostCells + (f.length - 4 + 67) / 64 ≤ ((s.dev.pos.hostKib[(n : Nat)]?).getD 0) * 16 →
          need = cdiv (f.length - 4) (s.dev.get (F.RXR_CFG_BUF n r) * 256) →
          (s.dev.get (ringState (A.RXR_BASE n r)) ≠ 0 → Does (.receiveFrame n l mii f codeErr) s fun t =>
            t.dev.reg (A.RXR_NOBUF n r) = s.dev.reg (A.RXR_NOBUF n r) + 1 ∧
            State.Frame (fun a => a = A.RXR_NOBUF n r ∨ Counted (A.STAT_LIVE n l 0) 0x100 0x200 a ∨ ∃ k, a = A.RULE_6 n k) s t) ∧
          (s.dev.get (ringState (A.RXR_BASE n r)) = 0 → s.dev.dmaOk = true → s.dev.get (ringLog2 (A.RXR_BASE n r)) ≤ 16 →
            need ≤ s.dev.posted' (A.RXR_BASE n r) → s.dev.posted' (A.RXR_BASE n r) ≠ 0 →
            Does (.receiveFrame n l mii f codeErr) s fun t =>
              t.dev.get (ringHead (A.RXR_BASE n r)) =
                (s.dev.get (ringHead (A.RXR_BASE n r)) + need) % s.dev.ringSize (A.RXR_BASE n r) ∧
              t.dev.reg (A.RXR_FRAMES n r) = s.dev.reg (A.RXR_FRAMES n r) + 1 ∧
              (∃ u, s.dev.raw < u ∧ u ≤ s.dev.raw + 4000 ∧
                t.dev.die n = { s.dev.die n with hostHeld := (u, (f.length - 4 + 67) / 64) :: (s.dev.die n).hostHeld }) ∧
              (∀ a, t.ledger.get a = s.ledger.get a))) ∧
        (∀ c : Nat, cl.dest = .context c → cl.walk.ip4 ≠ some false →
          (cl.walk.udp = true → udpOk (f.take (f.length - 4)) cl.walk.l3 cl.walk.l4 = true) →
          (s.dev.servesAt stamp = false → Does (.receiveFrame n l mii f codeErr) s fun t =>
            t.dev.get64 (A.STAT_LIVE n l 0 + 0x88) = (s.dev.get64 (A.STAT_LIVE n l 0 + 0x88) + 1) % 2 ^ 64 ∧
            State.Frame (fun a => Counted (A.STAT_LIVE n l 0) 0x100 0x200 a ∨ ∃ k, a = A.RULE_6 n k) s t) ∧
          (s.dev.servesAt stamp = true → (∀ p ∈ (s.dev.die n).queries, p.id < (s.dev.die n).nextQuery) →
            Does (.receiveFrame n l mii f codeErr) s fun t =>
              ∃ new, (t.dev.die n).queries = (s.dev.die n).queries ++ new ∧ new.length ≤ 1 ∧
                ∀ q ∈ new, q.link = l ∧ q.ctx = c ∧ q.stamp = stamp ∧ q.bytes = f.take (f.length - 4) ∧
                  ∃ k ∈ (t.dev.lnk n l).commits, k.load = .reply q.id ∧ q.lam = some k.lam ∧
                    (s.dev.lnk n l).firstGranule (s.dev.grid n l) q.need ≤ k.start))))

/-- CLIENT_READ takes the oldest waiting request of the link, if any. With no client table an engine request is admitted, counted for its context and queued (R260). With a table and a live entry of the client, that entry's bucket, refilled to the arrival's time, decides: it takes one request or refuses, the entry's level and the count of admissions or refusals show it, and no other byte of the ledger changes (R262). GRANT_CHECK answers a waiting Delay_Req whose session holds a valid Delay_Resp grant at its arrival, and refuses it in silence otherwise (R309). GRANT_EXPIRY clears in every session of the link exactly the grants that are no longer valid, forgets the sessions left with none and shows the number of sessions (R325); the rest of the ledger stays. Where the spec leaves a point open the clauses follow the model's readings: Client table index (log entry 35); Requests without an IP header (log entry 39); Session entries (log entry 47). -/
def Obligations.ClientsAndGrantsChecked : Prop :=
  ∀ (s : State) (n l : Fin 4) (ecc : Bool), s.Safe → s.Shaped →
    ((∀ q ∈ (s.dev.die n).queries, ¬ (q.link = l ∧ q.stage = .client)) →
      Does (.clientRead n l ecc) s fun t => State.Still (fun _ => False) s t) ∧
    (∀ (q : Query) (k : Nat), (s.dev.die n).queries.find? (fun q => decide (q.link = (l : Nat) ∧ q.stage = .client)) = some q →
      k = ((s.dev.die n).queries.filter (fun p => p.stage == .queued)).length → k < 256 → Img.engine q.img = true →
      0 < q.ctx → q.ctx < 256 →
      (s.dev.reg (A.CT_SIZE n l) = 0 → Does (.clientRead n l ecc) s fun t =>
        (t.dev.die n).queries = (s.dev.die n).queries.map (fun p => if p.id = q.id then
          { q with admitted := true, refused := false, stage := .queued } else p) ∧
        t.dev.get64 (A.CTX_CNT n q.ctx 0) = (s.dev.get64 (A.CTX_CNT n q.ctx 0) + 1) % 2 ^ 64 ∧
        (∀ m : Fin 4, m ≠ n → t.dev.die m = s.dev.die m) ∧
        State.Frame (fun a => Counted (A.CTX_CNT n q.ctx 0) 8 0x4000 a ∨ a = A.DISPATCH_STATUS n) { s with dev.dies := t.dev.dies } t) ∧
      (∀ (w a lv : Nat) (key e : List Byte) (last : Option Int) (ok : Bool), s.dev.reg (A.CT_SIZE n l) ≠ 0 → ecc = false →
        key = q.clientKey →
        a = tableSet (s.dev.get64 (A.CT_BASE n l)) ((s.dev.reg (A.CT_SIZE n l)).toNat * 8) s.dev.keys.salt
          ([byte (Img.f q.img 0 31 24), byte (boolNat q.ipv6)] ++ key) →
        (setWays s.ledger a).findIdx? (fun e => !clientEmpty (s.dev.lnk n l).gen e && slice e 0 16 == key &&
          leAt e 17 1 == Img.f q.img 0 31 24 && (leAt e 16 1 / 2 % 2 == 1) == q.ipv6) = some w →
        e = s.ledger.read (a + 64 * w) 64 →
        refill (leAt e 20 12) (Img.f q.img 0x1C 15 0 * reqUnit) (Img.f q.img 0x18 31 0) (some (recordTime (slice e 32 16)))
          (s.dev.dieTime n (Img.scale q.img) q.stamp) = (lv, last) →
        ok = decide (reqUnit ≤ lv) →
        Does (.clientRead n l ecc) s fun t =>
          (t.dev.die n).queries = (s.dev.die n).queries.map (fun p => if p.id = q.id then
            { q with admitted := ok, refused := !ok, stage := .queued } else p) ∧
          leAt (t.ledger.read (a + 64 * w) 64) 0 16 = leNat key ∧
          leAt (t.ledger.read (a + 64 * w) 64) 20 12 = (if ok then lv - reqUnit else lv) ∧
          leAt (t.ledger.read (a + 64 * w) 64) 56 4 = (leAt e 56 4 + boolNat ok) % 2 ^ 32 ∧
          leAt (t.ledger.read (a + 64 * w) 64) 60 4 = (leAt e 60 4 + boolNat !ok) % 2 ^ 32 ∧
          (∀ b, b < a + 64 * w ∨ a + 64 * w + 64 ≤ b → t.ledger.get b = s.ledger.get b) ∧
          (∀ m : Fin 4, m ≠ n → t.dev.die m = s.dev.die m) ∧
          State.Frame (fun a => Counted (A.CTX_CNT n q.ctx 0) 8 0x4000 a ∨ a = A.DISPATCH_STATUS n)
            { s with dev.dies := t.dev.dies, ledger := t.ledger } t)) ∧
    ((∀ q ∈ (s.dev.die n).queries, ¬ (q.link = l ∧ q.stage = .grant)) →
      Does (.grantCheck n l ecc) s fun t => State.Still (fun _ => False) s t) ∧
    (∀ (q q' : Query) (ok : Bool) (i : Option (Nat × Bool)),
      (s.dev.die n).queries.find? (fun q => decide (q.link = (l : Nat) ∧ q.stage = .grant)) = some q → Img.proto q.img = 2 → q.fallen = none → ecc = false →
      i = s.dev.sesFind s.ledger n l (slice q.ptp 20 10) (beAt q.ptp 4 1) →
      (ok = true ↔ ∃ k, i = some (k, true) ∧
        sesValid (s.ledger.read (s.dev.sesAddr n l k) 64) 2 ((s.dev.seenAt n q.stamp).ptpTime q.img q.stamp) = true) →
      q' = { q with refused := !ok, stage := .done, cells := 0, outcome := some (if ok then 0 else 4),
                    reply := if ok then some (q.ptpFrame (q.ptpReplyMsg (s.dev.seenAt n q.stamp) (q.lam.getD 0))) else none } →
      Does (.grantCheck n l ecc) s fun t =>
        (t.dev.die n).queries = (s.dev.die n).queries.map (fun p => if p.id = q.id then q' else p) ∧
        (∀ m : Fin 4, m ≠ n → t.dev.die m = s.dev.die m) ∧
        State.Still (· = A.ARR_STATUS n) { s with dev.dies := t.dev.dies } t) ∧
    (∀ (at' : Nat → Nat) (gone : Nat → List Nat) (e : Nat → List Byte), (∀ i, at' i = s.dev.sesAddr n l i) →
      (∀ i, e i = s.ledger.read (at' i) 64) →
      (∀ i, gone i = (List.range 3).filter fun g => sesGranted (e i) g &&
        !sesValid (e i) g (s.dev.sesTime n (e i) (ticks16 s.dev.raw))) →
      Does (.grantExpiry n l) s fun t =>
        (∀ i ∈ (s.dev.lnk n l).sessions, t.ledger.read (at' i) 64 = (gone i).foldl sesClear (e i)) ∧
        (∀ b, (∀ i ∈ (s.dev.lnk n l).sessions, b < at' i ∨ at' i + 64 ≤ b) → t.ledger.get b = s.ledger.get b) ∧
        (t.dev.lnk n l).sessions = (s.dev.lnk n l).sessions.filter (fun i =>
          decide (gone i = []) || leAt ((gone i).foldl sesClear (e i)) 10 1 / 2 % 8 != 0) ∧
        t.dev.get (F.UC_SESSIONS_N n l) = (t.dev.lnk n l).sessions.length % 2 ^ 17 ∧
        (∀ m k : Fin 4, m ≠ n ∨ k ≠ l → t.dev.lnk m k = s.dev.lnk m k) ∧
        State.Still (fun a => a = A.UC_USED n l ∨ a = A.UC_SESSIONS n l) { s with dev.dies := t.dev.dies, ledger := t.ledger } t)

/-- RESERVED_SLOT_OCCURRENCE of a slot that the present granule is not in, on a link that is down, or in granules already taken changes nothing. Otherwise every commitment it adds is a device-scheduled frame that starts in the slot and leaves its last granule free, and no other commitment goes (R314, R326). In a slot of role 3 for an enabled PTP master context with announcing on, whose next Announce falls due and fits, the Announce for the launch instant of the slot's first granule is committed there, its sequenceId taken from the context's line and counted up, and the due instant is marked handled (R315). In a slot of role 6 of a stream with a Signaling message waiting that fits, that message is committed and waits no more (R327). Where the spec leaves a point open the clauses follow the model's readings: Trains (log entry 57); Slots on markers (log entry 58). -/
def Obligations.SlotsCarryScheduledMessages : Prop :=
  ∀ (s : State) (n l : Fin 4) (k : Fin 16) (x : Lnk) (now : Nat), s.Safe → s.Shaped → s.dev.lnk n l = x →
    now = x.granuleNow (s.dev.grid n l) s.dev.raw →
    (x.occurrence now k = none → Does (.reservedSlotOccurrence n l k) s fun t => State.Still (fun _ => False) s t) ∧
    (∀ g fin u : Nat, x.occurrence now k = some (g, fin) → x.cal.use[(k : Nat)]? = some u →
      ((s.dev.flag (F.LINK_STATUS_LINK_UP n l) = false ∨ (∃ c ∈ x.commits, g ≤ c.start ∧ c.start < fin) ∨ u % 8 = 0 ∨ u % 8 = 7) →
        Does (.reservedSlotOccurrence n l k) s fun t => State.Still (fun _ => False) s t) ∧
      (Does (.reservedSlotOccurrence n l k) s fun t =>
        (∀ c ∈ (t.dev.lnk n l).commits, c ∈ x.commits ∨
          (g ≤ c.start ∧ c.start + c.occ + 1 ≤ fin ∧ ∃ bs pd, c.load = .sched bs pd)) ∧
        (∀ c ∈ x.commits, c ∈ (t.dev.lnk n l).commits) ∧ (∀ m : Fin 4, m ≠ n → t.dev.die m = s.dev.die m) ∧
        (∀ a, t.host.get a = s.host.get a) ∧ (∀ a, t.flash.get a = s.flash.get a) ∧ t.pending = s.pending) ∧
      (∀ (c lam : Nat) (m : Img) (due : Int) (bs : List Byte), u % 8 = 3 → c = u / 256 % 256 →
        s.dev.flag (F.LINK_STATUS_LINK_UP n l) = true → (∀ y ∈ x.commits, y.start < g ∨ fin ≤ y.start) →
        s.dev.ctxEnabled n l c = true → m = s.dev.img n c → Img.proto m = 2 → Img.f m 0x48 3 0 = 6 → Img.b m 0x40 8 = true →
        lam = x.granuleAt (s.dev.grid n l) g →
        due = dueIndex ((s.dev.onDie n).ptpTime m lam) (toSigned 8 (Img.f m 0x44 15 8)) 0 → x.dueMark 3 c = some (due - 1) →
        bs = m.ownFrame false ((s.dev.onDie n).announceMsg m lam (s.dev.get ⟨A.CTX_LINE n (c - 1) 52, 31, 16⟩)
          (ofSigned 8 (toSigned 8 (Img.f m 0x44 15 8))) false) →
        isMarker (s.dev.grid n l).mark g = false → ((s.dev.grid n l).after g (bs.length + 4) 0).1 + 1 ≤ fin →
        Does (.reservedSlotOccurrence n l k) s fun t =>
          (∃ y ∈ (t.dev.lnk n l).commits, y.start = g ∧ y.lam = lam ∧ y.load = .sched bs false) ∧
          t.dev.get ⟨A.CTX_LINE n (c - 1) 52, 31, 16⟩ = (s.dev.get ⟨A.CTX_LINE n (c - 1) 52, 31, 16⟩ + 1) % 65536 ∧
          (t.dev.lnk n l).dueMark 3 c = some due ∧
          State.Still (fun a => a = A.CTX_LINE n (c - 1) 52 ∨ a = A.CAL_STATE n l)
            { s with dev := { s.dev with dies := t.dev.dies, hist := t.dev.hist } } t) ∧
      (∀ (m : Fin 8) (msg : List Byte) (rest : List (List Byte)) (bs : List Byte), u % 8 = 6 → m = u / 256 % 16 →
        s.dev.flag (F.LINK_STATUS_LINK_UP n l) = true → (∀ y ∈ x.commits, y.start < g ∨ fin ≤ y.start) →
        s.dev.get (F.STR_CFG_LINK m) = 4 * n + l → s.dev.ctxEnabled n l (s.dev.get (F.STR_CFG_CONTEXT m)) = true →
        (s.dev.strm m).sig = msg :: rest → bs = (s.dev.img n (s.dev.get (F.STR_CFG_CONTEXT m))).ownFrame false msg →
        isMarker (s.dev.grid n l).mark g = false → ((s.dev.grid n l).after g (bs.length + 4) 0).1 + 1 ≤ fin →
        Does (.reservedSlotOccurrence n l k) s fun t =>
          (∃ y ∈ (t.dev.lnk n l).commits, y.start = g ∧ y.load = .sched bs false) ∧ (t.dev.strm m).sig = rest ∧
          (∀ j : Fin 8, j ≠ m → t.dev.strm j = s.dev.strm j) ∧
          State.Still (· = A.CAL_STATE n l) { s with dev := { s.dev with dies := t.dev.dies, streams := t.dev.streams } } t))

/-- BMCA of an instance that runs it, in LISTENING, MASTER or PASSIVE: with no Announce held that beats its own data set the port becomes MASTER (6), else PASSIVE (7); a change is published as a register batch one lead ahead, an equal state as nothing, and the Announces considered are used up (R321). REFERENCE_MESSAGE takes the oldest message of a stream: with none waiting nothing changes; a one-step Sync of its master, with a delay exchange done, gives the delay and the offset from Scale A of R328 and sets VALID; an Announce shows the grandmaster and its class and, where the grandmaster changed, sets GM_CHANGE (R329). STREAM_GRANT_REQUEST of a unicast stream with a context queues one Signaling message that asks for Announce, Sync and Delay_Resp for 300 s each (R327). Where the spec leaves a point open the clauses follow the model's readings: PTP TLVs (log entry 46); BMCA (log entry 59); Grandmaster changes (log entry 60); Clock accuracy codes (log entry 177). -/
def Obligations.MasterChosenAndStreamsMeasured : Prop :=
  ∀ s : State, s.Safe → s.Shaped →
    (∀ (n : Fin 4) (c : Fin 256) (m : Img) (best : Bool) (st : Nat), c ≠ 0 → m = s.dev.img n c → s.dev.md.coresDown = none →
      Img.proto m = 2 → Img.stream m = false → Img.b m 0x48 4 = true → st = Img.f m 0x48 3 0 → st = 4 ∨ st = 6 ∨ st = 7 →
      (best = true ↔ 3 ≤ Img.f m 0x40 12 10 ∨ ∀ (l : Fin 4) (a : Nat) (p : List Byte), s.dev.ctxEnabled n l c = true →
        (a, p) ∈ (s.dev.lnk n l).announces → Img.proto (s.dev.img n a) = 3 → Img.f (s.dev.img n a) 0x40 7 0 = c →
        beNat (s.dev.ownKey m) ≤ beNat (annKey p)) →
      Does (.bmca n c) s fun t =>
        t.dev.batches = (if st = (if best then 6 else 7) then s.dev.batches else s.dev.batches ++ [(s.dev.raw + 16384,
          [(A.CTX_LINE n (c - 1) 18, putBits 3 0 (s.dev.reg (A.CTX_LINE n (c - 1) 18)) (if best then 6 else 7))])]) ∧
        (∀ (l : Fin 4) (a : Nat) (p : List Byte), s.dev.ctxEnabled n l c = true → (a, p) ∈ (t.dev.lnk n l).announces →
          ¬ (Img.proto (s.dev.img n a) = 3 ∧ Img.f (s.dev.img n a) 0x40 7 0 = c)) ∧
        (∀ j : Fin 4, j ≠ n → t.dev.die j = s.dev.die j) ∧
        State.Still (fun _ => False) { s with dev := { s.dev with dies := t.dev.dies, batches := t.dev.batches } } t) ∧
    (∀ (m : Fin 8) (x : Strm), s.dev.strm m = x →
      (x.inbox = [] → Does (.referenceMessage m) s fun t => State.Still (fun _ => False) s t) ∧
      (∀ (t2 : Nat) (p : List Byte) (rest : List (Nat × List Byte)), x.inbox = (t2, p) :: rest →
        (s.dev.strTakes m p = false → Does (.referenceMessage m) s fun t =>
          t.dev.strm m = { x with inbox := rest } ∧ (∀ j : Fin 8, j ≠ m → t.dev.strm j = s.dev.strm j) ∧
          State.Still (fun _ => False) { s with dev.streams := t.dev.streams } t) ∧
        (∀ (t3 : Nat) (t4 cR cS d18 : Int) (ds : List Int), s.dev.strTakes m p = true → beAt p 0 1 % 16 = 0 →
          bit (beAt p 6 1) 1 = false → x.exch = some (t3, t4, cR) → s.dev.flag (F.STR_CFG_P2P m) = false →
          cS = ptpCorr p + s.dev.strAsym m →
          ds = ((4 * (t4 - stampAt p 34) - 5 * ((t3 : Int) - t2) - 4 * cS - 4 * cR) :: x.ds).take 16 → d18 = meanHalf ds →
          Does (.referenceMessage m) s fun t =>
            t.dev.get64 (A.STR_DELAY m) = ofSigned 64 (d18 / 4) ∧
            t.dev.get64 (A.STR_OFS m) =
              ofSigned 64 ((4 * (stampAt p 34 + cS) + d18) / 4 - (s.dev.ts.time16 0 t2).getD 0) ∧
            t.dev.flag (F.STR_STATUS_VALID m) = true ∧ t.dev.strm m = { x with inbox := rest, ds := ds } ∧
            (∀ j : Fin 8, j ≠ m → t.dev.strm j = s.dev.strm j) ∧
            State.Still (fun a => Span (A.STR_DELAY m) 16 a ∨ a = A.STR_STATUS m ∨ Span 0x20100 0x300 a)
              { s with dev := { s.dev with streams := t.dev.streams, refs := t.dev.refs } } t) ∧
        (s.dev.strTakes m p = true → beAt p 0 1 % 16 = 11 → Does (.referenceMessage m) s fun t =>
          t.dev.get64 (A.STR_GM m) = leNat (slice p 53 8) ∧ t.dev.get (F.STR_STATUS_GM_CLASS m) = beAt p 48 1 ∧
          (∀ g, x.gm = some g → g ≠ slice p 53 8 →
            t.dev.flag (F.STR_STATUS_GM_CHANGE m) = true ∧ t.dev.flag (F.STR_STATUS_VALID m) = false) ∧
          t.dev.strm m = { x with inbox := rest, gm := some (slice p 53 8) } ∧
          (∀ j : Fin 8, j ≠ m → t.dev.strm j = s.dev.strm j) ∧
          State.Still (fun a => Span (A.STR_GM m) 8 a ∨ a = A.STR_STATUS m)
            { s with dev := { s.dev with streams := t.dev.streams, refs := t.dev.refs } } t))) ∧
    (∀ m : Fin 8, s.dev.flag (F.STR_CFG_UNICAST m) = true → s.dev.md.coresDown = none → s.dev.get (F.STR_CFG_CONTEXT m) ≠ 0 →
      Does (.streamGrantRequest m) s fun t =>
        (∃ msg, t.dev.strm m = { s.dev.strm m with sig := (s.dev.strm m).sig ++ [msg], seq := ((s.dev.strm m).seq + 1) % 65536 } ∧
          beAt msg 0 1 % 16 = 12 ∧ beAt msg 30 2 = (s.dev.strm m).seq % 65536 ∧
          msg.drop 44 = [(11, F.STR_REQ_LOG_ANN m), (0, F.STR_REQ_LOG_SYNC m), (9, F.STR_REQ_LOG_DREQ m)].flatMap (fun y =>
            [0, 4, 0, 6, byte (y.1 * 16), byte (s.dev.get y.2), 0, 0, 1, 0x2C])) ∧
        (∀ j : Fin 8, j ≠ m → t.dev.strm j = s.dev.strm j) ∧
        State.Still (fun _ => False) { s with dev.streams := t.dev.streams } t)

/-- RING_TAIL_WRITE of a ring that can be reached sets TAIL to a value inside the ring that does not pass the head, and else only WRITE_ERR (R336); against a limit of the Position it only sets LIMIT_ERR (R61). RING_TRANSITION_COMPLETE: a starting ring with a legal size runs, or stops at once where a stop is latched, and with an illegal one is STOPPED with CFG_ERR; a stopping ring with nothing left to wait for is STOPPED, or starts anew where that is latched; a resting ring stays (R337, R48). HOST_DMA_ERROR of a ring that is not STOPPED stops it with DMA_ERR, with no request latched, and raises source 4 and, of a die's ring, the die's own source; where the read of a command's input fails, that command first completes with DMA_ERR (R353). RING_IRQ_HOLDOFF once the holdoff has passed since the oldest unreported write-back puts the ring's MSI-X message out and forgets what was unreported (R347); with nothing unreported, nothing changes. Where the spec leaves a point open the clauses follow the model's readings: Stopped rings (log entry 63); Limits on action commands (log entry 168); Input of a host command (log entry 172). -/
def Obligations.HostRingsMove : Prop :=
  ∀ (s : State) (r : RingId) (b : Nat), s.Safe → s.Shaped → b = ringBank r → s.dev.get (ringLog2 b) ≤ 16 →
    (∀ v : Word, s.dev.ringReach r = true →
      s.Limits (.ringTailWrite r v) (b + 0x14) (putBits 15 0 (s.dev.reg (b + 0x14)) (bits 15 0 v)) (match r with
        | .cmd | .ev => A.HD_STATUS
        | .rx n _ | .tx n _ => A.RING_BLK_STATUS n)) ∧
    (∀ (v : Word) (room : Nat), s.dev.ringReach r = true → s.dev.get (ringTail b) < s.dev.ringSize b →
      s.dev.limitOk [(b + 0x14, putBits 15 0 (s.dev.reg (b + 0x14)) (bits 15 0 v))] = true →
      room = (if r = .ev then (s.dev.get (ringHead b) + s.dev.ringSize b - s.dev.get (ringTail b)) % s.dev.ringSize b
        else s.dev.ringSize b - 1 - s.dev.posted' b) →
      (bits 15 0 v < s.dev.ringSize b →
        (bits 15 0 v + s.dev.ringSize b - s.dev.get (ringTail b)) % s.dev.ringSize b ≤ room →
        Does (.ringTailWrite r v) s fun t => t.dev.get (ringTail b) = bits 15 0 v ∧ State.Still (· = b + 0x14) s t) ∧
      (s.dev.ringSize b ≤ bits 15 0 v ∨
          room < (bits 15 0 v + s.dev.ringSize b - s.dev.get (ringTail b)) % s.dev.ringSize b →
        Does (.ringTailWrite r v) s fun t =>
          t.dev.flag (ringErr r) = true ∧ State.Still (· = (ringErr r).addr) s t)) ∧
    (s.dev.get (ringState b) = 3 → s.dev.ringCfgOk r = true → s.dev.flag (ringLatched b) = false →
      Does (.ringTransitionComplete r) s fun t =>
        t.dev.get (ringState b) = 0 ∧ State.Still (· = b + 0xC) s t) ∧
    (s.dev.get (ringState b) = 3 → s.dev.ringCfgOk r = true → s.dev.flag (ringLatched b) = true →
      Does (.ringTransitionComplete r) s fun t =>
        t.dev.get (ringState b) = 1 ∧ t.dev.flag (ringLatched b) = false) ∧
    (s.dev.get (ringState b) = 3 → s.dev.ringCfgOk r = false → Does (.ringTransitionComplete r) s fun t =>
      t.dev.get (ringState b) = 2 ∧ t.dev.flag (ringLatched b) = false ∧ t.dev.flag (ringCfgErr b) = true ∧
      State.Still (· = b + 0xC) s t) ∧
    (s.dev.get (ringState b) = 1 → s.dev.ringDrained r = true → Does (.ringTransitionComplete r) s fun t =>
      t.dev.get (ringState b) = (if s.dev.flag (ringLatched b) then 3 else 2) ∧ t.dev.flag (ringLatched b) = false ∧
      (s.dev.flag (ringLatched b) = true → t.dev.get (ringHead b) = 0 ∧ t.dev.get (ringTail b) = 0) ∧
      State.Still (fun a => a = b + 0xC ∨ (s.dev.flag (ringLatched b) = true ∧ Span (b + 0x10) 8 a))
        { s with dev.pcie.rings := t.dev.pcie.rings } t) ∧
    ((s.dev.get (ringState b) = 0 ∨ s.dev.get (ringState b) = 2 ∨
        (s.dev.get (ringState b) = 1 ∧ s.dev.ringDrained r = false)) →
      Does (.ringTransitionComplete r) s fun t => State.Still (fun _ => False) s t) ∧
    (∀ input : Bool, s.dev.get (ringState b) ≠ 2 → r ≠ .cmd ∨ input = false → Does (.hostDmaError r input) s fun t =>
      t.dev.get (ringState b) = 2 ∧ t.dev.flag (ringLatched b) = false ∧ t.dev.flag (ringDmaErr b) = true ∧
      t.dev.get (evStatus 4) = 1 ∧
      (∀ (n : Fin 4) (k : Fin 8), (r = .rx n k ∨ r = .tx n k) → s.dev.dieSt n ≠ 2 →
        t.dev.get (evStatus (64 + 16 * n + 15)) = 1) ∧
      (∀ (n : Fin 4) (k : Fin 8), r = .tx n k → (t.dev.die n).txq.getD k [] = []) ∧
      State.Frame (· = b + 0xC)
        { s with dev := { s.dev with dies := t.dev.dies, pcie.cmds := t.dev.pcie.cmds } } t) ∧
    (∀ input : Bool, s.dev.get (ringState b) = 2 → Does (.hostDmaError r input) s fun t => State.Still (fun _ => False) s t) ∧
    (∀ c : CmdRun, r = .cmd → s.dev.nextCmd s.host = some c → bit (s.dev.reg (b + 0x18)).toNat 7 = false →
      Does (.hostDmaError r true) s fun t =>
        t.host.read (c.desc + 24) 7 = [0, 0, 0, 0, 0xF2, 0xFF, 1] ∧ t.dev.get (ringState b) = 2 ∧
        t.dev.flag (ringDmaErr b) = true ∧ t.dev.get (evStatus 4) = 1) ∧
    (∀ (since v : Nat) (e : MsixEntry), (s.dev.ringRt b).oldest = some since → bit (s.dev.reg (b + 0x18)).toNat 7 = true →
      since + bits 31 16 (s.dev.reg (b + 0x18)) * 800 ≤ s.dev.raw → v = bits 5 0 (s.dev.reg (b + 0x18)) →
      s.dev.pcie.msix[v]? = some e → e.masked = false → s.dev.flag F.PCIE_STATUS_MSIX_EN = true →
      s.dev.flag F.PCIE_STATUS_D3 = false → s.dev.pcie.funcMask = false → s.dev.pcie.busMaster = true →
      Does (.ringIrqHoldoff r) s fun t =>
        t.dev.ringRt b = { s.dev.ringRt b with unrep := 0, oldest := none } ∧
        t.dev.out = .msix v e.addr e.data :: s.dev.out ∧ t.host.read e.addr 4 = leBytes 4 e.data ∧
        State.Frame (fun _ => False) { s with dev.pcie.rings := t.dev.pcie.rings } t) ∧
    ((s.dev.ringRt b).oldest = none → Does (.ringIrqHoldoff r) s fun t => State.Still (fun _ => False) s t)

/-- EV_ENABLE_WRITE gives every source of the word that is not LOCKED its new enable; a LOCKED one keeps its own, and a change asked of it sets WRITE_ERR (R354). EV_STATUS_CLEAR clears exactly the statuses written 1; a level source whose condition holds is raised again. EV_ROUTE_WRITE sets KIND and VECTOR of an unlocked source, but for source 5 never the event ring; else only WRITE_ERR is set (R355). Each of these three against a limit of the Position only sets LIMIT_ERR (R61). MSIX_UNMASK, a write to word 0 to 3 of a vector's table entry, sets its address, data or mask and no other vector's; a pending message of a vector that nothing holds any longer goes out (R357). Where the spec leaves a point open the clauses follow the model's readings: MSI-X mask (log entry 64); Limits on action commands (log entry 168). -/
def Obligations.EventTableAndVectorsWritten : Prop :=
  ∀ s : State, s.Safe → s.Shaped →
    (∀ (w : Fin 4) (v : Word), s.Limits (.evEnableWrite w v) (A.EV_ENABLE w) v A.GBL_STATUS ∧
      s.Limits (.evStatusClear w v) (A.EV_STATUS w) (s.dev.reg (A.EV_STATUS w) &&& ~~~v) A.GBL_STATUS) ∧
    (∀ (src : Fin 128) (v y : Word),
      y = putBits 13 8 (putBits 1 0 (s.dev.reg (A.EV_ROUTE src)) (bits 1 0 v)) (bits 13 8 v) →
      s.Limits (.evRouteWrite src v) (A.EV_ROUTE src) y A.GBL_STATUS) ∧
    (∀ (w : Fin 4) (v : Word), s.dev.limitOk [(A.EV_ENABLE w, v)] = true → Does (.evEnableWrite w v) s fun t =>
      (∀ b : Fin 32, s.dev.flag (F.EV_ROUTE_LOCKED (32 * w + b)) = false →
        t.dev.get (evEnable (32 * w + b)) = boolNat (bit v.toNat b)) ∧
      (∀ b : Fin 32, s.dev.flag (F.EV_ROUTE_LOCKED (32 * w + b)) = true →
        t.dev.get (evEnable (32 * w + b)) = s.dev.get (evEnable (32 * w + b)) ∧
        (boolNat (bit v.toNat b) ≠ s.dev.get (evEnable (32 * w + b)) → t.dev.flag F.EV_BLK_STATUS_WRITE_ERR = true)) ∧
      State.Frame (fun a => a = A.EV_ENABLE w ∨ a = A.EV_BLK_STATUS) s t) ∧
    (∀ (w : Fin 4) (v : Word), s.dev.limitOk [(A.EV_STATUS w, s.dev.reg (A.EV_STATUS w) &&& ~~~v)] = true →
      Does (.evStatusClear w v) s fun t =>
      (∀ b : Fin 32, 32 * (w : Nat) + b ≠ 5 → s.dev.levelHolds (32 * w + b) = false →
        t.dev.get (evStatus (32 * w + b)) = (if bit v.toNat b then 0 else s.dev.get (evStatus (32 * w + b)))) ∧
      (∀ b : Fin 32, s.dev.levelHolds (32 * w + b) = true → 32 * (w : Nat) + b ≠ 5 →
        (32 * (w : Nat) + b < 64 ∨ s.dev.dieSt ((32 * w + b - 64) / 16) ≠ 2) → 32 * (w : Nat) + b ∈ levelSources →
        t.dev.get (evStatus (32 * w + b)) = 1) ∧
      State.Frame (fun _ => False) s t) ∧
    (∀ (src : Fin 128) (v y : Word),
      y = putBits 13 8 (putBits 1 0 (s.dev.reg (A.EV_ROUTE src)) (bits 1 0 v)) (bits 13 8 v) →
      s.dev.limitOk [(A.EV_ROUTE src, y)] = true →
      (s.dev.flag (F.EV_ROUTE_LOCKED src) = false ∨ (bits 1 0 v = s.dev.get (F.EV_ROUTE_KIND src) ∧
          bits 13 8 v = s.dev.get (F.EV_ROUTE_VECTOR src))) → ¬ (src = 5 ∧ bits 1 0 v = 3) →
      Does (.evRouteWrite src v) s fun t =>
        t.dev.get (F.EV_ROUTE_KIND src) = bits 1 0 v ∧ t.dev.get (F.EV_ROUTE_VECTOR src) = bits 13 8 v ∧
        State.Still (· = A.EV_ROUTE src) s t) ∧
    (∀ (src : Fin 128) (v y : Word),
      y = putBits 13 8 (putBits 1 0 (s.dev.reg (A.EV_ROUTE src)) (bits 1 0 v)) (bits 13 8 v) →
      s.dev.limitOk [(A.EV_ROUTE src, y)] = true → (src = 5 ∧ bits 1 0 v = 3) ∨ (s.dev.flag (F.EV_ROUTE_LOCKED src) = true ∧
        (bits 1 0 v ≠ s.dev.get (F.EV_ROUTE_KIND src) ∨ bits 13 8 v ≠ s.dev.get (F.EV_ROUTE_VECTOR src))) →
      Does (.evRouteWrite src v) s fun t =>
        t.dev.flag F.EV_BLK_STATUS_WRITE_ERR = true ∧ State.Still (· = A.EV_BLK_STATUS) s t) ∧
    (∀ (v : Fin 64) (w : Fin 4) (x : Word) (e : MsixEntry), s.dev.pcie.msix[(v : Nat)]? = some e →
      Does (.msixUnmask v w x) s fun t =>
        (∃ f : MsixEntry, t.dev.pcie.msix[(v : Nat)]? = some f ∧
          f.addr = (if w = 0 then e.addr / 2 ^ 32 * 2 ^ 32 + x.toNat / 4 * 4
            else if w = 1 then e.addr % 2 ^ 32 + 2 ^ 32 * x.toNat else e.addr) ∧
          f.data = (if w = 2 then x.toNat else e.data) ∧ f.masked = (if w = 3 then bit x.toNat 0 else e.masked)) ∧
        (∀ (u : Fin 64) (g : MsixEntry), u ≠ v → s.dev.pcie.msix[(u : Nat)]? = some g →
          ∃ h : MsixEntry, t.dev.pcie.msix[(u : Nat)]? = some h ∧ h.addr = g.addr ∧ h.data = g.data ∧ h.masked = g.masked) ∧
        (e.pending = true → w = 3 → bit x.toNat 0 = false → s.dev.flag F.PCIE_STATUS_MSIX_EN = true →
          s.dev.flag F.PCIE_STATUS_D3 = false → s.dev.pcie.funcMask = false → s.dev.pcie.busMaster = true →
          Output.msix v e.addr e.data ∈ t.dev.out ∧ ∃ f : MsixEntry, t.dev.pcie.msix[(v : Nat)]? = some f ∧ f.pending = false) ∧
        (2 ≤ w → State.Frame (fun _ => False) s t))

/-- PCIE_RESET stops every ring with ENABLE, HEAD, TAIL and what it noted cleared, clears MSI-X Enable, D3, bus mastering and all vectors, and, but for a function-level reset, takes the link down, PERST_N low with it where that is the cause (R82, R335). PERST_N_RISE lets it train; PCIE_LINK_UP with PERST_N high outside BYPASS shows speed and width. CONFIGURATION_REQUEST on a link that is up sets the power state, bus mastering, MSI-X Enable and the function mask; a return from D3 resets the function. BAR2_ACCESS after LOAD: a read puts out the region's bytes at the window's base plus the offset, zero past its end, a write to the bulk region stores its bytes up to the end and no others, one to a log region nothing (R334). Where the spec leaves a point open the clauses follow the model's readings: PCIe reset (log entry 61); MSI-X mask (log entry 64). -/
def Obligations.PcieFunctionAndWindow : Prop :=
  ∀ s : State, s.Safe → s.Shaped →
    (∀ k : PcieReset, Does (.pcieReset k) s fun t =>
      (∀ r : RingId, t.dev.get (ringState (ringBank r)) = 2 ∧ t.dev.flag (ringEnableF (ringBank r)) = false ∧
        t.dev.flag (ringLatched (ringBank r)) = false ∧ t.dev.get (ringHead (ringBank r)) = 0 ∧
        t.dev.get (ringTail (ringBank r)) = 0 ∧ t.dev.ringRt (ringBank r) = {}) ∧
      t.dev.flag F.PCIE_STATUS_MSIX_EN = false ∧ t.dev.flag F.PCIE_STATUS_D3 = false ∧ t.dev.pcie.busMaster = false ∧
      t.dev.pcie.funcMask = false ∧ (∀ e ∈ t.dev.pcie.msix, e = {}) ∧
      t.dev.pcie.linkUp = (decide (k = .flr) && s.dev.pcie.linkUp) ∧
      t.dev.pcie.perstN = (decide (k ≠ .perst) && s.dev.pcie.perstN) ∧
      (k ≠ .flr → t.dev.get F.PCIE_STATUS_SPEED = 0 ∧ t.dev.get F.PCIE_STATUS_WIDTH = 0) ∧
      (∀ n : Fin 4, t.dev.die n = { s.dev.die n with txq := List.replicate 8 [] }) ∧
      State.Still (fun a => a = A.PCIE_STATUS ∨ ∃ r, Span (ringBank r + 0xC) 12 a)
        { s with dev := { s.dev with dies := t.dev.dies, pcie := t.dev.pcie } } t) ∧
    (Does .perstNRise s fun t => t = { s with dev.pcie.perstN := true }) ∧
    (∀ (speed : Fin 5) (width : Fin 9), s.dev.pcie.perstN = true → s.dev.mode ≠ .bypass →
      Does (.pcieLinkUp speed width) s fun t =>
        t.dev.get F.PCIE_STATUS_SPEED = speed ∧ t.dev.get F.PCIE_STATUS_WIDTH = width ∧ t.dev.pcie.linkUp = true ∧
        State.Still (· = A.PCIE_STATUS) { s with dev.pcie.linkUp := true } t) ∧
    (∀ d3 bm en mask : Bool, s.dev.pcie.linkUp = true → (s.dev.flag F.PCIE_STATUS_D3 = true → d3 = true) →
      Does (.configurationRequest d3 bm en mask) s fun t =>
        t.dev.flag F.PCIE_STATUS_D3 = d3 ∧ t.dev.flag F.PCIE_STATUS_MSIX_EN = en ∧ t.dev.pcie.busMaster = bm ∧
        t.dev.pcie.funcMask = mask ∧
        State.Frame (· = A.PCIE_STATUS) { s with dev := { s.dev with pcie.busMaster := bm, pcie.funcMask := mask } } t) ∧
    (∀ bm en mask : Bool, s.dev.pcie.linkUp = true → s.dev.flag F.PCIE_STATUS_D3 = true →
      Does (.configurationRequest false bm en mask) s fun t =>
        t.dev.flag F.PCIE_STATUS_D3 = false ∧ t.dev.flag F.PCIE_STATUS_MSIX_EN = false ∧ (∀ e ∈ t.dev.pcie.msix, e = {}) ∧
        (∀ r : RingId, t.dev.get (ringState (ringBank r)) = 2) ∧ t.dev.pcie.linkUp = true) ∧
    (∀ d3 bm en mask : Bool, s.dev.pcie.linkUp = false →
      Does (.configurationRequest d3 bm en mask) s fun t => State.Still (fun _ => False) s t) ∧
    (∀ ofs base size at' : Nat, s.dev.loaded = true → ofs < 2 ^ 26 →
      s.dev.region (s.dev.get F.BAR2_CTRL_TARGET) (s.dev.get F.BAR2_CTRL_LINK) = (base, size) →
      at' = s.dev.get64 A.BAR2_BASE / 4096 * 4096 + ofs →
      (∀ len : Nat, Does (.bar2Access ofs (.inr len) []) s fun t =>
        State.Frame (fun _ => False) { s with dev.out := .bar2Data ((List.range len).map fun i =>
          if size ≤ at' + i then 0 else s.ledger.get (base + at' + i)) :: s.dev.out } t) ∧
      (∀ bs : List Byte, s.dev.get F.BAR2_CTRL_TARGET = 0 → Does (.bar2Access ofs (.inl bs) []) s fun t =>
        (∀ (i : Nat) (x : Byte), at' + i < size → bs[i]? = some x → t.ledger.get (base + at' + i) = x) ∧
        (∀ a, a < base + at' ∨ base + at' + bs.length ≤ a ∨ base + size ≤ a → t.ledger.get a = s.ledger.get a) ∧
        State.Frame (fun _ => False) { s with ledger := t.ledger } t) ∧
      (∀ bs : List Byte, s.dev.get F.BAR2_CTRL_TARGET = 1 → Does (.bar2Access ofs (.inl bs) []) s fun t =>
        State.Still (fun _ => False) s t))

/-- NOP taken from the command ring finishes with code 0 and nothing else (R350); one with an illegal length or in a mode that does not run it finishes with the code of R353. HOST_TIME with a host slot and an instant that is known and not ahead gives the slot a sample of the time supplied with its uncertainty and code 0; with no such slot code 1 (R351). LEDGER_COPY inside its region finishes with the region's bytes, or stores the host's bytes there and no others; outside it with code 1, a write to a log region with code 2 (R352). COMMAND_COMPLETION with DMA allowed writes the first finished command's output length, status and a 1 into its descriptor, counts it, and an error; the head passes it once it is the oldest (R348). Where the spec leaves a point open the clauses follow the model's readings: HOST_TIME (log entry 66); Refused commands and their input (log entry 115). -/
def Obligations.RingCommandsRunAndComplete : Prop :=
  ∀ (s : State) (c : CmdRun), s.Safe → s.Shaped →
    (s.Takes 0 c → Does .nop s fun t => s.Took t c (some (0, [])) ∧
      State.Still (fun _ => False)
        { s with dev := { s.dev with pcie.cmds := t.dev.pcie.cmds, pcie.rings := t.dev.pcie.rings } } t) ∧
    (∀ code : Nat, s.dev.nextCmd s.host = some c → c.opcode = 0 → s.dev.unitBusy 0 = false → s.dev.md.coresDown = none →
      s.dev.cmdRefusal s.host c = some code → Does .nop s fun t => s.Took t c (some (code, [])) ∧
      State.Still (fun _ => False)
        { s with dev := { s.dev with pcie.cmds := t.dev.pcie.cmds, pcie.rings := t.dev.pcie.rings } } t) ∧
    (s.Takes 1 c →
      ((∀ i : Fin 12, s.dev.get (F.SLOT_CFG_TYPE i) ≠ 8) → Does .hostTime s fun t => s.Took t c (some (1, [])) ∧
        State.Still (fun _ => False)
          { s with dev := { s.dev with pcie.cmds := t.dev.pcie.cmds, pcie.rings := t.dev.pcie.rings } } t) ∧
      (∀ (i : Fin 12) (k inst : Nat), s.dev.get (F.SLOT_CFG_TYPE i) = 8 →
        (∀ j : Fin 12, j < i → s.dev.get (F.SLOT_CFG_TYPE j) ≠ 8) →
        k = (if s.dev.get (F.SLOT_RANK_RANK_A i) = 0 ∧ s.dev.get (F.SLOT_RANK_RANK_B i) ≠ 0 then 1 else 0) →
        inst = leAt c.input 0 8 * 65536 + leAt c.input 8 2 →
        (∀ p, (s.dev.scale k).journal.getLast? = some p → p.epoch * 65536 ≤ inst) → inst ≤ s.dev.raw * 65536 →
        leAt c.input 22 4 ≤ 999999999 → bit (leAt c.input 29 1) 0 = false → Does .hostTime s fun t =>
          s.Took t c (some (0, [])) ∧
          t.dev.src i = { ({ s.dev.src i with unc := leAt c.input 32 4 }).sample inst
            (joinTime (leAt c.input 16 6) (leAt c.input 22 4) (leAt c.input 26 2)) with heard := ticks16 s.dev.raw } ∧
          (∀ j : Fin 12, j ≠ i → t.dev.src j = s.dev.src j) ∧
          State.Still (Span 0x20100 0x300)
            { s with dev := { s.dev with refs := t.dev.refs, pcie.cmds := t.dev.pcie.cmds, pcie.rings := t.dev.pcie.rings } } t)) ∧
    (∀ (base size len ofs : Nat), s.Takes 2 c → s.dev.region (leAt c.input 0 1) (leAt c.input 1 1 % 16) = (base, size) →
      leAt c.input 1 1 < 16 → len = leAt c.input 4 4 → ofs = leAt c.input 8 8 →
      (leAt c.input 0 1 ≤ 1 → 0 < len → len ≤ 16777216 → ofs + len ≤ size → leAt c.input 2 1 = 0 → len ≤ c.outMax →
        Does (.ledgerCopy []) s fun t =>
          s.Took t c (some (0, s.ledger.read (base + ofs) len)) ∧ (∀ a, t.ledger.get a = s.ledger.get a)) ∧
      (leAt c.input 0 1 = 0 → 0 < len → len ≤ 16777216 → ofs + len ≤ size → leAt c.input 2 1 ≠ 0 →
        Does (.ledgerCopy []) s fun t =>
          s.Took t c (some (0, [])) ∧ t.ledger.read (base + ofs) len = s.host.read (leAt c.input 16 8) len ∧
          (∀ a, a < base + ofs ∨ base + ofs + len ≤ a → t.ledger.get a = s.ledger.get a)) ∧
      (1 < leAt c.input 0 1 ∨ len = 0 ∨ 16777216 < len ∨ size < ofs + len → Does (.ledgerCopy []) s fun t =>
        s.Took t c (some (1, [])) ∧ (∀ a, t.ledger.get a = s.ledger.get a)) ∧
      (leAt c.input 0 1 = 1 → 0 < len → len ≤ 16777216 → ofs + len ≤ size → leAt c.input 2 1 ≠ 0 →
        Does (.ledgerCopy []) s fun t => s.Took t c (some (2, [])) ∧ (∀ a, t.ledger.get a = s.ledger.get a))) ∧
    (∀ (rest : List CmdRun) (code : Nat) (out : List Byte), s.dev.nextCmd s.host = none → s.dev.dmaOk = true →
      s.dev.pcie.cmds = c :: rest → c.written = false → c.stale = false → c.result = some (code, out) →
      (∀ k ∈ rest, k.desc ≠ c.desc ∧ k.written = false) → s.dev.get (ringLog2 A.CMDR_BASE) ≤ 12 →
      Does .commandCompletion s fun t =>
        t.dev.pcie.cmds = rest ∧
        t.dev.get (ringHead A.CMDR_BASE) = (s.dev.get (ringHead A.CMDR_BASE) + 1) % s.dev.ringSize A.CMDR_BASE ∧
        t.dev.reg A.CMDR_FRAMES = s.dev.reg A.CMDR_FRAMES + 1 ∧
        t.dev.reg A.CMDR_NOBUF = s.dev.reg A.CMDR_NOBUF + (if code = 0 then 0 else 1) ∧
        ((∀ i < 7, ¬ s.dev.EventByte (c.desc + 24 + i)) →
          t.host.read (c.desc + 24) 7 = leBytes 4 out.length ++ leBytes 2 code ++ [1]) ∧
        (∀ a, ¬ s.dev.EventByte a → (a < c.outAddr ∨ c.outAddr + out.length ≤ a) → (a < c.desc + 24 ∨ c.desc + 31 ≤ a) →
          t.host.get a = s.host.get a) ∧
        (∀ a, t.ledger.get a = s.ledger.get a) ∧ t.dev.dies = s.dev.dies)

/-- NTS_ROT_GO with none pending and an epoch from 16,384 to 2^40 ticks ahead makes a rotation pending with code 0, else shows code 3, 1 or 2. NTS_ROT_CANCEL at least 16,384 ticks before ends it with code 4, else code 5, or 6 with none. NTS_KEY_ROTATION from the epoch on: with NEXT valid the PREVIOUS entry loses VALID and the roles rotate, and NTS_PREV_UNTIL is the epoch plus the overlap; else ROT_SKIP; DONE and the event follow, and the next epoch a period later, or none (R300); before the epoch nothing. NTS_KEY_WRITE of word 1 with no limit of the Position and no rotation due commits the entry with the KEY_ID that its requester staged, or is refused with 7, 8 or 9 and WRITE_ERR (R301). NTS_MINT returns the minting KEY_ID and cookies under it, and counts them (R303). Where the spec leaves a point open the clauses follow the model's readings: Order of refusals (log entry 14); Nonces (log entry 36); Random sources (log entry 113). -/
def Obligations.KeyringWrittenRotatedAndMinting : Prop :=
  ∀ (s : State) (e : Nat), s.Safe → s.Shaped → e = s.dev.get64 A.NTS_ROT_EPOCH →
    (Does .ntsRotGo s fun t =>
      t.dev.get F.NTS_STATUS_LAST_CODE = (if s.dev.flag F.NTS_STATUS_ROT_PENDING then 3 else if e < s.dev.raw + 16384 then 1
        else if s.dev.raw + 2 ^ 40 < e then 2 else 0) ∧
      t.dev.flag F.NTS_STATUS_ROT_PENDING = (s.dev.flag F.NTS_STATUS_ROT_PENDING ||
        decide (s.dev.raw + 16384 ≤ e ∧ e ≤ s.dev.raw + 2 ^ 40)) ∧ State.Still (· = A.NTS_STATUS) s t) ∧
    (Does .ntsRotCancel s fun t =>
      t.dev.get F.NTS_STATUS_LAST_CODE = (if s.dev.flag F.NTS_STATUS_ROT_PENDING = false then 6
        else if e < s.dev.raw + 16384 then 5 else 4) ∧
      t.dev.flag F.NTS_STATUS_ROT_PENDING = (s.dev.flag F.NTS_STATUS_ROT_PENDING && decide (e < s.dev.raw + 16384)) ∧
      State.Still (· = A.NTS_STATUS) s t) ∧
    (s.dev.flag F.NTS_STATUS_ROT_PENDING = true → e ≤ s.dev.raw → Does .ntsKeyRotation s fun t =>
      t.dev.flag F.NTS_STATUS_DONE = true ∧ t.dev.get (evStatus 38) = 1 ∧
      t.dev.flag F.NTS_STATUS_ROT_PENDING = decide (s.dev.get F.NTS_ROT_PERIOD_S ≠ 0) ∧
      t.dev.get64 A.NTS_ROT_EPOCH = (e + s.dev.get F.NTS_ROT_PERIOD_S * 800000000) % 2 ^ 64 ∧
      (s.dev.flag (F.NTS_KEY_1_VALID (s.dev.ntsHolder 2)) = true →
        t.dev.ntsHolder 0 = s.dev.ntsHolder 1 ∧ t.dev.ntsHolder 1 = s.dev.ntsHolder 2 ∧ t.dev.ntsHolder 2 = s.dev.ntsHolder 3 ∧
        t.dev.ntsHolder 3 = s.dev.ntsHolder 0 ∧ t.dev.flag (F.NTS_KEY_1_VALID (s.dev.ntsHolder 0)) = false ∧
        (∀ k : Fin 4, (k : Nat) ≠ s.dev.ntsHolder 0 → t.dev.reg (A.NTS_KEY_1 k) = s.dev.reg (A.NTS_KEY_1 k)) ∧
        t.dev.get64 A.NTS_PREV_UNTIL = (e + s.dev.get F.NTS_OVERLAP_S * 800000000) % 2 ^ 64) ∧
      (s.dev.flag (F.NTS_KEY_1_VALID (s.dev.ntsHolder 2)) = false →
        t.dev.flag F.NTS_STATUS_ROT_SKIP = true ∧ t.dev.reg A.NTS_ROLES = s.dev.reg A.NTS_ROLES ∧
        t.dev.get64 A.NTS_PREV_UNTIL = s.dev.get64 A.NTS_PREV_UNTIL) ∧
      State.Frame (fun a => Span 0x800 0x8 a ∨ Span A.NTS_ROT_EPOCH 0x10 a ∨ Span (A.NTS_KEY 0) 0x40 a ∨ Span (A.KS_SLOT 0) 64 a)
        { s with dev.hist := t.dev.hist } t) ∧
    ((s.dev.flag F.NTS_STATUS_ROT_PENDING = false ∨ s.dev.raw < e) →
      (Does .ntsKeyRotation s fun t => State.Still (fun _ => False) s t) ∧
      (∀ (q : Sys2Proof.Req) (k : Fin 4) (v id : Word) (code : Nat), s.dev.loaded = true → s.dev.onBus q = true →
        (∀ x ∈ s.dev.bus.arms, x.2.req ≠ q) → (∀ x ∈ s.dev.pos.limits, x.addr ≠ A.NTS_KEY k ∧ x.addr ≠ A.NTS_KEY_1 k) →
        id = ((s.dev.bus.staged.find? fun x => x.1 == (q, A.NTS_KEY k)).map (·.2)).getD (s.dev.reg (A.NTS_KEY k)) →
        code = (if bit v.toNat 8 = false then 0
          else if ∀ x, s.dev.keySlot (bits 3 0 v) = some x → ¬ (x.ty = 1 ∧ bit x.policy 3 = true) then 7
          else if ∃ j : Fin 4, j ≠ k ∧ s.dev.flag (F.NTS_KEY_1_VALID j) = true ∧ s.dev.reg (A.NTS_KEY j) = id then 8
          else if s.dev.flag (F.NTS_KEY_1_VALID k) = true ∧ s.dev.ntsRole k ≠ 3 then 9 else 0) →
        Does (.ntsKeyWrite q k v) s fun t =>
          t.dev.get F.NTS_STATUS_LAST_CODE = code ∧
          (code = 0 → t.dev.reg (A.NTS_KEY k) = id ∧ t.dev.get (F.NTS_KEY_1_SLOT k) = bits 3 0 v ∧
            t.dev.flag (F.NTS_KEY_1_VALID k) = bit v.toNat 8 ∧
            (bit v.toNat 8 = true → s.dev.flag (F.NTS_KEY_1_VALID k) = false → t.dev.reg (A.NTS_KEY_2 k) = 0)) ∧
          (code ≠ 0 → t.dev.flag F.NTS_STATUS_WRITE_ERR = true ∧ t.dev.reg (A.NTS_KEY k) = s.dev.reg (A.NTS_KEY k) ∧
            t.dev.reg (A.NTS_KEY_1 k) = s.dev.reg (A.NTS_KEY_1 k)) ∧
          State.Frame (fun a => a = A.NTS_STATUS ∨ Span (A.NTS_KEY k) 12 a ∨ Span (A.KS_SLOT 0) 64 a)
            { s with dev := { s.dev with hist := t.dev.hist, bus.staged := t.dev.bus.staged } } t) ∧
      (∀ (c : CmdRun) (n k id : Nat) (m : List Byte), s.Takes 0x40 c → beAt c.input 0 2 = 15 → n = leAt c.input 2 1 →
        1 ≤ n → n ≤ 8 → 8 + 104 * n ≤ c.outMax → s.dev.get F.BN_CTRL_STATE ≠ 2 → s.dev.ntsMints = some (k, id, m) →
        Does .ntsMint s fun t =>
          (∃ cookies, s.Took t c (some (0, beBytes 4 id ++ [byte n, 0, 0, 0] ++ cookies)) ∧
            cookies = (mintCookies id m (slice c.input 4 32) (slice c.input 36 32) n s.dev).1 ∧ cookies.length = 104 * n) ∧
          t.dev.reg (A.NTS_KEY_2 k) = s.dev.reg (A.NTS_KEY_2 k) + BitVec.ofNat 32 n ∧
          State.Still (· = A.NTS_KEY_2 k) (s.tookBy t) t))

/-- Each operation taken by the idle engine, its header legal, its slots inside the operand memory, its operands past the checks of R368 (private inputs from operand slots), comes after its duration (R367) to: MODADD, MODSUB, MODMUL and MODEXP the sum, difference, product and power modulo M; MODEXP_CRT the recombined power; MODINV the inverse, or NO_INVERSE (13) with zero; ECDSA_SIGN and ED25519_SIGN the signature; ECDSA_VERIFY and ED25519_VERIFY code 0 or 11; X25519 the shared value, or 15 with zero; PMUL the point; SHA the digest as output. An operand of zero, a modulus of one or an operand out of range of MODADD gives code 2, 3 or 4 with the result slot zero after 2 µs (R369). ABORT wipes and latches a re-enable. Where the spec leaves a point open the clauses follow the model's readings: Cryptography (log entry 9); Engine command checks (log entry 67); ECDSA digests (log entry 68). -/
def Obligations.BigNumberOperationsComputed : Prop :=
  ∀ (s : State) (c : CmdRun) (h : BnHdr) (cnt : Nat), s.Safe → s.Shaped → h = bnHdr c.input →
    cnt = slotCount (s.dev.get F.BN_CFG_SLOT_LEN) →
    (h.lenOk s.dev = true → h.sa < cnt → h.sb < cnt → h.sm < cnt → h.sr < cnt → ∀ a b m : Nat, a = s.dev.operand h.sa h.len →
      b = s.dev.operand h.sb h.len → m = s.dev.operand h.sm h.len →
      (a ≠ 0 → b ≠ 0 → m ≠ 1 → a < m → b < m →
        (s.BnIdle 0x20 c → Does .modadd s fun t => s.BnRuns t c { writes := [(h.sr, (a + b) % m)], dur := 4400 }) ∧
        (s.BnIdle 0x21 c → Does .modsub s fun t => s.BnRuns t c { writes := [(h.sr, (a + m - b) % m)], dur := 4400 }) ∧
        (s.BnIdle 0x22 c → m % 2 = 1 →
          Does .modmul s fun t => s.BnRuns t c { writes := [(h.sr, a * b % m)], dur := 4000 + tMul h.len })) ∧
      (s.BnIdle 0x20 c → ∀ code : Nat, code = (if a = 0 ∨ b = 0 ∨ m = 0 then 2 else if m = 1 then 3
          else if m ≤ a ∨ m ≤ b then 4 else 0) → code ≠ 0 →
        Does .modadd s fun t => s.BnRuns t c { code := code, writes := [(h.sr, 0)], dur := 1600 }) ∧
      (∀ n : Nat, s.BnIdle 0x23 c → 1 < a → 1 < b → a < m → m % 2 = 1 →
        n = (if h.secret then h.len + h.len / 4 + 16 else bitLen b + popCount 4096 b) →
        Does .modexp s fun t => s.BnRuns t c { writes := [(h.sr, a ^ b % m)], dur := 4000 + n * tMul h.len }) ∧
      (s.BnIdle 0x25 c → a ≠ 0 → m ≠ 1 → a < m → Does .modinv s fun t =>
        (Nat.gcd a m = 1 → ∃ x, x < m ∧ a * x % m = 1 ∧
          s.BnRuns t c { writes := [(h.sr, x)], dur := 4000 + h.len * 96 }) ∧
        (Nat.gcd a m ≠ 1 → s.BnRuns t c { code := 13, writes := [(h.sr, 0)], dur := 4000 + h.len * 96 }))) ∧
    (∀ dp dq qinv p q v m1 m2 dur : Nat, s.BnIdle 0x24 c → h.lenOk s.dev = true →
      (∀ i ∈ [h.sa, h.sa + 1, h.sb, h.sc, h.sm, h.sm + 1, h.sr], i < cnt) →
      [h.sa, h.sa + 1, h.sb, h.sm, h.sm + 1].map (s.dev.operand · (h.len / 2)) = [dp, dq, qinv, p, q] →
      v = s.dev.operand h.sc h.len → (∀ x ∈ [dp, dq, qinv, v, p, q], 1 < x) → dp < p → dq < q → qinv < p → v < p * q →
      p % 2 = 1 → q % 2 = 1 → m1 = v ^ dp % p → m2 = v ^ dq % q →
      dur = 4000 + (h.len + h.len / 4 + 32) * tMul (h.len / 2) + tMul (h.len / 2) + tMul h.len →
      Does .modexpCrt s fun t =>
        s.BnRuns t c { writes := [(h.sr, m2 + qinv * ((m1 + p - m2 % p) % p) % p * q)], dur := dur }) ∧
    (∀ (k : Curve) (big : Bool) (a b : Nat), big = decide (h.curve = 1) → k = (if big then p384 else p256) → h.curve < 2 →
      8 * k.size ≤ s.dev.slotLen → h.key = false → h.sa + 1 < cnt → h.sb + 1 < cnt → h.sr + 1 < cnt → h.sc + 1 < cnt →
      a = s.dev.operand h.sa (8 * k.size) → b = s.dev.operand h.sb (8 * k.size) →
      (s.BnIdle 0x26 c → 1 < a → a < k.n → Does .ecdsaSign s fun t =>
        ∃ x y, (x, y) = k.sign a b (beBytes 32 (Config.random s.dev.freeCtr)) ∧
          s.BnRuns t c { writes := [(h.sr, x), (h.sr + 1, y)], dur := if big then 1120000 else 480000 }) ∧
      (∀ y u w : Nat, y = s.dev.operand (h.sa + 1) (8 * k.size) → u = s.dev.operand h.sc (8 * k.size) →
        w = s.dev.operand (h.sc + 1) (8 * k.size) → s.BnIdle 0x27 c → 0 < u → u < k.n → 0 < w → w < k.n → a < k.p → y < k.p →
        k.on a y = true → ¬ (a = 0 ∧ y = 0) → Does .ecdsaVerify s fun t =>
          s.BnRuns t c { code := if k.verify (some (a, y)) b u w then 0 else 11, dur := if big then 1680000 else 720000 }) ∧
      (∀ y : Nat, y = s.dev.operand (h.sb + 1) (8 * k.size) → s.BnIdle 0x2B c → 1 < a → a < k.n → b < k.p → y < k.p →
        k.on b y = true → ¬ (b = 0 ∧ y = 0) → Does .pmul s fun t =>
          ∃ u w, (u, w) = (k.times a (some (b, y))).getD (0, 0) ∧
            s.BnRuns t c { writes := [(h.sr, u), (h.sr + 1, w)], dur := if big then 1040000 else 440000 })) ∧
    (∀ msg : List Byte, msg = c.input.drop 16 →
      (∀ seed sig : List Byte, s.BnIdle 0x28 c → h.key = false → h.sa < cnt → h.sr + 1 < cnt →
        seed = leBytes 32 (s.dev.operand h.sa 256) → s.dev.operand h.sa 256 ≠ 0 → sig = edSign seed msg →
        Does .ed25519Sign s fun t => s.BnRuns t c
          { writes := [(h.sr, leNat (sig.take 32)), (h.sr + 1, leNat (sig.drop 32))], dur := 280000 + msgTicks msg.length }) ∧
      (∀ (ab rb : List Byte) (a r : EdPt) (y : Nat), s.BnIdle 0x29 c → h.sa < cnt → h.sc + 1 < cnt →
        ab = leBytes 32 (s.dev.operand h.sa 256) → rb = leBytes 32 (s.dev.operand h.sc 256) →
        y = s.dev.operand (h.sc + 1) 256 → 0 < y → y < edL → edDecode ab = some a → edDecode rb = some r → a.same edZero = false →
        Does .ed25519Verify s fun t => s.BnRuns t c
          { code := if edVerify a r ab rb y msg then 0 else 11, dur := 640000 + msgTicks msg.length }) ∧
      (∀ (out : List Byte) (n : Nat), s.BnIdle 0x2C c → out = (if h.sha384 then sha384 msg else sha256 msg) →
        out.length ≤ c.outMax →
        n = (if h.sha384 then (msg.length + 17 + 127) / 128 * 200 else (msg.length + 9 + 63) / 64 * 160) →
        Does .sha s fun t => s.BnRuns t c { out := out, dur := 4000 + n })) ∧
    (∀ u x : Nat, s.BnIdle 0x2A c → h.key = false → h.sa < cnt → h.sb < cnt → h.sr < cnt → u = s.dev.operand h.sb 256 →
      1 < u → u < p25519 → s.dev.operand h.sa 256 ≠ 0 → x = Sys2Proof.Machine.x25519 (leBytes 32 (s.dev.operand h.sa 256)) u →
      Does .x25519 s fun t => s.BnRuns t c { code := if x = 0 then 15 else 0, writes := [(h.sr, x)], dur := 240000 })

/-- BIG_NUMBER_OPERATION_COMPLETE once the duration has passed, with no other command waiting: the result slots take their values, the command ends with the code and output, BUSY falls, DONE, LAST_CODE and the event follow (R369); a key made or imported is in its slot, an erased slot is empty, a session or challenge is held, a lock step counts in DEBUG_LOCK (R375, R376, R381). Before that time nothing changes. ABORT of a RUNNING engine ends every command of it with ABORTED (1), zeroes the operand memory and leaves the engine stopping with a re-enable latched (R373). WIPE_COMPLETE with nothing waiting stops it, or starts it where latched; BN_START_UP_COMPLETE runs it, or stops it anew where latched (R372, R48). An import session and a challenge expire after 60 s. Where the spec leaves a point open the clauses follow the model's readings: A stopped engine (log entry 72); Result slots of a disabled engine (log entry 173); Time of fuse and challenge commands (log entry 178). -/
def Obligations.BigNumberEngineCompletesAndWipes : Prop :=
  ∀ s : State, s.Safe → s.Shaped →
    (∀ j : BnJob, s.dev.bn = some j → j.due ≤ s.dev.raw → s.dev.get F.BN_CTRL_STATE = 0 →
      (∀ k ∈ s.dev.pcie.cmds, k.result = none → cmdUnit k.opcode = some 2 → k.desc = j.desc) →
      Does .bigNumberOperationComplete s fun t =>
        t.dev.bn = none ∧ t.dev.flag F.BN_OP_BUSY = false ∧ t.dev.flag F.BN_OP_DONE = true ∧
        t.dev.get F.BN_OP_LAST_CODE = j.code % 256 ∧ t.dev.get (evStatus 36) = 1 ∧
        (∀ k ∈ s.dev.pcie.cmds, k.desc = j.desc → k.result = none → k.stale = false →
          { k with result := some (j.code, j.out) } ∈ t.dev.pcie.cmds) ∧
        (∀ i x : Nat, j.writes = [(i, x)] → i < slotCount (s.dev.get F.BN_CFG_SLOT_LEN) → j.fx = .none →
          t.dev.operand i s.dev.slotLen = x % 2 ^ s.dev.slotLen) ∧
        (∀ (i : Fin 16) (k : KeySlot), j.fx = .put i k → t.dev.keySlot i = some k ∧
          (∀ m : Fin 16, m ≠ i → t.dev.keySlot m = s.dev.keySlot m)) ∧
        (∀ i : Fin 16, j.fx = .erase i → t.dev.keySlot i = none ∧ (∀ m : Fin 16, m ≠ i → t.dev.keySlot m = s.dev.keySlot m)) ∧
        (∀ id k, j.fx = .session id k → t.dev.keys.session = some (id, k, s.dev.raw)) ∧
        (∀ x, j.fx = .challenge x → t.dev.keys.challenge = some (x, s.dev.raw)) ∧
        (j.fx = .lock → t.dev.get F.FUSE_STATE_DEBUG_LOCK = (s.dev.get F.FUSE_STATE_DEBUG_LOCK + 1) % 4) ∧
        (j.fx = .none → j.writes = [] →
          State.Frame (· = A.BN_OP) { s with dev := { s.dev with bn := none, pcie.cmds := t.dev.pcie.cmds } } t)) ∧
    (∀ j : BnJob, s.dev.bn = some j → s.dev.raw < j.due →
      Does .bigNumberOperationComplete s fun t => State.Still (fun _ => False) s t) ∧
    (s.dev.bn = none → Does .bigNumberOperationComplete s fun t => State.Still (fun _ => False) s t) ∧
    (s.dev.loaded = true → s.dev.get F.BN_CTRL_STATE = 0 → Does .abort s fun t =>
      t.dev.get F.BN_CTRL_STATE = 1 ∧ t.dev.flag F.BN_CTRL_ENABLE = true ∧ t.dev.flag F.BN_CTRL_LATCHED = true ∧
      t.dev.bn = none ∧ t.dev.flag F.BN_OP_WIPING = true ∧ t.dev.flag F.BN_OP_BUSY = false ∧
      (∀ a, Span (A.BN_WINDOW 0) 0x8000 a → t.dev.reg a = 0) ∧
      (∀ k ∈ t.dev.pcie.cmds, cmdUnit k.opcode = some 2 → k.result ≠ none) ∧
      (∀ k ∈ s.dev.pcie.cmds, cmdUnit k.opcode = some 2 → k.result = none → k.stale = false →
        { k with result := some (1, []) } ∈ t.dev.pcie.cmds) ∧
      State.Frame (fun a => a = A.BN_CTRL ∨ a = A.BN_OP ∨ Span (A.BN_WINDOW 0) 0x8000 a)
        { s with dev := { s.dev with bn := none, pcie.cmds := t.dev.pcie.cmds } } t) ∧
    (s.dev.get F.BN_CTRL_STATE = 1 → (∀ k ∈ s.dev.pcie.cmds, k.result = none → cmdUnit k.opcode ≠ some 2) →
      Does .wipeComplete s fun t =>
        t.dev.get F.BN_CTRL_STATE = (if s.dev.flag F.BN_CTRL_LATCHED then 3 else 2) ∧ t.dev.flag F.BN_CTRL_LATCHED = false ∧
        t.dev.flag F.BN_OP_WIPING = false ∧ t.dev.get F.BN_OP_LAST_CODE = 1 ∧
        State.Still (fun a => a = A.BN_CTRL ∨ a = A.BN_OP) s t) ∧
    (s.dev.get F.BN_CTRL_STATE = 3 → s.dev.flag F.BN_CTRL_LATCHED = false →
      (∀ k ∈ s.dev.pcie.cmds, k.result = none → cmdUnit k.opcode ≠ some 2) → Does .bnStartUpComplete s fun t =>
        t.dev.get F.BN_CTRL_STATE = 0 ∧ State.Still (· = A.BN_CTRL) s t) ∧
    (s.dev.get F.BN_CTRL_STATE = 3 → s.dev.flag F.BN_CTRL_LATCHED = true → Does .bnStartUpComplete s fun t =>
      t.dev.get F.BN_CTRL_STATE = 1 ∧ t.dev.flag F.BN_CTRL_LATCHED = false ∧ t.dev.flag F.BN_OP_WIPING = true) ∧
    (∀ id k since, s.dev.keys.session = some (id, k, since) → since + 60 * 800000000 ≤ s.dev.raw →
      Does .importSessionExpiry s fun t => t = { s with dev.keys.session := none }) ∧
    (∀ x since, s.dev.keys.challenge = some (x, since) → since + 60 * 800000000 ≤ s.dev.raw →
      Does .challengeExpiry s fun t => t = { s with dev.keys.challenge := none }) ∧
    (∀ x since, s.dev.keys.challenge = some (x, since) → s.dev.raw < since + 60 * 800000000 →
      Does .challengeExpiry s fun t => t = s)

/-- KEY_GEN into an empty unused slot with a legal type and policy makes a key of that type whose public key is the output; into a filled one SLOT_BUSY (17). KEY_IMPORT_BEGIN opens a session with an id and a public key. KEY_IMPORT in that session of material that unseals and passes fills the slot and consumes the session; without it 18, unsealing failed 16 with an alert (R376). KEY_EXPORT needs EXPORT (10, or 8 for an empty slot) and answers the sealed record. KEY_ERASE empties a slot that no keyring entry uses, else 17. KEY_INFO gives type, policy and public key. ID_SIGN signs with the identity key unless debug is open (19). DEBUG_CHALLENGE draws 32 bytes; DEBUG_UNLOCK consumes the challenge and unlocks with a valid token, else 21. FUSE_PROG needs its magic (20) and no trial (22). TLS_SIGN signs with a key of the scheme's type and policy, else 8, 9 or 10. Where the spec leaves a point open the clauses follow the model's readings: Cryptography (log entry 9); Engine command checks (log entry 67); Key encodings (log entry 69); KEY_IMPORT (log entry 70); FUSE_PROG and DEBUG (log entry 71); Random sources (log entry 113). -/
def Obligations.KeyCommandsTaken : Prop :=
  ∀ (s : State) (c : CmdRun) (b : List Byte) (k ty pol : Nat), s.Safe → s.Shaped → b = c.input → 256 ≤ c.outMax →
    (s.BnIdle 0x30 c → k = leAt b 0 1 → ty = leAt b 1 1 → pol = leAt b 2 1 → k ≤ 15 → 1 ≤ ty → ty ≤ 5 →
      pol &&& allowedPolicy ty = pol → pol ≤ 63 → s.dev.ntsUses k = false →
      (s.dev.keySlot k = none → Does .keyGen s fun t => ∃ x : KeySlot, x.ty = ty ∧ x.policy = pol ∧ x.pub = pubOf ty x.material ∧
        x.material.length = matLen ty ∧ matOk ty x.material = true ∧
        s.BnRuns t c { out := x.pub, dur := if ty = 1 then 16000 else pubTicks ty, fx := .put k x }) ∧
      (s.dev.keySlot k ≠ none → Does .keyGen s fun t => s.BnRuns t c { code := 17, dur := 1600 })) ∧
    (s.BnIdle 0x31 c → Does .keyImportBegin s fun t => ∃ id x, id.length = 8 ∧ x.length = 32 ∧
      s.BnRuns t c { out := id ++ xPub x, dur := 240000, fx := .session id x }) ∧
    (s.BnIdle 0x32 c →
      (s.dev.keys.session = none → Does .keyImport s fun t => s.BnRuns t c { code := 18, dur := 1600 }) ∧
      (∀ (id x kek uh : List Byte) (since : Nat), s.dev.keys.session = some (id, x, since) → slice b 0 8 = id → k = leAt b 8 1 →
        ty = leAt b 9 1 → pol = leAt b 10 1 → s.dev.fillCode k ty pol = none → b.length = 60 + matLen ty → uh = slice b 12 32 →
        kek = importKek id (xPub x) uh (leBytes 32 (Sys2Proof.Machine.x25519 x (leNat uh))) →
        (∀ (m : List Byte) (y : KeySlot), sivOpen kek [slice b 8 3] (slice b 44 16) (b.drop 60) = some m → matOk ty m = true →
          y = { ty := ty, policy := pol, material := m, pub := pubOf ty m } →
          Does .keyImport s fun t => t.dev.keys.session = none ∧
            s.BnRuns t c { out := pubOf ty m, dur := 320000 + pubTicks ty, fx := .put k y }) ∧
        (sivOpen kek [slice b 8 3] (slice b 44 16) (b.drop 60) = none → Does .keyImport s fun t =>
          t.dev.keys.session = none ∧ s.BnRuns t c { code := 16, dur := 1600, fx := .alert }))) ∧
    (s.BnIdle 0x33 c → k = leAt b 0 1 → k ≤ 15 →
      (∀ x, s.dev.keySlot k = some x → bit x.policy 4 = true → x.material.length ≤ 48 → Does .keyExport s fun t => ∃ out,
        slice out 0 12 = slice b 4 8 ++ [byte k, byte x.ty, byte x.policy, 0] ∧ s.BnRuns t c { out := out, dur := 560000 }) ∧
      (∀ x, s.dev.keySlot k = some x → bit x.policy 4 = false →
        Does .keyExport s fun t => s.BnRuns t c { code := 10, dur := 1600 }) ∧
      (s.dev.keySlot k = none → Does .keyExport s fun t => s.BnRuns t c { code := 8, dur := 1600 })) ∧
    (s.BnIdle 0x34 c → k = leAt b 0 1 → k ≤ 15 → Does .keyErase s fun t =>
      s.BnRuns t c (if s.dev.ntsUses k then { code := 17, dur := 1600 } else { dur := 16000, fx := .erase k })) ∧
    (s.BnIdle 0x35 c → k = leAt b 0 1 → k ≤ 15 →
      (∀ x, s.dev.keySlot k = some x → x.pub.length ≤ 96 → Does .keyInfo s fun t =>
        s.BnRuns t c { out := [byte x.ty, byte x.policy, 0, 0] ++ x.pub, dur := 8000 }) ∧
      (s.dev.keySlot k = none → Does .keyInfo s fun t => s.BnRuns t c { out := [0, 0, 0, 0], dur := 8000 })) ∧
    (s.BnIdle 0x36 c →
      (s.dev.flag F.FUSE_STATE_DEBUG_OPEN = true → Does .idSign s fun t => s.BnRuns t c { code := 19, dur := 1600 }) ∧
      (∀ x y e : Nat, s.dev.flag F.FUSE_STATE_DEBUG_OPEN = false →
        e = beNat (sha384 ([0x55, 0x54, 0x34, 0x38, 0x37, 0x30, 0x2D, 0x49, 0x44] ++ b)) →
        (x, y) = p384.sign idScalar e (beBytes 32 (Config.random s.dev.freeCtr)) →
        Does .idSign s fun t => s.BnRuns t c { out := beBytes 48 x ++ beBytes 48 y, dur := 1120000 })) ∧
    (s.BnIdle 0x38 c → Does .debugChallenge s fun t => ∃ x, x = beBytes 32 (Config.random s.dev.freeCtr) ∧ ∃ w : Work,
      w.out = x ∧ w.fx = .challenge x ∧ w.code = 0 ∧ s.BnRuns t c w) ∧
    (s.BnIdle 0x39 c → Does .debugUnlock s fun t => t.dev.keys.challenge = none ∧ ∃ w : Work, s.BnRuns t c w ∧
      (s.dev.get F.FUSE_STATE_DEBUG_LOCK = 0 → s.dev.tokenHead b = true → w.code = 0 ∧ w.fx = .unlock (leAt b 84 4)) ∧
      (s.dev.get F.FUSE_STATE_DEBUG_LOCK = 1 → s.dev.priv 8 = true → s.dev.tokenHead b = true → s.dev.tokenSigned b = true →
        w.code = 0 ∧ w.fx = .unlock (leAt b 84 4)) ∧
      (s.dev.tokenHead b = false ∨ 2 ≤ s.dev.get F.FUSE_STATE_DEBUG_LOCK → w.code = 21 ∧ w.fx = .none)) ∧
    (s.BnIdle 0x3A c → Does .fuseProg s fun t => ∃ w : Work, s.BnRuns t c w ∧
      (s.dev.mode = .trial → w.code = 22 ∧ w.fx = .none) ∧
      (s.dev.mode ≠ .trial → slice b 4 4 ≠ [0x45, 0x53, 0x55, 0x46] → w.code = 20 ∧ w.fx = .none) ∧
      (s.dev.mode ≠ .trial → slice b 4 4 = [0x45, 0x53, 0x55, 0x46] → leAt b 0 1 = 1 → b.length = 8 →
        s.dev.get F.FUSE_STATE_DEBUG_LOCK < 2 → w.code = 0 ∧ w.fx = .lock) ∧
      (s.dev.mode ≠ .trial → slice b 4 4 = [0x45, 0x53, 0x55, 0x46] → leAt b 0 1 = 2 → b.length = 12 → leAt b 8 4 ≤ 256 →
        leAt b 8 4 ≤ (s.dev.reg A.IMAGE_GEN).toNat → s.dev.flag F.MODE_STATUS_ON_TRIAL = false →
        w.code = 0 ∧ w.fx = .minGen (leAt b 8 4))) ∧
    (∀ x : KeySlot, s.BnIdle 0x41 c → k = leAt b 0 1 → ty = leAt b 1 1 → k ≤ 15 → ty ≤ 2 → (b.drop 4).length = leAt b 2 2 →
      (s.dev.keySlot k = none → Does .tlsSign s fun t => s.BnRuns t c { code := 8, dur := 1600 }) ∧
      (s.dev.keySlot k = some x → x.ty ≠ 2 + ty → Does .tlsSign s fun t => s.BnRuns t c { code := 9, dur := 1600 }) ∧
      (s.dev.keySlot k = some x → x.ty = 2 + ty → bit x.policy 1 = false →
        Does .tlsSign s fun t => s.BnRuns t c { code := 10, dur := 1600 }) ∧
      (∀ sig, s.dev.keySlot k = some x → x.ty = 4 → ty = 2 → bit x.policy 1 = true → sig = edSign x.material (b.drop 4) →
        sig.length ≤ 64 → Does .tlsSign s fun t => s.BnRuns t c { out := sig, dur := 280000 }))

/-- UPD_OPEN completes with the code of the first row of R400 that applies; a refused one changes only LAST_CODE; code OK marks the inactive bank or slot STAGING in a new header and opens the session, HELD opens it and stores nothing; with FWD and the port up the OPEN is sent on (R398, R404). UPD_BLOCK stores a block whose CRC checks and whose index is inside the session and new, at its place in the target and nowhere else; else BAD_CRC or BAD_INDEX; a flash failure ends the session with FLASH_ERR; without a session NO_SESSION. UPD_CLOSE with blocks missing answers BAD_INDEX and the session stays; with a digest that agrees the target becomes SEALED with DOWNGRADE_OK as passed by privilege, else EMPTY with DIGEST_MISMATCH. UPD_ABORT empties the target. Opening and ending raise source 40. SET_READ gives the running image's value or default, or BAD_TAG; SET_WRITE of a one-byte value puts it in force for the running image alone (R408). Where the spec leaves a point open the clauses follow the model's readings: Update codes (log entry 74); Serial memory (log entry 77). -/
def Obligations.UpdateSessionsOfTheHost : Prop :=
  ∀ (s : State) (c : CmdRun) (b : List Byte) (h : BootHdr), s.Safe → s.Shaped → b = c.input → h = s.dev.hdr →
    (∀ (kind fwd id gen size code tgt : Nat) (dig : List Byte) (low : Bool) (u : Upd), s.Takes 0x50 c → kind = leAt b 0 1 →
      fwd = leAt b 1 1 → id = leAt b 4 4 → gen = leAt b 8 4 → size = leAt b 12 4 → dig = slice b 16 48 →
      (low = true ↔ s.dev.mode ≠ .safe ∧ gen < (if kind = 0 then (h.rec' 0 h.active).gen else (s.dev.reg A.POS_GEN).toNat)) →
      code = (if s.dev.upd ≠ none then 1 else if s.dev.flag F.MODE_STATUS_ON_TRIAL = true then 5
        else if 1 < kind ∨ size = 0 ∨ (if kind = 0 then 25165824 else 2097152) < size then 4
        else if kind = 0 ∧ gen < s.dev.get F.FUSE_STATE_MIN_GEN then 3
        else if low = true ∧ s.dev.priv (6 + kind) = false then 2
        else if ∃ k : Fin 2, (h.activeOf kind = k ∨ (h.rec' kind k).state = 2) ∧ (h.rec' kind k).digest = dig then 12 else 0) →
      tgt = 1 - h.activeOf kind →
      u = { source := 0, kind := kind, id := id, gen := gen, size := size, digest := dig, origin := selfId, seq := s.dev.ring.seq, target := tgt, dg := low, last := s.dev.raw } →
      (code ≠ 0 → code ≠ 12 → Does .updOpen s fun t => s.Took t c (some (code, [])) ∧
        t.dev.get F.UPD_SESSION_LAST_CODE = code ∧ State.Still (· = A.UPD_SESSION) (s.tookBy t) t) ∧
      (code = 0 → fwd = 0 → Does .updOpen s fun t => s.Took t c (some (0, [])) ∧ t.dev.upd = some u ∧
        s.dev.Header t.dev (h.setRec kind tgt { state := 1, gen := gen, id := id, size := size, digest := dig }) ∧
        t.dev.get F.UPD_SESSION_STATE = 1 ∧ t.dev.get F.UPD_SESSION_SOURCE = 0 ∧ t.dev.get F.UPD_SESSION_KIND = kind ∧
        t.dev.flag F.UPD_SESSION_HELD = false ∧ t.dev.get F.UPD_SESSION_BLOCKS = 0 ∧ t.dev.get F.UPD_SESSION_LAST_CODE = 0 ∧
        t.dev.get (evStatus 40) = 1 ∧ t.dev.ring = { s.dev.ring with seq := (s.dev.ring.seq + 1) % 2 ^ 32 } ∧
        State.Frame updReg { (s.tookBy t).updBy t with dev.ring := t.dev.ring } t) ∧
      (code = 12 → fwd = 0 → Does .updOpen s fun t => s.Took t c (some (12, [])) ∧ t.dev.upd = some { u with held := true } ∧
        t.dev.flag F.UPD_SESSION_HELD = true ∧ t.dev.get F.UPD_SESSION_STATE = 1 ∧ t.dev.get (evStatus 40) = 1 ∧
        t.dev.nv = s.dev.nv ∧ t.dev.ring = { s.dev.ring with seq := (s.dev.ring.seq + 1) % 2 ^ 32 } ∧
        State.Frame updReg { (s.tookBy t).updBy t with dev.ring := t.dev.ring } t) ∧
      (∀ p : Fin 2, code = 0 → (fwd = 1 ∧ p = 1 ∨ fwd = 2 ∧ p = 0) → s.dev.portUp p = true → Does .updOpen s fun t =>
        s.Took t c (some (0, [])) ∧ t.dev.upd = some { u with fwd := some { port := p, hops := 0 } } ∧
        t.dev.flag F.UPD_FWD_ACTIVE = true ∧ t.dev.get F.UPD_FWD_PORT = 2 - p ∧
        ∃ at', State.Frame updReg { ((s.tookBy t).updBy t).sent p at' { ty := 0x10, hops := 0, reply := false, origin := selfId, seq := s.dev.ring.seq, payload := [byte kind, 0, 0, 0] ++ beBytes 4 id ++ beBytes 4 gen ++ beBytes 4 size ++ dig } with dev.ring := t.dev.ring } t)) ∧
    (∀ (u : Upd) (i len base : Nat) (data : List Byte), s.Takes 0x51 c → s.dev.upd = some u → u.source = 0 → u.fwd = none →
      u.held = false → u.kind ≤ 1 → u.target ≤ 1 → i = leAt b 0 4 → data = b.drop 8 → len = min 65536 (u.size - 65536 * i) →
      base = (if u.kind = 0 then 0x1000000 + u.target * 0x1800000 else 0x20000 + u.target * 0x200000) + 65536 * i →
      (i < (u.size + 65535) / 65536 → data.length = len → crc32c data = leAt b 4 4 → i ∉ u.stored →
        (Does (.updBlock true) s fun t => s.Took t c (some (0, [])) ∧
          t.dev.upd = some { u with stored := u.stored ++ [i], last := s.dev.raw } ∧
          t.dev.get F.UPD_SESSION_BLOCKS = (u.stored.length + 1) % 512 ∧ t.dev.get F.UPD_SESSION_LAST_CODE = 0 ∧
          t.flash.read base len = data ∧ (∀ a, a < base ∨ base + len ≤ a → t.flash.get a = s.flash.get a) ∧
          State.Still updReg { (s.tookBy t).updBy t with flash := t.flash } t) ∧
        (Does (.updBlock false) s fun t => s.Took t c (some (10, [])) ∧ t.dev.upd = none ∧
          s.dev.Header t.dev (h.setRec u.kind u.target {}) ∧ t.dev.get F.UPD_SESSION_STATE = 0 ∧
          t.dev.get F.UPD_SESSION_LAST_CODE = 10 ∧ t.dev.get (evStatus 40) = 1 ∧
          State.Frame updReg ((s.tookBy t).updBy t) t)) ∧
      (∀ ok, i < (u.size + 65535) / 65536 → data.length = len → crc32c data ≠ leAt b 4 4 → Does (.updBlock ok) s fun t =>
        s.Took t c (some (6, [])) ∧ t.dev.get F.UPD_SESSION_LAST_CODE = 6 ∧ State.Still (· = A.UPD_SESSION) (s.tookBy t) t) ∧
      (∀ ok, (u.size + 65535) / 65536 ≤ i ∨ i ∈ u.stored ∧ data.length = len → crc32c data = leAt b 4 4 →
        Does (.updBlock ok) s fun t =>
          s.Took t c (some (7, [])) ∧ t.dev.get F.UPD_SESSION_LAST_CODE = 7 ∧
          State.Still (· = A.UPD_SESSION) (s.tookBy t) t)) ∧
    (∀ ok, s.Takes 0x51 c → s.dev.upd = none → Does (.updBlock ok) s fun t =>
      s.Took t c (some (8, [])) ∧ State.Still (fun _ => False) (s.tookBy t) t) ∧
    (∀ u : Upd, s.dev.upd = some u → u.source = 0 → u.fwd = none → u.held = false → u.kind ≤ 1 → u.target ≤ 1 →
      (s.Takes 0x52 c →
        (u.stored.length < (u.size + 65535) / 65536 → Does .updClose s fun t => s.Took t c (some (7, [])) ∧
          t.dev.get F.UPD_SESSION_LAST_CODE = 7 ∧ State.Still (· = A.UPD_SESSION) (s.tookBy t) t) ∧
        (∀ dig, (u.size + 65535) / 65536 ≤ u.stored.length →
          dig = sha384 (s.flash.read (if u.kind = 0 then 0x1000000 + u.target * 0x1800000 else 0x20000 + u.target * 0x200000) u.size) →
          Does .updClose s fun t => s.Took t c (some (if dig = u.digest then 0 else 9, [])) ∧ t.dev.upd = none ∧
            s.dev.Header t.dev (h.setRec u.kind u.target
              (if dig = u.digest then { h.rec' u.kind u.target with state := 2, dgOk := u.dg } else {})) ∧
            t.dev.get F.UPD_SESSION_STATE = 0 ∧ t.dev.get F.UPD_SESSION_LAST_CODE = (if dig = u.digest then 0 else 9) ∧
            t.dev.get (evStatus 40) = 1 ∧ State.Frame updReg ((s.tookBy t).updBy t) t)) ∧
      (s.Takes 0x53 c → Does .updAbort s fun t => s.Took t c (some (0, [])) ∧ t.dev.upd = none ∧
        s.dev.Header t.dev (h.setRec u.kind u.target {}) ∧ t.dev.get F.UPD_SESSION_STATE = 0 ∧
        t.dev.get F.UPD_SESSION_LAST_CODE = 11 ∧ t.dev.get (evStatus 40) = 1 ∧
        State.Frame updReg ((s.tookBy t).updBy t) t)) ∧
    (∀ tag : Nat, tag = leAt b 0 2 →
      (s.Takes 0x58 c → 1 ≤ c.outMax →
        ((tag = 1 ∨ tag = 2) → s.dev.setting tag 0 = none → Does .setRead s fun t =>
          s.Took t c (some (0, [if tag = 1 then 4 else 1])) ∧ State.Still (fun _ => False) (s.tookBy t) t) ∧
        (∀ v, tag ∈ [1, 2, 0x20, 0x21, 0x22] → s.dev.setting tag 0 = some v → v.length ≤ c.outMax → Does .setRead s fun t =>
          s.Took t c (some (0, v)) ∧ State.Still (fun _ => False) (s.tookBy t) t) ∧
        (tag ∉ [1, 2, 0x10, 0x20, 0x21, 0x22] → Does .setRead s fun t =>
          s.Took t c (some (17, [])) ∧ State.Still (fun _ => False) (s.tookBy t) t)) ∧
      (s.Takes 0x59 c →
        ((tag = 1 ∨ tag = 2) → b.length = 5 → Does .setWrite s fun t => s.Took t c (some (0, [])) ∧
          t.dev.setting tag 0 = some (b.drop 4) ∧ (∀ x y, (x, y) ≠ (tag, 0) → t.dev.setting x y = s.dev.setting x y) ∧
          t.dev.settings (1 - s.dev.imageBank) = s.dev.settings (1 - s.dev.imageBank) ∧
          State.Still (fun _ => False) { s.tookBy t with dev := { (s.tookBy t).dev with nv.sets := t.dev.nv.sets } } t) ∧
        (tag ∉ [1, 2, 0x10, 0x20, 0x21, 0x22] → Does .setWrite s fun t =>
          s.Took t c (some (17, [])) ∧ State.Still (fun _ => False) (s.tookBy t) t)))

/-- An UPD_OPEN message with this device's own ORIGIN is answered LOOPED; with a session open it is answered BUSY and source 44 is raised; HOPS = 15 with nothing that refuses it opens a session of its port that is not forwarded, with the target STAGING (R400 to R405). A one-part block of a ring session is stored and acknowledged; CLOSE with blocks missing is answered BAD_INDEX, with the digest agreeing the target is SEALED and OK is answered; UPD_ABORT, and 10 s without a message, end it with ABORTED and the target EMPTY; before that SESSION_TIMEOUT does nothing (R402). An UPD_REPLY that accepts the OPEN lets blocks be sent; one that refuses it ends the forwarding with its code, sets SPLIT and raises 44, and the local session continues; one to a block ends its wait (R404, R405). BLOCK_RETRY after a third try ends forwarding with TIMEOUT and SPLIT. CONFIRM, or the end of the trial time, marks every TRIAL bank and slot GOOD, clears ON_TRIAL, takes TRIAL to SERVE as a completed transition (DONE set, event Mode change raised) and raises 41; REJECT makes an internal reset due; with ON_TRIAL 0 either completes with NOT_ON_TRIAL (R407). Where the spec leaves a point open the clauses follow the model's readings: Update codes (log entry 74); Trials (log entry 75); A trial that becomes permanent (log entry 171). -/
def Obligations.UpdatesOnTheRingAndTrials : Prop :=
  ∀ (s : State) (c : CmdRun) (p : Fin 2) (f : List Byte) (m : Msg) (h : BootHdr), s.Safe → s.Shaped → h = s.dev.hdr →
    (s.Arrives p f 0x10 m → m.payload.length = 64 →
      (m.origin = selfId → Does (.updOpenMessage p f) s fun t => ∃ at',
        State.Frame (fun _ => False) ((s.updBy t).sent p at' (replyMsg m.origin m.seq 0x10 16 0)) t ∧
        t.dev.upd = s.dev.upd ∧ t.dev.nv = s.dev.nv) ∧
      (m.origin ≠ selfId → s.dev.upd ≠ none → Does (.updOpenMessage p f) s fun t => ∃ at',
        t.dev.get F.UPD_SESSION_LAST_CODE = 1 ∧ t.dev.get (evStatus 44) = 1 ∧ t.dev.upd = s.dev.upd ∧ t.dev.nv = s.dev.nv ∧
        State.Frame (· = A.UPD_SESSION) ((s.updBy t).sent p at' (replyMsg m.origin m.seq 0x10 1 0)) t) ∧
      (∀ (kind gen size : Nat) (dig : List Byte), m.origin ≠ selfId → s.dev.upd = none →
        s.dev.flag F.MODE_STATUS_ON_TRIAL = false → kind = beAt m.payload 0 1 → gen = beAt m.payload 8 4 →
        size = beAt m.payload 12 4 → dig = slice m.payload 16 48 → kind ≤ 1 → 0 < size →
        size ≤ (if kind = 0 then 25165824 else 2097152) → (kind = 0 → s.dev.get F.FUSE_STATE_MIN_GEN ≤ gen) →
        (if kind = 0 then (h.rec' 0 h.active).gen else (s.dev.reg A.POS_GEN).toNat) ≤ gen →
        (∀ k : Fin 2, (h.rec' kind k).digest ≠ dig) → m.hops = 15 → Does (.updOpenMessage p f) s fun t => ∃ at',
          t.dev.upd = some { source := p + 1, kind := kind, id := beAt m.payload 4 4, gen := gen, size := size, digest := dig, origin := m.origin, seq := m.seq, target := 1 - h.activeOf kind, last := s.dev.raw } ∧
          s.dev.Header t.dev (h.setRec kind (1 - h.activeOf kind)
            { state := 1, gen := gen, id := beAt m.payload 4 4, size := size, digest := dig }) ∧
          t.dev.get F.UPD_SESSION_SOURCE = p + 1 ∧ t.dev.get F.UPD_SESSION_STATE = 1 ∧ t.dev.get F.UPD_SESSION_LAST_CODE = 0 ∧
          t.dev.get (evStatus 40) = 1 ∧ State.Frame updReg ((s.updBy t).sent p at' (replyMsg m.origin m.seq 0x10 0 0)) t)) ∧
    (∀ u : Upd, s.dev.upd = some u → u.source = p + 1 → u.fwd = none → u.held = false → u.kind ≤ 1 → u.target ≤ 1 →
      (∀ (i base : Nat) (data : List Byte), s.Arrives p f 0x11 m → m.origin = u.origin → m.seq = u.seq →
        i = beAt m.payload 0 4 → data = m.payload.drop 12 → beAt m.payload 8 2 = 1 → 1 ≤ data.length → data.length ≤ 1024 →
        u.parts = [] → i < (u.size + 65535) / 65536 → data.length = min 65536 (u.size - 65536 * i) →
        crc32c data = beAt m.payload 4 4 → i ∉ u.stored →
        base = (if u.kind = 0 then 0x1000000 + u.target * 0x1800000 else 0x20000 + u.target * 0x200000) + 65536 * i →
        Does (.updData p f true) s fun t => ∃ at', t.dev.upd = some { u with stored := u.stored ++ [i], last := s.dev.raw } ∧
          t.flash.read base data.length = data ∧ (∀ a, a < base ∨ base + data.length ≤ a → t.flash.get a = s.flash.get a) ∧
          State.Frame updReg { (s.updBy t).sent p at' (replyMsg m.origin m.seq 0x11 0 i) with flash := t.flash } t) ∧
      (s.Arrives p f 0x12 m → m.origin = u.origin → m.seq = u.seq →
        (u.stored.length < (u.size + 65535) / 65536 → Does (.updCloseMessage p f) s fun t => ∃ at',
          t.dev.upd = some { u with last := s.dev.raw } ∧ t.dev.get F.UPD_SESSION_LAST_CODE = 7 ∧ t.dev.nv = s.dev.nv ∧
          State.Frame updReg ((s.updBy t).sent p at' (replyMsg m.origin m.seq 0x12 7 0)) t) ∧
        ((u.size + 65535) / 65536 ≤ u.stored.length → u.digest = sha384 (s.flash.read
            (if u.kind = 0 then 0x1000000 + u.target * 0x1800000 else 0x20000 + u.target * 0x200000) u.size) →
          Does (.updCloseMessage p f) s fun t => ∃ at', t.dev.upd = none ∧ t.dev.get F.UPD_SESSION_LAST_CODE = 0 ∧
            s.dev.Header t.dev (h.setRec u.kind u.target { h.rec' u.kind u.target with state := 2, dgOk := u.dg }) ∧
            t.dev.get (evStatus 40) = 1 ∧
            State.Frame updReg ((s.updBy t).sent p at' (replyMsg m.origin m.seq 0x12 0 0)) t)) ∧
      (s.Arrives p f 0x13 m → m.origin = u.origin → m.seq = u.seq → Does (.updAbortMessage p f) s fun t =>
        t.dev.upd = none ∧ s.dev.Header t.dev (h.setRec u.kind u.target {}) ∧ t.dev.get F.UPD_SESSION_LAST_CODE = 11 ∧
        t.dev.get (evStatus 40) = 1 ∧ State.Frame updReg (s.updBy t) t) ∧
      (u.last + 8000000000 ≤ s.dev.raw → Does .sessionTimeout s fun t =>
        t.dev.upd = none ∧ s.dev.Header t.dev (h.setRec u.kind u.target {}) ∧ t.dev.get F.UPD_SESSION_LAST_CODE = 11 ∧
        t.dev.get (evStatus 40) = 1 ∧ State.Frame updReg (s.updBy t) t) ∧
      (s.dev.raw < u.last + 8000000000 → Does .sessionTimeout s fun t => State.Still (fun _ => False) s t)) ∧
    (∀ (u : Upd) (w : Fwd), s.dev.upd = some u → u.fwd = some w → w.closing = false → u.held = false →
      (s.Arrives p f 0x14 m → w.port = p → m.origin = u.origin → m.seq = u.seq →
        (beAt m.payload 0 1 = 0x10 →
          (beAt m.payload 1 1 = 0 ∨ beAt m.payload 1 1 = 12 → w.queue = [] → Does (.updReply p f) s fun t =>
            t.dev.upd = some { u with fwd := some { w with opened := true } } ∧
            t.dev.get F.UPD_FWD_CODE = beAt m.payload 1 1 ∧ State.Frame updReg (s.updBy t) t) ∧
          (∀ code, code = beAt m.payload 1 1 → 1 ≤ code → code ≤ 15 → code ≠ 12 → Does (.updReply p f) s fun t =>
            t.dev.upd = some { u with fwd := none, keep := [] } ∧ t.dev.get F.UPD_FWD_CODE = code ∧
            t.dev.flag F.UPD_FWD_SPLIT = true ∧ t.dev.flag F.UPD_FWD_ACTIVE = false ∧ t.dev.get (evStatus 44) = 1 ∧
            State.Frame updReg (s.updBy t) t)) ∧
        (∀ i, beAt m.payload 0 1 = 0x11 → beAt m.payload 1 1 = 0 → i = beAt m.payload 4 4 → w.queue = [] →
          (∃ x ∈ w.sent, x.index = i) → Does (.updReply p f) s fun t =>
            t.dev.upd = some { u with keep := u.keep.filter (·.1 ≠ i), fwd := some { w with sent := w.sent.filter (·.index ≠ i), acked := w.acked ++ [i] } } ∧
            State.Frame updReg (s.updBy t) t)) ∧
      ((∃ x ∈ w.sent, x.at' + 1600000000 ≤ s.dev.raw ∧ 3 ≤ x.tries) → Does .blockRetry s fun t =>
        t.dev.upd = some { u with fwd := none, keep := [] } ∧ t.dev.get F.UPD_FWD_CODE = 15 ∧
        t.dev.flag F.UPD_FWD_SPLIT = true ∧ t.dev.get (evStatus 44) = 1 ∧ State.Frame updReg (s.updBy t) t)) ∧
    (∀ (cmd : Instr) (good : BankRec → BankRec), (∀ r, good r = if r.state = 3 then { r with state := 4 } else r) →
      s.dev.flag F.MODE_STATUS_ON_TRIAL = true →
      (cmd = .confirm ∧ s.Takes 0x54 c ∨
        cmd = .trialAutoConfirm ∧ s.dev.mode = .trial ∧ s.dev.get F.TRIAL_HOLD_S ≠ 0 ∧ s.dev.get F.TRIAL_REMAIN_S = 0) →
      Does cmd s fun t => (cmd = .confirm → s.Took t c (some (0, []))) ∧
        s.dev.Header t.dev { h with banks := h.banks.map good, slots := h.slots.map good } ∧
        t.dev.flag F.MODE_STATUS_ON_TRIAL = false ∧ t.dev.get F.TRIAL_REMAIN_S = 0 ∧
        (s.dev.mode = .trial → t.dev.mode = .serve ∧ t.dev.flag F.MODE_STATUS_DONE = true ∧ t.dev.get (evStatus 0) = 1 ∧
          (s.dev.md.run = none → t.dev.get F.MODE_STATUS_TARGET = Mode.serve.code)) ∧ (s.dev.mode ≠ .trial → t.dev.mode = s.dev.mode) ∧
        t.dev.get (evStatus 41) = 1 ∧
        State.Frame (fun a => Span (A.UPD_BANK_0 0) 0x40 a ∨ a = A.HDR_SEQ ∨ a = A.MODE_STATUS ∨ a = A.BOOT_STATUS ∨ a = A.POS_INFO ∨
          a = A.TRIAL_REMAIN) { s.tookBy t with dev := { (s.tookBy t).dev with nv.hdrs := t.dev.nv.hdrs } } t) ∧
    (s.Takes 0x55 c → s.dev.flag F.MODE_STATUS_ON_TRIAL = true → Does .reject s fun t => s.Took t c (some (0, [])) ∧
      State.Still (fun _ => False) { s.tookBy t with dev := { (s.tookBy t).dev with md.resetDue := true } } t) ∧
    (∀ cmd, (cmd = .confirm ∧ s.Takes 0x54 c ∨ cmd = .reject ∧ s.Takes 0x55 c) → s.dev.flag F.MODE_STATUS_ON_TRIAL = false →
      Does cmd s fun t => s.Took t c (some (13, [])) ∧ State.Still (fun _ => False) (s.tookBy t) t)

/-- RING_PORT_UP of an enabled port, powered and down, and RING_PORT_DOWN of one that is up change LINK_UP, set LINK_CHG and raise source 43; in LOAD the bypass opens with the second port up; the fall also drops the pairs taken and the slots' signal (R95, R385, R392). COMPARE_SEND at its raw tick sends a COMPARE with the offered scale's time of its launch, what was last received, and the state and steps; at another tick nothing (R389, R390). COMPARE of a peer that stays, pairing with an own frame in the memory of sent ones, puts 2θ first among the last 16 values, and GR_OFS and GR_DELAY show the mean and half the sum; fewer than 16 pairs give no sample (R391). RING_EVENT sends its payload or completes with RING_DOWN; an EVENT of another device is recorded with its origin and raw tick, or sets OVF, raises source 45 and is passed on below 15 hops; an own one ends (R387, R393). RING_QUERY sends its query or is refused with a code; a STATUS query of another device is passed on with this device's record; a SUMMARY query meant for it waits for its record; an own query that returns, its fourth part, or 50 ms end the command (R395). Where the spec leaves a point open the clauses follow the model's readings: COMPARE (log entry 76); Queries on the ring (log entry 86); Ring bypass at boot (log entry 170); Instant of a COMPARE (log entry 176). -/
def Obligations.RingNeighboursComparedEventsAndQueriesPassed : Prop :=
  ∀ (s : State) (c : CmdRun) (p : Fin 2) (f : List Byte) (m : Msg) (x : RPort), s.Safe → s.Shaped → x = s.dev.rport p →
    (s.dev.mode ≠ .bypass → s.dev.coarse = false → s.dev.flag (F.GR_PCFG_ENABLE p) = true →
      s.dev.flag (F.GR_PSTATUS_LINK_UP p) = false →
      Does (.ringPortUp p) s fun t => t.dev.flag (F.GR_PSTATUS_LINK_UP p) = true ∧ t.dev.flag (F.GR_PSTATUS_LINK_CHG p) = true ∧
        t.dev.get (evStatus 43) = 1 ∧ State.Frame (· = A.GR_PSTATUS p) { s with dev.ring.opened := s.dev.ring.opened ||
          (decide (s.dev.mode = .load) && s.dev.flag (F.GR_PSTATUS_LINK_UP (1 - (p : Nat)))) } t) ∧
    (s.dev.flag (F.GR_PSTATUS_LINK_UP p) = true → Does (.ringPortDown p) s fun t => t.dev.flag (F.GR_PSTATUS_LINK_UP p) = false ∧
      t.dev.flag (F.GR_PSTATUS_LINK_CHG p) = true ∧ t.dev.get (evStatus 43) = 1 ∧
      t.dev.flag (F.GR_PSTATUS_PEER_VALID p) = false ∧ t.dev.rport p = { x with thA := [], thB := [], pairs := 0, lastPair := none } ∧
      (∀ i : Fin 12, s.dev.get (F.SLOT_CFG_TYPE i) = 7 → s.dev.get (F.SLOT_CFG_BIND i) = p →
        t.dev.flag (F.SLOT_STATE_SIG_VALID i) = false ∧ t.dev.src i = { s.dev.src i with has := false, hist := [], ys := [], bad := 0 }) ∧
      (∀ i : Fin 12, s.dev.get (F.SLOT_CFG_TYPE i) ≠ 7 ∨ s.dev.get (F.SLOT_CFG_BIND i) ≠ p → t.dev.src i = s.dev.src i ∧
        t.dev.reg (A.SLOT_STATE i) = s.dev.reg (A.SLOT_STATE i)) ∧
      State.Frame (fun a => a = A.GR_PSTATUS p ∨ ∃ i : Fin 12, a = A.SLOT_STATE i)
        { s with dev := { s.dev with ring.ports := t.dev.ring.ports, refs.srcs := t.dev.refs.srcs } } t) ∧
    (∀ k a1 : Nat, s.dev.portUp p = true → s.dev.flag (F.GR_PCFG_CMP_EN p) = true → s.dev.mode ≠ .safe →
      k = (if s.dev.get (F.GR_PCFG_OFFER p) = 3 then 2 else s.dev.get (F.GR_PCFG_OFFER p)) → a1 = 65536 * s.dev.raw →
      (s.dev.raw % 800000 = p * 400000 → Does (.compareSend p) s fun t => ∃ pay : List Byte,
        slice pay 0 16 = s.dev.stampRecord k a1 ∧
        slice pay 16 20 = (match x.rx with | some (q, a2) => s.dev.stampRecord k a2 ++ beBytes 4 q | none => zeros 20) ∧
        slice pay 36 4 = beBytes 4 (min ((s.dev.boundOf k a1).getD 0xFFFFFFFF) 0xFFFFFFFF) ∧
        slice pay 40 1 = [byte (s.dev.selSt (s.dev.codeScale k a1))] ∧
        t.dev.rport p = { x with sent := ((s.dev.ring.seq, a1) :: x.sent).take 64, busy := (t.dev.rport p).busy } ∧
        t.dev.ring.seq = (s.dev.ring.seq + 1) % 2 ^ 32 ∧
        State.Frame (fun _ => False) { s.sent p s.dev.raw { ty := 1, hops := 0, reply := false, origin := selfId, seq := s.dev.ring.seq, payload := pay } with dev.ring := t.dev.ring } t) ∧
      (s.dev.raw % 800000 ≠ p * 400000 → Does (.compareSend p) s fun t => State.Still (fun _ => False) s t)) ∧
    (∀ (at16 b1 b2 : Nat) (x1 x2 ta1 ta2 a : Int) (l : List Int), s.Arrives p f 1 m → m.payload.length = 64 →
      (x.origin = none ∨ x.origin = some m.origin) → x.pairs < 15 →
      x.sent.find? (fun y => decide (y.1 = beAt m.payload 32 4)) = some (beAt m.payload 32 4, b1) →
      b2 = ((5 * (at16 : Int) - 4 * (40 * 65536 + toSigned 32 (s.dev.get (F.GR_RX_ASYM_ASYM p)))) / 5).toNat →
      s.dev.ts.time16 0 b1 = some x1 → s.dev.ts.time16 0 b2 = some x2 →
      ta1 = joinTime (leAt m.payload 0 6) (leAt m.payload 6 4) (leAt m.payload 10 2) →
      ta2 = joinTime (leAt m.payload 16 6) (leAt m.payload 22 4) (leAt m.payload 26 2) →
      a = (ta2 - x1) - (x2 - ta1) → l = (a :: x.thA).take 16 →
      Does (.compare p at16 f) s fun t => (t.dev.rport p).thA = l ∧ (t.dev.rport p).pairs = x.pairs + 1 ∧
        (t.dev.rport p).lastPair = some s.dev.raw ∧ (t.dev.rport p).rx = some (m.seq, b2) ∧
        t.dev.get64 (A.GR_OFS p) = ofSigned 64 (l.foldl (· + ·) 0 / (2 * (l.length : Int))) ∧
        t.dev.get64 (A.GR_DELAY p) = ofSigned 64 (((ta2 - x1) + (x2 - ta1)) / 2) ∧
        t.dev.get (F.GR_PSTATUS_PEER_STATE p) = beAt m.payload 40 1 % 8 ∧
        t.dev.get64 (A.GR_PEER_ID p) = leNat m.origin ∧ t.dev.flag (F.GR_PSTATUS_PEER_VALID p) = false ∧
        (∀ i : Fin 12, (t.dev.src i).hist = (s.dev.src i).hist) ∧
        State.Frame (fun a => a = A.GR_PSTATUS p ∨ Span (A.GR_PEER_ID p) 0x18 a)
          { s with dev := { s.dev with ring.ports := t.dev.ring.ports, refs.srcs := t.dev.refs.srcs } } t) ∧
    (s.Takes 0x57 c → (leAt c.input 0 1 = p → s.dev.portUp p = true → Does .ringEvent s fun t => s.Took t c (some (0, [])) ∧
        t.dev.ring.seq = (s.dev.ring.seq + 1) % 2 ^ 32 ∧ ∃ at', State.Frame (fun _ => False)
          { (s.tookBy t).sent p at' { ty := 2, hops := 0, reply := false, origin := selfId, seq := s.dev.ring.seq, payload := c.input.drop 4 } with dev.ring := t.dev.ring } t) ∧
      ((1 < leAt c.input 0 1 ∨ leAt c.input 0 1 = p ∧ s.dev.portUp p = false) → Does .ringEvent s fun t =>
        s.Took t c (some (14, [])) ∧ State.Still (fun _ => False) (s.tookBy t) t)) ∧
    (s.Arrives p f 2 m →
      (m.origin = selfId → Does (.event p f) s fun t => State.Frame (fun _ => False) s t) ∧
      (m.origin ≠ selfId → Does (.event p f) s fun t => t.dev.get (evStatus 45) = 1 ∧
        (s.dev.ring.evq.length < 32 → t.dev.ring.evq = s.dev.ring.evq ++ [m.origin ++ leBytes 8 s.dev.raw ++ slice m.payload 0 16] ∧
          t.dev.get F.GR_EVQ_STATUS_LEVEL = s.dev.ring.evq.length + 1) ∧
        (32 ≤ s.dev.ring.evq.length → t.dev.ring.evq = s.dev.ring.evq ∧ t.dev.flag F.GR_EVQ_STATUS_OVF = true) ∧
        (m.hops = 15 → State.Frame (· = A.GR_EVQ_STATUS) { s with dev.ring.evq := t.dev.ring.evq } t) ∧
        (m.hops < 15 → s.dev.portUp (1 - (p : Nat)) = true → ∃ at', State.Frame (· = A.GR_EVQ_STATUS)
          { s.sent (1 - (p : Nat)) at' { m with hops := m.hops + 1 } with dev.ring := t.dev.ring } t))) ∧
    (∀ kind tgt : Nat, s.Takes 0x56 c → kind = leAt c.input 0 1 → tgt = leAt c.input 2 1 →
      (1 < kind → Does .ringQuery s fun t => s.Took t c (some (4, [])) ∧ State.Still (fun _ => False) (s.tookBy t) t) ∧
      (kind = 1 → tgt = 0 ∨ 15 < tgt → Does .ringQuery s fun t =>
        s.Took t c (some (7, [])) ∧ State.Still (fun _ => False) (s.tookBy t) t) ∧
      (kind = 0 ∨ kind = 1 ∧ 1 ≤ tgt ∧ tgt ≤ 15 → leAt c.input 1 1 = p →
        (s.dev.portUp p = false → Does .ringQuery s fun t =>
          s.Took t c (some (14, [])) ∧ State.Still (fun _ => False) (s.tookBy t) t) ∧
        (s.dev.portUp p = true → Does .ringQuery s fun t => s.Took t c none ∧
          t.dev.ring.query = some { desc := c.desc, kind := kind, seq := s.dev.ring.seq, since := s.dev.raw } ∧
          t.dev.ring.seq = (s.dev.ring.seq + 1) % 2 ^ 32 ∧ ∃ at', State.Frame (fun _ => False)
            { (s.tookBy t).sent p at' { ty := 4, hops := 0, reply := false, origin := selfId, seq := s.dev.ring.seq, payload := [byte kind, byte tgt, 0, 0] } with dev.ring := t.dev.ring } t))) ∧
    (s.Arrives p f 4 m → 4 ≤ m.payload.length → m.origin ≠ selfId →
      (∀ (h : BootHdr) (r sl : List Byte), beAt m.payload 0 1 = 0 → m.hops < 15 → s.dev.portUp (1 - (p : Nat)) = true →
        h = s.dev.hdr → (h.rec' 0 0).state ≠ 2 ∧ (h.rec' 0 1).state ≠ 2 ∧ sl = zeros 8 ∨
          (h.rec' 0 0).state ≠ 2 ∧ (h.rec' 0 1).state = 2 ∧ sl = slice (h.rec' 0 1).digest 0 8 ∨
          (h.rec' 0 0).state = 2 ∧ sl = slice (h.rec' 0 0).digest 0 8 →
        r = selfId ++ [byte (s.dev.get F.MODE_STATUS_MODE),
          byte (s.dev.get F.MODE_STATUS_ON_TRIAL + (if s.dev.mode = .safe then 2 else 0) + 4 * s.dev.get F.BOOT_STATUS_IMAGE_BANK),
          byte ((s.dev.reg A.UPD_SESSION).toNat % 16), byte (s.dev.get F.UPD_SESSION_LAST_CODE)] ++
          beBytes 4 (h.rec' 0 h.active).gen ++ slice (h.rec' 0 h.active).digest 0 8 ++ sl →
        Does (.query p f) s fun t => ∃ at', State.Frame (fun _ => False)
          { s.sent (1 - (p : Nat)) at' { m with hops := m.hops + 1, payload := m.payload ++ r } with dev.ring.ports := t.dev.ring.ports } t) ∧
      (beAt m.payload 0 1 = 1 → m.hops + 1 = beAt m.payload 1 1 → Does (.query p f) s fun t =>
        State.Frame (fun _ => False) { s with dev.ring.sums := s.dev.ring.sums ++
          [{ port := p, origin := m.origin, seq := m.seq, hops := m.hops, s := s.dev.raw + 16384 }] } t)) ∧
    (∀ q : RingQ, s.dev.ring.query = some q →
      (∀ (cmd : Instr) (code : Nat) (rs : List (List Byte)),
        (cmd = .query p f ∧ s.Arrives p f 4 m ∧ 4 ≤ m.payload.length ∧ m.origin = selfId ∧ q.seq = m.seq ∧ q.kind = 0 ∧
            beAt m.payload 0 1 = 0 ∧ code = 0 ∧ rs = [m.payload.drop 4] ∨
          cmd = .queryReply p f ∧ s.Arrives p f 5 m ∧ 4 ≤ m.payload.length ∧ m.origin = selfId ∧ q.seq = m.seq ∧ q.kind = 1 ∧
            beAt m.payload 0 1 = 1 ∧ q.recs.length = 3 ∧ code = 0 ∧ rs = q.recs ++ [m.payload.drop 4] ∨
          cmd = .queryTimeout ∧ q.since + 40000000 ≤ s.dev.raw ∧ code = 15 ∧ rs = q.recs) →
        Does cmd s fun t => t.dev.ring.query = none ∧
          (∀ k ∈ s.dev.pcie.cmds, k.desc = q.desc → k.result = none → k.stale = false →
            { k with result := some (code, rs.flatten) } ∈ t.dev.pcie.cmds) ∧
          (∀ k ∈ s.dev.pcie.cmds, k.desc ≠ q.desc → k ∈ t.dev.pcie.cmds) ∧
          State.Frame (fun _ => False) { s with dev := { s.dev with ring.query := none, pcie.cmds := t.dev.pcie.cmds } } t) ∧
      (s.Arrives p f 5 m → 4 ≤ m.payload.length → m.origin = selfId → q.seq = m.seq → q.kind = 1 → beAt m.payload 0 1 = 1 →
        q.recs.length < 3 → Does (.queryReply p f) s fun t => State.Frame (fun _ => False)
          { s with dev.ring.query := some { q with recs := q.recs ++ [m.payload.drop 4] } } t) ∧
      (s.dev.raw < q.since + 40000000 → Does .queryTimeout s fun t => State.Still (fun _ => False) s t)) ∧
    (s.Arrives p f 5 m → 4 ≤ m.payload.length → m.origin ≠ selfId → m.hops < 15 → s.dev.portUp (1 - (p : Nat)) = true →
      Does (.queryReply p f) s fun t => ∃ at', State.Frame (fun _ => False)
        { s.sent (1 - (p : Nat)) at' { m with hops := m.hops + 1 } with dev.ring.ports := t.dev.ring.ports } t)

/-- SUMMARY_GO with none being taken, DMA allowed and LOAD complete makes S the raw count plus 16,384 and keeps the address; else its code says BUSY, NO_DMA or NOT_READY and nothing is taken (R424). SUMMARY_LATCH from S on makes the record: magic, layout 1, SOURCE, its number in SUMMARY_SEQ and a CRC-32C at its end, for the host, the SMBus buffer, or the oldest ring query (R425), of the values a tick held at S if one did; before S nothing. SUMMARY_WRITTEN puts the record's bytes at the address, sets DONE, clears BUSY and raises source 3; a DMA failure gives DMA_ERR and no DONE. Outside BYPASS the SMBus target answers ID 0x4870, MODE, SEL, TEMP (0x8000 for a die without power), SUM_STATE and SUM_READ little-endian with a PEC byte after; SUM_READ gives 32 bytes at SUM_PTR, which advances by 32 and wraps; SUM_TAKE, SUM_PTR and RESET_REQ act on the values of R360 alone, and a bad PEC is not acknowledged and changes nothing. SMBUS_TIMEOUT releases the lines. That every PEC byte is CRC-8 is the model's choice and not stated here. Where the spec leaves a point open the clauses follow the model's readings: Temperatures (log entry 83); SMBus (log entry 84); Instant of a summary (log entry 159). -/
def Obligations.SummariesTakenAndManagementBusAnswers : Prop :=
  ∀ s : State, s.Safe → s.Shaped →
    (∀ code : Nat, code = (if s.dev.sums.host ≠ none then 1 else if s.dev.pcie.perstN = false ∨ s.dev.dmaOk = false then 2
        else if s.dev.mode = .bypass ∨ s.dev.mode = .load then 3 else 0) →
      Does .summaryGo s fun t => t.dev.get F.SUMMARY_STATUS_LAST_CODE = code ∧
        (code = 0 → t.dev.flag F.SUMMARY_STATUS_BUSY = true ∧
          t.dev.sums = { s.dev.sums with host := some { s := s.dev.raw + 16384, addr := s.dev.get64 A.SUMMARY_ADDR / 64 * 64 } }) ∧
        (code ≠ 0 → t.dev.sums = s.dev.sums) ∧
        State.Still (· = A.SUMMARY_STATUS) { s with dev.sums := t.dev.sums } t) ∧
    (∀ (src : Fin 3) (n : Nat), n = (s.dev.sums.taken + 1) % 2 ^ 32 →
      (∀ r, src = 0 → s.dev.sums.host = some r → r.data = none → r.s ≤ s.dev.raw → Does (.summaryLatch src) s fun t => ∃ b : List Byte,
        t.dev.sums = { s.dev.sums with host := some { r with data := some b }, taken := n } ∧
        (r.image = none → slice b 0 12 = [0x55, 0x54, 0x53, 0x52, 1, 0, 0, 0] ++ leBytes 4 n) ∧
        (∀ im, r.image = some im → b = sumFinish im n) ∧ b.drop (b.length - 4) = leBytes 4 (crc32c (b.take (b.length - 4))) ∧
        t.dev.get F.SUMMARY_SEQ_SEQ = n ∧
        State.Still (fun a => a = A.SUMMARY_SEQ ∨ a = A.UTC_STATUS ∨ a = A.E_NOW 0 ∨ a = A.E_NOW 1) { s with dev.sums := t.dev.sums } t) ∧
      (∀ r, src = 1 → s.dev.md.coresDown = none → s.dev.sums.smb = some r → r.s ≤ s.dev.raw →
        Does (.summaryLatch src) s fun t => ∃ b : List Byte,
          t.dev.sums = { s.dev.sums with smb := none, smbBuf := some b, taken := n } ∧
          (r.image = none → slice b 0 12 = [0x55, 0x54, 0x53, 0x52, 1, 0, 1, 0] ++ leBytes 4 n) ∧
          (∀ im, r.image = some im → b = sumFinish im n) ∧ t.dev.get F.SUMMARY_SEQ_SEQ = n ∧
          State.Still (fun a => a = A.SUMMARY_SEQ ∨ a = A.UTC_STATUS ∨ a = A.E_NOW 0 ∨ a = A.E_NOW 1) { s with dev.sums := t.dev.sums } t) ∧
      (∀ q rest, src = 2 → s.dev.md.coresDown = none → s.dev.ring.sums = q :: rest → q.s ≤ s.dev.raw →
        Does (.summaryLatch src) s fun t => ∃ b : List Byte,
          t.dev.sums = { s.dev.sums with ringBuf := some b, taken := n } ∧ t.dev.ring.sums = rest ∧
          (q.image = none → slice b 0 12 = [0x55, 0x54, 0x53, 0x52, 1, 0, 2, 0] ++ leBytes 4 n) ∧
          (∀ im, q.image = some im → b = sumFinish im n) ∧
          (q.port < 2 → s.dev.portUp q.port = true → ∀ k : Fin 4, ∃ at', .ringFrame q.port at' ({ ty := 5, hops := 0, reply := true, origin := q.origin, seq := q.seq, payload := [1, byte k, 4, 0] ++ (b.drop (1024 * k)).take 1024 } : Msg).bytes ∈ t.dev.out) ∧
          State.Frame (fun a => a = A.SUMMARY_SEQ ∨ a = A.UTC_STATUS ∨ a = A.E_NOW 0 ∨ a = A.E_NOW 1)
            { s with dev := { s.dev with sums := t.dev.sums, ring := t.dev.ring, out := t.dev.out } } t) ∧
      ((src = 0 ∧ (∀ r, s.dev.sums.host = some r → r.data ≠ none ∨ s.dev.raw < r.s) ∨
          src = 1 ∧ (∀ r, s.dev.sums.smb = some r → s.dev.raw < r.s) ∨
          src = 2 ∧ (∀ q rest, s.dev.ring.sums = q :: rest → s.dev.raw < q.s)) →
        Does (.summaryLatch src) s fun t => State.Still (fun _ => False) s t)) ∧
    (∀ r b, s.dev.sums.host = some r → r.data = some b →
      (s.dev.dmaOk = true → Does (.summaryWritten false) s fun t => t.dev.flag F.SUMMARY_STATUS_DONE = true ∧
        t.dev.flag F.SUMMARY_STATUS_BUSY = false ∧ t.dev.get (evStatus 3) = 1 ∧
        (∀ i x, b[i]? = some x → ¬ s.dev.EventByte (r.addr + i) → t.host.get (r.addr + i) = x) ∧
        (∀ a, (a < r.addr ∨ r.addr + b.length ≤ a) → ¬ s.dev.EventByte a → t.host.get a = s.host.get a) ∧
        State.Frame (· = A.SUMMARY_STATUS) { s with dev.sums.host := none, host := t.host } t) ∧
      (Does (.summaryWritten true) s fun t => t.dev.get F.SUMMARY_STATUS_LAST_CODE = 4 ∧
        t.dev.flag F.SUMMARY_STATUS_BUSY = false ∧ t.dev.flag F.SUMMARY_STATUS_DONE = s.dev.flag F.SUMMARY_STATUS_DONE ∧
        State.Still (· = A.SUMMARY_STATUS) { s with dev.sums.host := none } t)) ∧
    (s.dev.mode ≠ .bypass →
      (∀ (cmd : Instr) (data : List Byte),
        (cmd = .smbusId ∧ data = [0x70, 0x48] ∨ cmd = .smbusMode ∧ data = leBytes 2 ((s.dev.reg A.MODE_STATUS).toNat % 1024) ∨
          cmd = .smbusSel ∧ data = [byte (s.dev.selSt 0 + 16 * s.dev.selSt 1), byte (s.dev.ts.servedAt (65536 * s.dev.raw))] ∨
          cmd = .sumState ∧ data = [if s.dev.sums.smb ≠ none then 1 else if s.dev.sums.smbBuf ≠ none then 2 else 0] ∨
          (∃ (k : Fin 7) (v : Int), cmd = .temp k v ∧ data = [0x00, 0x80] ∧
            (1 ≤ k.val ∧ k.val ≤ 4 ∧ s.dev.diePowered (k.val - 1) = false ∨
              5 ≤ k.val ∧ (s.dev.mode = .standby ∨ s.dev.mode = .safe)))) →
        Does cmd s fun t => ∃ pec, State.Still (fun _ => False) { s with dev.out := .smbus (some (data ++ [pec])) :: s.dev.out } t) ∧
      (∀ (k : Fin 7) (v : Int), (1 ≤ k.val → k.val ≤ 4 → s.dev.diePowered (k.val - 1) = true) →
        (5 ≤ k.val → s.dev.mode ≠ .standby ∧ s.dev.mode ≠ .safe) →
        Does (.temp k v) s fun t => t.dev.temps.getD k 0 = v ∧ (∀ j : Fin 7, j ≠ k → t.dev.temps.getD j 0 = s.dev.temps.getD j 0) ∧
          ∃ pec, State.Still (fun _ => False) { s with dev := { s.dev with temps := t.dev.temps, out := .smbus (some (leBytes 2 (ofSigned 16 v) ++ [pec])) :: s.dev.out } } t) ∧
      (Does .sumRead s fun t => ∃ pec, State.Still (fun _ => False)
        { s with dev := { s.dev with sums.smbPtr := (if 4064 ≤ s.dev.sums.smbPtr then 0 else s.dev.sums.smbPtr + 32), out := .smbus (some (32 :: slice (s.dev.sums.smbBuf.getD []) s.dev.sums.smbPtr 32 ++ [pec])) :: s.dev.out } } t) ∧
      (∀ v : Nat,
        (s.dev.sums.smb = none → Does (.sumTake false) s fun t => State.Still (fun _ => False)
          { s with dev := { s.dev with sums.smb := some { s := s.dev.raw + 16384 }, sums.smbBuf := none, out := .smbus (some []) :: s.dev.out } } t) ∧
        (s.dev.sums.smb ≠ none → Does (.sumTake false) s fun t =>
          State.Still (fun _ => False) { s with dev.out := .smbus (some []) :: s.dev.out } t) ∧
        (Does (.sumPtr v false) s fun t => State.Still (fun _ => False)
          { s with dev := { s.dev with sums.smbPtr := (if v % 32 = 0 ∧ v ≤ 4064 then v else s.dev.sums.smbPtr), out := .smbus (some []) :: s.dev.out } } t) ∧
        (Does (.resetReq v false) s fun t => (v = 0xA55A → bit (t.dev.reg A.RESET_CAUSE).toNat 3 = true) ∧
          State.Still (fun a => v = 0xA55A ∧ a = A.RESET_CAUSE)
            { s with dev := { s.dev with md.resetDue := (s.dev.md.resetDue || decide (v = 0xA55A)), out := .smbus (some []) :: s.dev.out } } t) ∧
        (∀ cmd, cmd ∈ [.sumTake true, .sumPtr v true, .resetReq v true] → Does cmd s fun t =>
          State.Still (fun _ => False) { s with dev.out := .smbus none :: s.dev.out } t))) ∧
    (Does .smbusTimeout s fun t => State.Still (fun _ => False) { s with dev.out := .smbus none :: s.dev.out } t)

/-- STAT_SNAP_GO in service is decided in the order BUSY, TOO_SOON, TOO_FAR, NOT_READY, then the ring rule; accepted it is pending, and ring-wide its message leaves with SEQ, scale and time (R246 to R248, R394). STAT_SNAP_CANCEL drops it 16,384 ticks ahead, else code 6, or 8 with none. SNAPSHOT_LATCH from its tick on, unless the tick has done so, copies the counters of every powered die, of the keeper and of the rings at one instant, the live ones staying, and shows LATCHING; SNAPSHOT_COMPLETE then shows S and SEQ, sets DONE and raises source 2. A SNAPSHOT of another device is decided as its own host's request is and passed on, MISSED if its time is past, also where one waits. EU_SUBMIT is refused BUSY, TOO_SOON or TOO_FAR or starts its check (R68); EU_CHECK_COMPLETE makes a batch of fit entries with no limits pending, and refuses fit entries of another length with 12, an unmapped first register with 9 and its index, a patch with a bad signature with 5 and with another base with 6 (R66, R67, R74); EU_CANCEL ends what is pending in time. EPOCH_UPDATE_APPLY from the epoch on, shown for a batch and a patch of a slot's wait-to-restore, writes the value and shows APPLIED; before it nothing changes (R70). Where the spec leaves a point open the clauses follow the model's readings: Snapshots (log entry 85); Position sections (log entry 90); Epoch updates (log entry 91); Instant of a snapshot (log entry 158). -/
def Obligations.SnapshotsAndEpochUpdates : Prop :=
  ∀ (s : State) (p : Fin 2) (f : List Byte) (m : Msg) (i : Fin 12), s.Safe → s.Shaped →
    (∀ (r : StatRun) (at' k code : Nat) (tick : Nat), s.dev.loaded = true → at' = s.dev.get F.STAT_SNAP_CTRL_AT_TIME →
      k = s.dev.get F.STAT_SNAP_CTRL_SCALE →
      r = { scale := if at' = 1 ∧ k ≠ 3 then some k else none, value := if at' = 0 then s.dev.raw + 16384 else if k = 3 then s.dev.get64 A.STAT_SNAP_RAW else s.dev.getTime A.STAT_SNAP_TIME, seq := ((s.dev.reg A.STAT_SNAP_SEQ).toNat + 1) % 2 ^ 32 } →
      tick = (if at' = 0 then s.dev.raw + 16384 else if k = 3 then s.dev.get64 A.STAT_SNAP_RAW else s.dev.reachTick k r.value) →
      code = (if s.dev.statRun ≠ none then 1 else if tick < s.dev.raw + 16384 then 2 else if s.dev.raw + 2 ^ 40 < tick then 3
        else if at' = 1 ∧ k ≠ 3 ∧ s.dev.codeInit k = false then 4
        else if s.dev.flag F.STAT_SNAP_CTRL_RING = true ∧ k = 3 then 7 else 0) →
      (code ≠ 0 ∨ s.dev.flag F.STAT_SNAP_CTRL_RING = false → Does .statSnapGo s fun t =>
        t.dev.get F.STAT_SNAP_STATUS_LAST_CODE = code ∧
        t.dev.flag F.STAT_SNAP_STATUS_PENDING = (s.dev.flag F.STAT_SNAP_STATUS_PENDING || decide (code = 0)) ∧
        State.Still (· = A.STAT_SNAP_STATUS) { s with dev.statRun := if code = 0 then some r else s.dev.statRun } t) ∧
      (∀ o : Fin 2, code = 0 → s.dev.flag F.STAT_SNAP_CTRL_RING = true → at' = 1 → s.dev.portUp o = true →
        (o = 1 ∨ s.dev.portUp 1 = false) → Does .statSnapGo s fun t =>
          t.dev.get F.STAT_SNAP_STATUS_LAST_CODE = 0 ∧ t.dev.statRun = some r ∧ t.dev.flag F.STAT_SNAP_STATUS_PENDING = true ∧
          t.dev.ring.seq = (s.dev.ring.seq + 1) % 2 ^ 32 ∧ ∃ w, State.Frame (· = A.STAT_SNAP_STATUS)
            (State.sent { s with dev := { s.dev with statRun := some r, ring := t.dev.ring } } o w
              { ty := 3, hops := 0, reply := false, origin := selfId, seq := s.dev.ring.seq, payload := beBytes 4 r.seq ++ [byte k, 0, 0, 0] ++ timeRecord r.value k 0 }) t)) ∧
    (s.dev.loaded = true →
      (s.dev.statRun = none → Does .statSnapCancel s fun t => t.dev.get F.STAT_SNAP_STATUS_LAST_CODE = 8 ∧
        State.Still (· = A.STAT_SNAP_STATUS) s t) ∧
      (∀ r, s.dev.statRun = some r → r.latched ≠ none ∨ s.dev.snapTick r < s.dev.raw + 16384 → Does .statSnapCancel s fun t =>
        t.dev.get F.STAT_SNAP_STATUS_LAST_CODE = 6 ∧ State.Still (· = A.STAT_SNAP_STATUS) s t) ∧
      (∀ r, s.dev.statRun = some r → r.latched = none → s.dev.raw + 16384 ≤ s.dev.snapTick r → Does .statSnapCancel s fun t =>
        t.dev.get F.STAT_SNAP_STATUS_LAST_CODE = 5 ∧ t.dev.flag F.STAT_SNAP_STATUS_PENDING = false ∧
        State.Still (· = A.STAT_SNAP_STATUS) { s with dev.statRun := none } t)) ∧
    (∀ r tick, s.dev.statRun = some r → r.latched = some tick → s.dev.flag F.STAT_SNAP_STATUS_PENDING = true →
      Does .snapshotLatch s fun t => t.dev.flag F.STAT_SNAP_STATUS_PENDING = false ∧
        t.dev.flag F.STAT_SNAP_STATUS_LATCHING = true ∧ State.Still (· = A.STAT_SNAP_STATUS) s t) ∧
    (∀ r, s.dev.statRun = some r → r.latched = none → r.scale = none →
      (r.value ≤ s.dev.raw → s.dev.flag F.STAT_SNAP_STATUS_PENDING = true → Does .snapshotLatch s fun t =>
        t.dev.flag F.STAT_SNAP_STATUS_PENDING = false ∧ t.dev.flag F.STAT_SNAP_STATUS_LATCHING = true ∧
        (∀ n : Fin 4, s.dev.diePowered n = true →
          (∀ (l : Fin 4) (o : Nat), o < 0x200 → t.dev.reg (A.STAT_LIVE n l 0 + 0x200 + o) = s.dev.reg (A.STAT_LIVE n l 0 + o)) ∧
          (∀ o : Nat, o < 0x4000 → t.dev.reg (A.CTX_CNT n 0 0 + 0x4000 + o) = s.dev.reg (A.CTX_CNT n 0 0 + o)) ∧
          (∀ k : Fin 8, t.dev.get64 (A.D_CNT_SNAP n k) = s.dev.get64 (A.D_CNT n k)) ∧
          t.dev.get64 (A.D_CYCLE_SNAP n) = s.dev.get64 (A.D_CYCLE n)) ∧
        (∀ k : Fin 4, t.dev.get64 (A.K_CNT_SNAP k) = s.dev.get64 (A.K_CNT k)) ∧
        t.dev.get64 A.K_CYCLE_SNAP = s.dev.get64 A.K_CYCLE ∧
        t.dev.ringSnap = s.dev.bus.regs.filter (fun x => ringCounter x.1) ∧
        State.Still (fun a => a = A.STAT_SNAP_STATUS ∨ Span A.K_CYCLE_SNAP 8 a ∨ (∃ k : Fin 4, Span (A.K_CNT_SNAP k) 8 a) ∨
            ∃ n : Fin 4, s.dev.diePowered n = true ∧ ((∃ l : Fin 4, Span (A.STAT_LIVE n l 0 + 0x200) 0x200 a) ∨
              Span (A.CTX_CNT n 0 0 + 0x4000) 0x4000 a ∨ (∃ k : Fin 8, Span (A.D_CNT_SNAP n k) 8 a) ∨ Span (A.D_CYCLE_SNAP n) 8 a))
          { s with dev := { s.dev with statRun := some { r with latched := some r.value.toNat }, ringSnap := t.dev.ringSnap } } t) ∧
      (s.dev.raw < r.value → Does .snapshotLatch s fun t => State.Still (fun _ => False) s t)) ∧
    (∀ r tick, s.dev.statRun = some r → r.latched = some tick → s.dev.flag F.STAT_SNAP_STATUS_LATCHING = true →
      Does .snapshotComplete s fun t =>
      t.dev.flag F.STAT_SNAP_STATUS_DONE = true ∧ t.dev.flag F.STAT_SNAP_STATUS_LATCHING = false ∧
      t.dev.reg A.STAT_SNAP_SEQ = BitVec.ofNat 32 r.seq ∧ t.dev.get (evStatus 2) = 1 ∧
      (∀ n : Fin 4, s.dev.diePowered n = true → t.dev.reg (A.STAT_SNAP_INFO n) = BitVec.ofNat 32 r.seq ∧
        t.dev.get64 (A.STAT_SNAP_S n) = tick % 2 ^ 64) ∧
      State.Frame (fun a => a = A.STAT_SNAP_STATUS ∨ a = A.STAT_SNAP_SEQ ∨ ∃ n : Fin 4, s.dev.diePowered n = true ∧
        (a = A.STAT_SNAP_INFO n ∨ Span (A.STAT_SNAP_S n) 8 a)) { s with dev.statRun := none } t) ∧
    (∀ (k : Nat) (v : Int), s.Arrives p f 3 m → m.payload.length = 24 → k = beAt m.payload 4 1 → k ≤ 2 → m.origin ≠ selfId →
      s.dev.loaded = true → v = joinTime (leAt m.payload 8 6) (leAt m.payload 14 4) (leAt m.payload 18 2) →
      (∀ code, code = (if s.dev.statRun ≠ none then 1 else if s.dev.reachTick k v < s.dev.raw + 16384 then 2
            else if s.dev.raw + 2 ^ 40 < s.dev.reachTick k v then 3 else if s.dev.codeInit k = false then 4 else 0) →
        (s.dev.statRun ≠ none ∨ s.dev.reached k v = false) →
        (m.hops = 15 ∨ m.hops < 15 ∧ s.dev.portUp (1 - (p : Nat)) = true) →
        Does (.snapshot p f) s fun t => t.dev.get F.STAT_SNAP_STATUS_LAST_CODE = code ∧
          t.dev.flag F.STAT_SNAP_STATUS_MISSED = (s.dev.flag F.STAT_SNAP_STATUS_MISSED || s.dev.reached k v) ∧
          (code = 0 → t.dev.flag F.STAT_SNAP_STATUS_PENDING = true ∧
            t.dev.statRun = some { scale := some k, value := v, seq := beAt m.payload 0 4 }) ∧
          (code ≠ 0 → t.dev.statRun = s.dev.statRun) ∧
          (m.hops = 15 → State.Frame (· = A.STAT_SNAP_STATUS) { s with dev.statRun := t.dev.statRun } t) ∧
          (m.hops < 15 → ∃ w, State.Frame (· = A.STAT_SNAP_STATUS)
            (State.sent { s with dev := { s.dev with statRun := t.dev.statRun, ring.ports := t.dev.ring.ports } } (1 - (p : Nat)) w
              { m with hops := m.hops + 1 }) t)) ∧
      (s.dev.statRun = none → s.dev.reached k v = true → m.hops = 15 → Does (.snapshot p f) s fun t =>
        t.dev.flag F.STAT_SNAP_STATUS_MISSED = true ∧ State.Frame (· = A.STAT_SNAP_STATUS) s t)) ∧
    (∀ k e code : Nat, k = s.dev.get F.EU_CTRL_KIND → e = s.dev.get64 A.EU_EPOCH →
      code = (if s.dev.eu.epoch k ≠ none ∨ s.dev.eu.req k ≠ none then 4 else if e < s.dev.raw + 16384 then 2
        else if s.dev.raw + 2 ^ 40 < e then 3 else 0) →
      (code ≠ 0 → Does .euSubmit s fun t => t.dev.get F.EU_STATUS_LAST_CODE = code ∧ t.dev.flag F.EU_STATUS_DONE = true ∧
        t.dev.get (evStatus 1) = 1 ∧ State.Frame (· = A.EU_STATUS) s t) ∧
      (code = 0 → Does .euSubmit s fun t => t.dev.get (if k = 0 then F.EU_STATUS_PATCH_STATE else F.EU_STATUS_BATCH_STATE) = 1 ∧
        t.dev.eu.req k = some { addr := s.dev.get64 A.EU_ADDR / 64 * 64, len := s.dev.get F.EU_LEN_LEN, epoch := e } ∧
        t.dev.eu.req (1 - k) = s.dev.eu.req (1 - k) ∧ t.dev.eu.patch = s.dev.eu.patch ∧ t.dev.eu.batch = s.dev.eu.batch ∧
        State.Still (· = A.EU_STATUS) { s with dev.eu := t.dev.eu } t) ∧
      (∀ x, s.dev.eu.epoch k = some x →
        (x < s.dev.raw + 16384 → Does .euCancel s fun t => t.dev.get F.EU_STATUS_LAST_CODE = 11 ∧
          t.dev.get (evStatus 1) = 1 ∧ State.Frame (· = A.EU_STATUS) s t) ∧
        (s.dev.raw + 16384 ≤ x → Does .euCancel s fun t => t.dev.get F.EU_STATUS_LAST_CODE = 1 ∧ t.dev.eu.epoch k = none ∧
          t.dev.eu.epoch (1 - k) = s.dev.eu.epoch (1 - k) ∧ t.dev.flag F.EU_STATUS_DONE = true ∧ t.dev.get (evStatus 1) = 1 ∧
          t.dev.get (if k = 0 then F.EU_STATUS_PATCH_STATE else F.EU_STATUS_BATCH_STATE) = 0 ∧
          State.Frame (· = A.EU_STATUS) { s with dev.eu := t.dev.eu } t)) ∧
      (s.dev.eu.epoch k = none → Does .euCancel s fun t => t.dev.get F.EU_STATUS_LAST_CODE = 13 ∧
        t.dev.get (evStatus 1) = 1 ∧ State.Frame (· = A.EU_STATUS) s t)) ∧
    (∀ (kind : Fin 2) (r : EuReq) (b : List Byte) (es : List (Nat × Word)), s.dev.eu.req kind = some r → s.dev.dmaOk = true →
      b = s.host.read r.addr r.len →
      es = (List.range (b.length / 8)).map (fun j => (leAt b (8 * j) 4, BitVec.ofNat 32 (leAt b (8 * j + 4) 4))) →
      (∀ code : Nat, (kind = 1 ∧ (r.len % 8 ≠ 0 ∨ r.len < 8 ∨ 8192 < r.len) ∧ s.dev.pos.limits = [] ∧ s.dev.eu.patch = none ∧
            (∀ x ∈ es, ∃ h, lookup x.1 = some h ∧ h.row.sched = true ∧ h.row.writable = true ∧ x.1 % 4 = 0 ∧ h.row.gwords = 1) ∧
            code = 12 ∨
          kind = 0 ∧ s.dev.posSigned b = false ∧ code = 5 ∨
          kind = 0 ∧ s.dev.posSigned b = true ∧ slice b 0x20 48 ≠ s.dev.pos.digest ∧ code = 6) →
        Does (.euCheckComplete kind) s fun t => t.dev.get F.EU_STATUS_LAST_CODE = code ∧ t.dev.flag F.EU_STATUS_DONE = true ∧
          t.dev.eu = s.dev.eu.setReq kind none ∧ t.dev.get (evStatus 1) = 1 ∧
          State.Frame (· = A.EU_STATUS) { s with dev.eu := t.dev.eu } t) ∧
      (kind = 1 → r.len % 8 = 0 → 8 ≤ r.len → r.len ≤ 8192 → s.dev.pos.limits = [] → s.dev.eu.patch = none →
        ((∀ x ∈ es, ∃ h, lookup x.1 = some h ∧ h.row.sched = true ∧ h.row.writable = true ∧ x.1 % 4 = 0 ∧ h.row.gwords = 1) →
          Does (.euCheckComplete kind) s fun t => t.dev.get F.EU_STATUS_LAST_CODE = 0 ∧ t.dev.flag F.EU_STATUS_DONE = true ∧
            t.dev.get F.EU_STATUS_BATCH_STATE = 2 ∧ t.dev.get (evStatus 1) = 1 ∧
            State.Frame (· = A.EU_STATUS) { s with dev := { s.dev with eu.batchReq := none, eu.batch := some (r.epoch, es) } } t) ∧
        ((∃ x, es[0]? = some x ∧ lookup x.1 = none) → Does (.euCheckComplete kind) s fun t =>
          t.dev.get F.EU_STATUS_LAST_CODE = 9 ∧ t.dev.get F.EU_STATUS_BAD_ENTRY = 0 ∧ t.dev.get F.EU_STATUS_BATCH_STATE = 0 ∧
          t.dev.get (evStatus 1) = 1 ∧ State.Frame (· = A.EU_STATUS) { s with dev.eu.batchReq := none } t))) ∧
    (s.dev.batches = [] →
      (∀ (e : Nat) (w : Word), s.dev.eu.patch = none → s.dev.eu.batch = some (e, [(A.SLOT_WTR i, w)]) → e ≤ s.dev.raw →
        w.toNat % 4096 ≤ 3600 → s.dev.pos.limits = [] → Does .epochUpdateApply s fun t =>
          t.dev.get (F.SLOT_WTR_S i) = w.toNat % 4096 ∧ t.dev.get F.EU_STATUS_BATCH_STATE = 3 ∧
          State.Frame (fun a => a = A.EU_STATUS ∨ a = A.SLOT_WTR i)
            { s with dev := { s.dev with eu.batch := none, hist := t.dev.hist } } t) ∧
      (∀ (x : Patch) (w : Word), s.dev.eu.batch = none → s.dev.eu.patch = some x → x.epoch ≤ s.dev.raw →
        x.regs = [(A.SLOT_WTR i, w)] → Does .epochUpdateApply s fun t =>
          t.dev.reg (A.SLOT_WTR i) = w ∧ t.dev.get F.EU_STATUS_PATCH_STATE = 3 ∧ t.dev.get F.POS_ID_ID = x.id % 2 ^ 32 ∧
          t.dev.get F.POS_INFO_PATCH_SEQ = min (s.dev.get F.POS_INFO_PATCH_SEQ + 1) 255 ∧
          (x.fallback = none → t.dev.dies = s.dev.dies) ∧
          t.dev.pos.fallback = x.fallback.getD s.dev.pos.fallback ∧ t.dev.pos.limits = x.limits.getD s.dev.pos.limits ∧
          State.Frame (fun a => a = A.EU_STATUS ∨ a = A.SLOT_WTR i ∨ a = A.POS_ID ∨ a = A.POS_INFO)
            { s with dev := { s.dev with eu.patch := none, hist := t.dev.hist, pos := t.dev.pos, dies := t.dev.dies, bus.shadow := t.dev.bus.shadow } } t) ∧
      ((∀ k e, s.dev.eu.epoch k = some e → s.dev.raw < e) → Does .epochUpdateApply s fun t => State.Still (fun _ => False) s t))

/-- With answer die n powered: losing a forwarded clock pair while the other is present makes the replica count from the one that is left, which REPLICA_STATUS.CLK_ALT shows, and disturbs nothing: the raw count, the replica's alignment, residual, delay and slew and every other part of the die stay as they were. Losing the second pair too is a fault with code 0x21 on that die that forces its reset: the fault opens with the requests lost, and the die starts again with an unloaded replica (or stays parked after a third reset within 60 s), while the other dies go on. -/
def Obligations.ClockPairLossResetsOnBoth : Prop :=
  ∀ (s : State) (n : Fin 4) (p : Fin 2), s.Safe → s.Shaped → s.dev.dieSt n ≠ 2 →
    ((s.dev.die n).pairsLost = 0 → Does (.clockPairLoss n p) s fun t =>
      t.dev.flag (F.REPLICA_STATUS_CLK_ALT n) = decide (p = 0) ∧
      (∀ b, b ≠ 2 → t.dev.flag ⟨A.REPLICA_STATUS n, b, b⟩ = s.dev.flag ⟨A.REPLICA_STATUS n, b, b⟩) ∧
      t.dev.die n = { s.dev.die n with pairsLost := 2 ^ (p : Nat) } ∧ (∀ m : Fin 4, m ≠ n → t.dev.die m = s.dev.die m) ∧
      State.Still (· = A.REPLICA_STATUS n) { s with dev.dies := t.dev.dies } t) ∧
    ((s.dev.die n).pairsLost = 2 ^ (1 - (p : Nat)) → Does (.clockPairLoss n p) s fun t => s.DieReset t n 0x21 p)

/-- SYNC_WORD_SEND at a multiple of 8,192 ticks sends a powered die the master count with its fraction and the mean forward delay of the last 64 echoes, else nothing; MARKER_ECHO adds (RTT - ECHO_TURN + LINK_ASYM)/2 (R23, R24). SYNC_WORD_RECEIVE loads an unloaded replica with count plus delay, no residual, and ends WITHHOLD; later it slews the replica by one unit toward that sum and counts words beyond and within 20 ps; beyond 200 ps admitted requests are dropped, WITHHOLD is set and the die is reset, code 0x22 (R25 to R27). SYNC_WORD_MISS counts a miss 8,192 ticks after the last. ALIGN_LOST after 4 bad words clears ALIGNED, sets ALIGN_LOST, opens fault 0x04; ALIGNED after 4 good ones undoes it. LANE_FAILURE with the spare free takes it, names the lane, raises its source and opens fault 0x02; with the spare in use it forces a reset, of the die (0x20) or of the device (0x33); LANE_REMAP_COMPLETE ends the remap (R22). DIE_TRANSITION_COMPLETE stops a drained die, whose registers fall to reset but for the log, or starts an aligned one with both PLLs locked, its library, empty tables and the published sets (R29, R90, R416). UNCORRECTABLE_ERROR and LEDGER_DIE_LOSS force the resets of R422; a die that was stopping, with no unpark latched, is stopped by it (the model's choice, log entry 122). Where the spec leaves a point open the clauses follow the model's readings: Replica sync (log entry 78); Ledger-link remap (log entry 79); Parked dies (log entry 80); A forced reset of a die that is STOPPING (log entry 122); Instants of the sync words (log entry 123); Filtered forward delay (log entry 124); Residual of the replica (log entry 125); Completions inside boot (log entry 153). -/
def Obligations.ReplicasAndDieLinksKept : Prop :=
  ∀ (s : State) (n : Fin 4) (x : Die), s.Safe → s.Shaped → x = s.dev.die n →
    (s.dev.dieSt n ≠ 2 → s.dev.raw % 8192 = 0 → Does (.syncWordSend n) s fun t =>
      t.dev.die n = { x with sync := some (65536 * s.dev.raw + s.dev.clk.frac, if x.fwds = [] then 0 else x.fwds.foldl (· + ·) 0 / (x.fwds.length : Int)) } ∧
      (∀ m : Fin 4, m ≠ n → t.dev.die m = s.dev.die m) ∧ State.Still (fun _ => False) { s with dev.dies := t.dev.dies } t) ∧
    ((s.dev.dieSt n = 2 ∨ s.dev.raw % 8192 ≠ 0) → Does (.syncWordSend n) s fun t => State.Still (fun _ => False) s t) ∧
    (∀ rtt : Nat, s.dev.dieSt n ≠ 2 → Does (.markerEcho n rtt) s fun t =>
      t.dev.die n = { x with fwds := (((rtt : Int) - (s.dev.reg (A.FUSE_LINKCAL n)).toNat + toSigned 32 (s.dev.reg (A.FUSE_LINKCAL_1 n)).toNat) / 2 :: x.fwds).take 64 } ∧
      (∀ m : Fin 4, m ≠ n → t.dev.die m = s.dev.die m) ∧ State.Still (fun _ => False) { s with dev.dies := t.dev.dies } t) ∧
    (∀ (mk : Nat) (f r u : Int), s.dev.dieSt n ≠ 2 → x.sync = some (mk, f) →
      (x.replica = none → r = mk + f ∧ u = 0) →
      (∀ q m0, x.replica = some (q, m0) → ∀ y : Int, y = q + ((mk : Int) - m0) →
        r = (if y < mk + f then y + 1 else if mk + f < y then y - 1 else y) ∧ u = r - (mk + f)) →
      (u.natAbs * 1250 ≤ 200 * 65536 → Does (.syncWordReceive n) s fun t =>
        t.dev.die n = { x with sync := none, lastSync := s.dev.raw, replica := some (r, mk), badSync := if 20 * 65536 < u.natAbs * 1250 then x.badSync + 1 else 0, goodSync := if 20 * 65536 < u.natAbs * 1250 then 0 else x.goodSync + 1 } ∧
        t.dev.reg (A.REPLICA_DELAY n) = BitVec.ofInt 32 f ∧ t.dev.reg (A.REPLICA_RESID n) = BitVec.ofInt 32 u ∧
        t.dev.flag (F.REPLICA_STATUS_SLEWING n) = decide (u ≠ 0) ∧ t.dev.get (F.REPLICA_STATUS_MISS_CNT n) = 0 ∧
        t.dev.flag (F.REPLICA_STATUS_WITHHOLD n) = (s.dev.flag (F.REPLICA_STATUS_WITHHOLD n) && x.replica.isSome) ∧
        (∀ m : Fin 4, m ≠ n → t.dev.die m = s.dev.die m) ∧
        State.Still (fun a => a = A.REPLICA_STATUS n ∨ a = A.REPLICA_DELAY n ∨ a = A.REPLICA_RESID n) { s with dev.dies := t.dev.dies } t) ∧
      (200 * 65536 < u.natAbs * 1250 →
        (∀ l : Fin 4, s.dev.get (F.LOG_WR_WR n l) < (s.dev.reg (A.LOG_SIZE n l)).toNat * 256 ∨ s.dev.reg (A.LOG_SIZE n l) = 0) →
        Does (.syncWordReceive n) s fun t => State.DieReset { s with ledger := t.ledger } t n 0x22 0 ∧
          (t.dev.dieSt n = 3 → t.dev.flag (F.REPLICA_STATUS_WITHHOLD n) = true) ∧
          (∀ a, (∀ l : Fin 4, ¬ Span (s.dev.get64 (A.LOG_BASE n l)) ((s.dev.reg (A.LOG_SIZE n l)).toNat * 4096) a) →
            t.ledger.get a = s.ledger.get a))) ∧
    (s.dev.dieSt n ≠ 2 → x.lastSync + 8192 ≤ s.dev.raw → Does (.syncWordMiss n) s fun t =>
      t.dev.get (F.REPLICA_STATUS_MISS_CNT n) = min (s.dev.get (F.REPLICA_STATUS_MISS_CNT n) + 1) 255 ∧
      t.dev.die n = { x with sync := none, lastSync := s.dev.raw } ∧ (∀ m : Fin 4, m ≠ n → t.dev.die m = s.dev.die m) ∧
      State.Still (· = A.REPLICA_STATUS n) { s with dev.dies := t.dev.dies } t) ∧
    (s.dev.raw < x.lastSync + 8192 → Does (.syncWordMiss n) s fun t => State.Still (fun _ => False) s t) ∧
    (4 ≤ x.badSync → s.dev.flag (F.REPLICA_STATUS_ALIGNED n) = true → Does (.alignLost n) s fun t =>
      t.dev.flag (F.REPLICA_STATUS_ALIGNED n) = false ∧ t.dev.flag (F.REPLICA_STATUS_ALIGN_LOST n) = true ∧
      (∃ f : OpenFault, t.dev.openFaults = s.dev.openFaults ++ [f] ∧ f.fr.code = 4 ∧ f.fr.die = n ∧ f.fr.tick = s.dev.raw ∧ f.ended = none) ∧
      (x.everAligned = true → s.dev.diePowered n = true → t.dev.get (evStatus (64 + 16 * n + 4)) = 1) ∧
      State.Frame (· = A.REPLICA_STATUS n) { s with dev.openFaults := t.dev.openFaults } t) ∧
    (4 ≤ x.goodSync → s.dev.flag (F.REPLICA_STATUS_ALIGNED n) = false → Does (.aligned n) s fun t =>
      t.dev.flag (F.REPLICA_STATUS_ALIGNED n) = true ∧ t.dev.die n = { x with everAligned := true } ∧
      (∀ m : Fin 4, m ≠ n → t.dev.die m = s.dev.die m) ∧
      (∀ f ∈ t.dev.openFaults, f.fr.code = 4 → f.fr.die = (n : Nat) → f.fr.index = 0 → f.ended ≠ none) ∧
      State.Still (· = A.REPLICA_STATUS n) { s with dev := { s.dev with dies := t.dev.dies, openFaults := t.dev.openFaults } } t) ∧
    (∀ (k : Fin 14) (up : Bool) (lane : Fin 16) (a b : Nat) (die : Option Nat), b = (if up then 1 else 0) →
      a = (if k.val < 4 then A.LINK_STATUS_DL k else A.LMC_LINK (k.val - 4)) →
      die = (if k.val < 4 then some k.val else if k.val < 6 then none else some ((k.val - 6) / 2)) →
      (∀ m, die = some m → s.dev.dieSt m ≠ 2) →
      (s.dev.flag ⟨a, b, b⟩ = false → Does (.laneFailure k up lane) s fun t =>
        t.dev.flag ⟨a, b, b⟩ = true ∧ t.dev.get ⟨a, 12 + 8 * b, 8 + 8 * b⟩ = lane ∧ t.dev.flag ⟨a, 2, 2⟩ = true ∧
        t.dev.flag ⟨a, 24, 24⟩ = true ∧
        t.dev.get (evStatus (if k.val < 4 then 64 + 16 * k.val + 5 else 47)) = 1 ∧
        (∃ f : OpenFault, t.dev.openFaults = s.dev.openFaults ++ [f] ∧ f.fr.code = 2 ∧ f.fr.die = die.getD 255 ∧ f.fr.index = k ∧
          f.fr.tick = s.dev.raw ∧ f.ended = none) ∧
        State.Frame (· = a) { s with dev.openFaults := t.dev.openFaults } t) ∧
      (s.dev.flag ⟨a, b, b⟩ = true →
        (∀ m : Fin 4, m.val = k.val → Does (.laneFailure k up lane) s fun t => s.DieReset t m 0x20 lane) ∧
        (4 ≤ k.val → Does (.laneFailure k up lane) s fun t => t.dev.flag ⟨a, 24, 24⟩ = true ∧
          s.Forces s t 0x33 (0x10 + (if k.val < 6 then k.val - 4 else (k.val - 6) % 2)) lane 5 (· = a))) ∧
      (Does (.laneRemapComplete k) s fun t => t.dev.flag ⟨a, 2, 2⟩ = false ∧
        (∀ f ∈ t.dev.openFaults, f.fr.code = 2 → f.fr.die = die.getD 255 → f.fr.index = k.val → f.ended ≠ none) ∧
        State.Still (· = a) { s with dev.openFaults := t.dev.openFaults } t)) ∧
    (s.dev.flag ⟨A.DIE_STATE, 8 + n, 8 + n⟩ = false →
      (s.dev.dieSt n = 1 → s.dev.dieDrained n = true → Does (.dieTransitionComplete n) s fun t => t.dev.dieSt n = 2 ∧
        t.dev.die n = { resets := x.resets, resetting := x.resetting } ∧ (∀ m : Fin 4, m ≠ n → t.dev.die m = s.dev.die m) ∧
        (∀ a, Span (dieBase n) 0x100000 a → (∀ l : Fin 4, a ≠ A.LOG_WR n l ∧ a ≠ A.LOG_RD n l ∧ a ≠ A.LOG_LOST n l) →
          t.dev.reg a = regReset a) ∧
        (∀ l : Fin 4, t.dev.reg (A.LOG_WR n l) = s.dev.reg (A.LOG_WR n l) ∧ t.dev.reg (A.LOG_RD n l) = s.dev.reg (A.LOG_RD n l)) ∧
        State.Frame (fun a => Span (dieBase n) 0x100000 a ∨ a = A.DIE_STATE ∨ Span 0x20100 0x300 a)
          { s with dev := { s.dev with dies := t.dev.dies, refs.srcs := t.dev.refs.srcs, pcie.rings := t.dev.pcie.rings, freeCtr := t.dev.freeCtr } } t) ∧
      (s.dev.dieSt n = 3 → s.dev.flag (F.REPLICA_STATUS_ALIGNED n) = true → s.dev.flag (pllLocked (4 + n)) = true →
        s.dev.flag (pllLocked (8 + n)) = true → Does (.dieTransitionComplete n) s fun t =>
        t.dev.dieSt n = 0 ∧ (t.dev.die n).resetting = false ∧ t.dev.reg (A.ENG_LIB n) = BitVec.ofNat 32 s.dev.pos.lib ∧
        (∀ l : Fin 4, t.dev.flag (F.LINK_CTRL_ENABLE n l) = true → t.dev.get (F.LINK_CTRL_STATE n l) = 3) ∧
        (∀ (l : Fin 4) (a : Nat), (Span (t.dev.get64 (A.CT_BASE n l)) ((t.dev.reg (A.CT_SIZE n l)).toNat * 4096) a ∨
          Span (t.dev.get64 (A.ST_BASE n l)) ((t.dev.reg (A.ST_SIZE n l)).toNat * 4096) a) → t.ledger.get a = 0) ∧
        (∀ a, t.ledger.get a = 0 ∨ t.ledger.get a = s.ledger.get a) ∧
        (∀ m : Fin 4, m ≠ n → t.dev.die m = s.dev.die m ∧ t.dev.dieSt m = s.dev.dieSt m) ∧
        State.Frame (fun a => Span (dieBase n) 0x100000 a ∨ a = A.DIE_STATE)
          { s with dev := { s.dev with dies := t.dev.dies, openFaults := t.dev.openFaults, freeCtr := t.dev.freeCtr, ts := { s.dev.ts with a := s.dev.ts.a.publish (2 ^ (n : Nat)), b := s.dev.ts.b.publish (2 ^ (n : Nat)), switches := s.dev.ts.switches.map fun w => { w with held := w.held ||| 2 ^ (n : Nat) } } }, ledger := t.ledger } t)) ∧
    (s.dev.dieSt n ≠ 2 → Does (.uncorrectableError (some n)) s fun t => s.DieReset t n 0x23 0 ∧
      (s.dev.dieSt n = 1 → s.dev.flag ⟨A.DIE_STATE, 8 + n, 8 + n⟩ = false → (x.resets.filter fun y => decide (s.dev.raw < y + 48000000000)).length < 2 →
        t.dev.dieSt n = 2 ∧ (t.dev.die n).resetting = false ∧ t.dev.flag ⟨A.DIE_STATE, 8 + n, 8 + n⟩ = false)) ∧
    (Does (.uncorrectableError none) s fun t => s.Forces s t 0x32 0xFF 0 5 (fun _ => False)) ∧
    (∀ m : Fin 2,
      (bit (s.dev.get F.LMC_STATUS_TRAINED) m = true → Does (.ledgerDieLoss m) s fun t =>
        s.Forces s t 0x33 (0x10 + m) 0 5 (fun _ => False)) ∧
      (bit (s.dev.get F.LMC_STATUS_TRAINED) m = false → Does (.ledgerDieLoss m) s fun t => State.Still (fun _ => False) s t))

/-- FAULT_RECORD_WRITE with LOAD completed writes the earliest unrecorded fault, once it is over, in front of the retention memory with its duration in ns, the next number and HELD, COUNT and NEW, raises source 7 and keeps it only while it holds; a fault that still interrupts waits (R423). LOCKSTEP_MISMATCH outside BYPASS opens fault 0x0D and stops the cores, or, within 10 s of a restart, forces a reset with 0x30; HOUSEKEEPING_CORE_RESTART ends it and raises source 8 (R421, R422). WATCHDOG forces a reset with 0x31. GLITCH_DETECT with power good forces one with 0x34 and erases every key slot without PERSIST (R443). TEMPERATURE_ALARM below 115 °C shows the reading, and above 105 °C raises source 9; a reading from 115 °C on, by TEMPERATURE_ALARM or THERMAL_SHUTDOWN, forces a reset with 0x35 and holds the device hot, and THERMAL_SHUTDOWN below it only shows the reading (R454). COUNTER_WRAP of an enabled programmable counter at its greatest value, or of the cycle counter, sets it to 0 and its overflow bit, and raises the overflow source if asked (R429, R432). Where the spec leaves a point open the clauses follow the model's readings: Forced resets (log entry 73); Quiet faults (log entry 81); Lockstep and counters (log entry 82); 115 °C (log entry 180). -/
def Obligations.FaultsRecordedAndActedOn : Prop :=
  ∀ s : State, s.Safe → s.Shaped →
    (∀ (f : OpenFault) (rest : List OpenFault), s.dev.openFaults = f :: rest → (∀ x ∈ f :: rest, x.logged = false) →
      (∀ (quiet : Bool) (dur : Nat) (rec' : FaultRec), s.dev.loaded = true → quiet = decide (f.fr.code ∈ [4, 11, 12, 13]) →
        (quiet = true ∨ f.afterLoad = true ∧ s.dev.md.resetDue = false ∨ f.afterLoad = false ∧ ∃ e, f.ended = some e ∧ e ≤ s.dev.raw) →
        (f.afterLoad = true → s.dev.md.resetDue = false) →
        dur = (if quiet then 0 else ((f.ended.getD f.fr.tick) - f.fr.tick) * 5 / 4) →
        rec' = { f.fr with duration := dur, seq := s.dev.ret.faultSeq } → Does .faultRecordWrite s fun t =>
          t.dev.ret = { s.dev.ret with faults := (rec' :: s.dev.ret.faults).take 32, faultSeq := (s.dev.ret.faultSeq + 1) % 2 ^ 32 } ∧
          t.dev.get F.FAULT_STATUS_HELD = min (s.dev.ret.faults.length + 1) 32 ∧ t.dev.flag F.FAULT_STATUS_NEW = true ∧
          t.dev.get F.FAULT_STATUS_COUNT = min (s.dev.get F.FAULT_STATUS_COUNT + 1) 65535 ∧
          t.dev.reg A.FAULT_SEQ = BitVec.ofNat 32 s.dev.ret.faultSeq ∧ t.dev.get (evStatus 7) = 1 ∧
          t.dev.openFaults = (if f.afterLoad = true ∨ (∃ e, f.ended = some e ∧ e ≤ s.dev.raw) then [] else [{ f with logged := true }]) ++ rest ∧
          State.Frame (fun a => a = A.FAULT_STATUS ∨ a = A.FAULT_SEQ) { s with dev := { s.dev with ret := t.dev.ret, openFaults := t.dev.openFaults } } t) ∧
      (f.fr.code ∉ [4, 11, 12, 13] → f.afterLoad = false → (∀ e, f.ended = some e → s.dev.raw < e) → Does .faultRecordWrite s fun t =>
        State.Still (fun _ => False) s t)) ∧
    (s.dev.mode ≠ .bypass → s.dev.md.coresDown = none →
      ((∀ x, s.dev.md.coresUp = some x → x + 8000000000 ≤ s.dev.raw) → Does .lockstepMismatch s fun t =>
        (∃ f : OpenFault, t.dev.openFaults = s.dev.openFaults ++ [f] ∧ f.fr.code = 13 ∧ f.fr.die = 255 ∧ f.fr.tick = s.dev.raw ∧ f.ended = none) ∧
        State.Still (fun _ => False) { s with dev := { s.dev with openFaults := t.dev.openFaults, md.coresDown := some s.dev.raw } } t) ∧
      ((∃ x, s.dev.md.coresUp = some x ∧ s.dev.raw < x + 8000000000) → Does .lockstepMismatch s fun t =>
        s.Forces s t 0x30 0xFF 0 5 (fun _ => False))) ∧
    (s.dev.md.coresDown ≠ none → Does .housekeepingCoreRestart s fun t => t.dev.get (evStatus 8) = 1 ∧
      (∀ f ∈ t.dev.openFaults, f.fr.code = 13 → f.fr.die = 255 → f.fr.index = 0 → f.ended ≠ none) ∧
      State.Frame (fun _ => False)
        { s with dev := { s.dev with openFaults := t.dev.openFaults, md.coresDown := none, md.coresUp := some s.dev.raw } } t) ∧
    (s.dev.mode ≠ .bypass → Does .watchdog s fun t => s.Forces s t 0x31 0xFF 0 4 (fun _ => False)) ∧
    (s.dev.md.powerBad = false → Does .glitchDetect s fun t =>
      (∀ k, k < 16 → t.dev.keySlot k = (s.dev.keySlot k).filter (fun x => bit x.policy 5)) ∧
      t.dev.keys.session = none ∧ t.dev.keys.challenge = none ∧
      s.Forces { s with dev := { s.dev with keys := t.dev.keys, md.glitch := true } } t 0x34 0xFF 0 6 (Span (A.KS_SLOT 0) 64)) ∧
    (∀ (k : Fin 7) (v : Int),
      (v < 920 → Does (.temperatureAlarm k v) s fun t => t.dev.temps.getD k 0 = v ∧
        (∀ j : Fin 7, j ≠ k → t.dev.temps.getD j 0 = s.dev.temps.getD j 0) ∧ (840 < v → t.dev.get (evStatus 9) = 1) ∧
        State.Frame (fun _ => False) { s with dev.temps := t.dev.temps } t) ∧
      (∀ cmd : Instr, cmd = .thermalShutdown k v ∨ cmd = .temperatureAlarm k v →
        920 ≤ v → s.dev.mode ≠ .bypass → Does cmd s fun t => t.dev.temps.getD k 0 = v ∧
        s.Forces { s with dev := { s.dev with temps := t.dev.temps, md.hot := true } } t 0x35
          (if k = 0 then 255 else if k.val ≤ 4 then k.val - 1 else 11 + k.val) 0 5 (fun _ => False)) ∧
      (v < 920 → Does (.thermalShutdown k v) s fun t => t.dev.temps.getD k 0 = v ∧
        State.Still (fun _ => False) { s with dev.temps := t.dev.temps } t)) ∧
    (∀ (die : Option (Fin 4)) (k : Fin 9) (cnt ovf cfg : Nat),
      (∀ n, die = some n → s.dev.diePowered n = true ∧ cfg = A.D_CNT_CFG n k ∧ ovf = A.D_CNT_OVF n ∧
        cnt = if k.val < 8 then A.D_CNT n k else A.D_CYCLE n) →
      (die = none → (k.val < 4 ∨ k.val = 8) ∧ cfg = A.K_CNT_CFG k ∧ ovf = A.K_CNT_OVF ∧
        cnt = if k.val < 8 then A.K_CNT k else A.K_CYCLE) →
      ((k.val < 8 ∧ bit (s.dev.reg cfg).toNat 12 = true ∧ bits 7 0 (s.dev.reg cfg) ≠ 0 ∧ s.dev.get64 cnt = 2 ^ 48 - 1) ∨
        (k.val = 8 ∧ s.dev.get64 cnt = 2 ^ 64 - 1)) →
      Does (.counterWrap die k) s fun t => bit (t.dev.reg ovf).toNat k = true ∧
        (k.val = 8 ∨ bit (s.dev.reg cfg).toNat 13 = false → t.dev.get64 cnt = 0) ∧
        (k.val < 8 → bit (s.dev.reg cfg).toNat 13 = true → ∀ src : Nat, (die = none → src = 46) →
          (∀ n : Fin 4, die = some n → src = 64 + 16 * (n : Nat) + 14) → t.dev.get (evStatus src) = 1) ∧
        State.Frame (fun a => Span cnt 8 a ∨ a = ovf) s t)

/-- MODE_GO at rest starts a permitted change, answers 0 for the resting mode and 2 for one not permitted; SERVE entry and exit are set for an epoch 16,384 ticks ahead or refused TOO_SOON or NOT_READY; during a change another request is latched with code 1 and one naming its end clears that (R76 to R81). SERVE_EPOCH from the epoch on changes the mode. MODE_TRANSITION_COMPLETE reaches it with DONE and source 0, gates the dies and their slots for STANDBY, brings the wanted ones up for WARM (R90). STANDBY_RESTART_HANDOVER ends TB_OFF (R93). RESET_N or PWR_GOOD low, or a due internal reset, leads to BYPASS, keeping retention, serial memory and fuses; loss of VDD_AON too, the retention cleared (R82 to R84). An armed RESET_CTRL write makes the reset due, one against a limit sets LIMIT_ERR, an unarmed one GUARD_FAIL. BYPASS ends in LOAD once nothing holds it (R77, R422). BOOT_SAFE_N is sampled once from 5 us on; LOAD begins; an oscillator within 8 percent of 10, 20 or 25 MHz (a crystal 25) is taken (R197); LOAD_COMPLETE enters SAFE for the pin, no header or no image, else the active image and Position boot in the set mode or SAFE follows with reason 3 (R86, R406). Where the spec leaves a point open the clauses follow the model's readings: Forced resets (log entry 73); Images (log entry 92); BOOT_SAFE_N (log entry 93); LOAD (log entry 94); MODE_GO (log entry 95); A latched mode request (log entry 128); SERVE from LOAD (log entry 129); Loss of VDD_AON (log entry 166). -/
def Obligations.ModesChangeResetsAndLoad : Prop :=
  ∀ s : State, s.Safe → s.Shaped →
    (∀ r : ModeReq, s.dev.md.run = none → r = { mode := s.dev.get F.MODE_CTRL_REQ_MODE, standbyTb := s.dev.flag F.MODE_CTRL_STANDBY_TB, useEpoch := s.dev.flag F.MODE_CTRL_USE_EPOCH, epoch := s.dev.get64 A.MODE_EPOCH } →
      (∀ p : Nat, (s.dev.mode = .standby ∧ s.dev.coarse = false ∧ r.mode = 3 ∧ p = 3 ∨ s.dev.mode = .warm ∧ r.mode = 2 ∧ p = 1 ∨
          s.dev.mode = .warm ∧ r.mode = 6 ∧ p = 3 ∨ s.dev.mode = .test ∧ r.mode = 3 ∧ p = 1) → Does .modeGo s fun t =>
        t.dev.get F.MODE_STATUS_TARGET = r.mode ∧ t.dev.get F.MODE_STATUS_PROGRESS = p ∧ t.dev.get F.MODE_STATUS_LAST_CODE = 0 ∧
        (∃ x, t.dev.md.run = some x ∧ x.target = r.mode ∧ x.epoch = none ∧ x.next = none ∧ (r.mode = 2 → x.tb = r.standbyTb)) ∧
        t.dev.mode = s.dev.mode ∧ State.Still (· = A.MODE_STATUS) { s with dev.md.run := t.dev.md.run } t) ∧
      (s.dev.mode = .standby → s.dev.coarse = true → r.mode = 3 → Does .modeGo s fun t =>
        t.dev.get F.MODE_STATUS_TARGET = 3 ∧ t.dev.get F.MODE_STATUS_PROGRESS = 3 ∧ t.dev.md.restart = some s.dev.raw ∧
        t.dev.mode = .standby ∧
        State.Still (fun a => a = A.MODE_STATUS ∨ a = (pllGood 0).addr) { s with dev := { s.dev with md.run := t.dev.md.run, md.restart := some s.dev.raw } } t) ∧
      (s.dev.mode = .standby → (r.mode = 4 ∨ r.mode = 2 ∧ r.standbyTb = s.dev.coarse) → Does .modeGo s fun t =>
        t.dev.mode = .standby ∧ t.dev.get F.MODE_STATUS_LAST_CODE = 0 ∧
        t.dev.get F.MODE_STATUS_TARGET = (if r.mode = 2 then 2 else if s.dev.flag F.MODE_STATUS_ON_TRIAL then 5 else 4) ∧
        t.dev.get F.MODE_STATUS_PROGRESS = (if r.mode = 2 ∧ r.standbyTb = false then 1 else 3) ∧
        (∃ x, t.dev.md.run = some x ∧ x.epoch = none ∧ x.next = (if r.mode = 4 then some r else none) ∧ (r.mode = 2 → x.tb = r.standbyTb))) ∧
      (s.dev.mode = .standby → r.mode = 2 → r.standbyTb = !s.dev.coarse → Does .modeGo s fun t =>
        t.dev.get F.MODE_STATUS_LAST_CODE = 0 ∧ State.Still (· = A.MODE_STATUS) s t) ∧
      (∀ (enter : Bool) (e code : Nat), (enter = true ∧ s.dev.mode = .warm ∧ r.mode = 4 ∨
          enter = false ∧ (s.dev.mode = .serve ∨ s.dev.mode = .trial) ∧ r.mode = 3) →
        e = (if r.useEpoch then r.epoch else s.dev.raw + 16384) →
        code = (if e < s.dev.raw + 16384 then 4 else if enter = true ∧ s.dev.serveReady = false then 3 else 0) →
        Does .modeGo s fun t => t.dev.get F.MODE_STATUS_LAST_CODE = code ∧
          (code ≠ 0 → State.Still (· = A.MODE_STATUS) s t ∧ t.dev.get F.MODE_STATUS_PROGRESS = s.dev.get F.MODE_STATUS_PROGRESS) ∧
          (code = 0 → t.dev.get F.MODE_STATUS_TARGET = (if enter then (if s.dev.flag F.MODE_STATUS_ON_TRIAL then 5 else 4) else 3) ∧
            t.dev.get F.MODE_STATUS_PROGRESS = (if enter then 3 else 1) ∧ t.dev.mode = s.dev.mode ∧
            (∃ x, t.dev.md.run = some x ∧ x.epoch = some e ∧ x.passed = false) ∧
            State.Still (· = A.MODE_STATUS) { s with dev := { s.dev with md.run := t.dev.md.run, md.serve := some (e, enter) } } t)) ∧
      (∀ code : Nat, (code = 0 ∧ (s.dev.mode = .warm ∧ r.mode = 3 ∨ (s.dev.mode = .serve ∨ s.dev.mode = .trial) ∧ r.mode = 4 ∨
            s.dev.mode = .test ∧ r.mode = 6) ∨
          code = 2 ∧ (s.dev.mode = .standby ∧ r.mode ∉ [2, 3, 4] ∨ s.dev.mode = .warm ∧ r.mode ∉ [2, 3, 4, 6] ∨
            (s.dev.mode = .serve ∨ s.dev.mode = .trial) ∧ r.mode ∉ [3, 4] ∨ s.dev.mode = .test ∧ r.mode ∉ [3, 6] ∨
            s.dev.mode = .safe)) → Does .modeGo s fun t =>
        t.dev.get F.MODE_STATUS_LAST_CODE = code ∧ t.dev.mode = s.dev.mode ∧ State.Still (· = A.MODE_STATUS) s t)) ∧
    (∀ (x : ModeRun) (r : ModeReq) (same : Bool), s.dev.md.run = some x → s.dev.mode ≠ .bypass →
      r = { mode := s.dev.get F.MODE_CTRL_REQ_MODE, standbyTb := s.dev.flag F.MODE_CTRL_STANDBY_TB, useEpoch := s.dev.flag F.MODE_CTRL_USE_EPOCH, epoch := s.dev.get64 A.MODE_EPOCH } →
      (same = true ↔ (r.mode = x.target ∨ r.mode = 4 ∧ x.target = 5) ∧ (r.mode = 2 → r.standbyTb = x.tb)) →
      Does .modeGo s fun t => t.dev.md.latched = (if same then none else some r) ∧
        t.dev.flag F.MODE_STATUS_LATCHED = !same ∧ t.dev.get F.MODE_STATUS_LAST_CODE = (if same then 0 else 1) ∧
        t.dev.mode = s.dev.mode ∧ State.Still (· = A.MODE_STATUS) { s with dev.md.latched := t.dev.md.latched } t) ∧
    (∀ (x : ModeRun) (e : Nat), s.dev.md.run = some x → x.epoch = some e →
      (x.passed = false → e ≤ s.dev.raw → Does .serveEpoch s fun t =>
        t.dev.get F.MODE_STATUS_MODE = (if x.target = 3 then 3 else if s.dev.flag F.MODE_STATUS_ON_TRIAL then 5 else 4) ∧
        State.Still (· = A.MODE_STATUS) { s with dev.md.run := some { x with passed := true } } t) ∧
      (s.dev.raw < e → Does .serveEpoch s fun t => State.Still (fun _ => False) s t) ∧
      (x.passed = true → (x.target = 3 → s.dev.allDrained = true) → x.next = none → s.dev.md.latched = none →
        Does .modeTransitionComplete s fun t => t.dev.flag F.MODE_STATUS_DONE = true ∧ t.dev.get (evStatus 0) = 1 ∧
          t.dev.get F.MODE_STATUS_MODE = (if x.target = 3 then 3 else if s.dev.flag F.MODE_STATUS_ON_TRIAL then 5 else 4) ∧
          t.dev.get F.MODE_STATUS_PROGRESS = 0 ∧ State.Frame (· = A.MODE_STATUS) { s with dev.md.run := none } t)) ∧
    (∀ x : ModeRun, s.dev.md.run = some x → x.epoch = none → x.next = none → s.dev.md.latched = none →
      (s.dev.mode = .warm → x.target = 6 → Does .modeTransitionComplete s fun t => t.dev.mode = .test ∧
        t.dev.flag F.MODE_STATUS_DONE = true ∧ t.dev.get (evStatus 0) = 1 ∧
        State.Frame (· = A.MODE_STATUS) { s with dev.md.run := none } t) ∧
      (s.dev.mode = .test → x.target = 3 → Does .modeTransitionComplete s fun t => t.dev.mode = .warm ∧
        (∀ n l : Fin 4, t.dev.reg (A.LINK_TEST n l) = 0) ∧ t.dev.flag F.MODE_STATUS_DONE = true ∧ t.dev.get (evStatus 0) = 1 ∧
        (∀ n l : Fin 4, t.dev.lnk n l = { s.dev.lnk n l with looped := [] }) ∧
        State.Frame (fun a => a = A.MODE_STATUS ∨ ∃ n l : Fin 4, a = A.LINK_TEST n l) { s with dev := { s.dev with md.run := none, dies := t.dev.dies } } t) ∧
      (s.dev.mode = .warm → x.target = 2 → Does .modeTransitionComplete s fun t => t.dev.mode = .standby ∧
        (∀ n : Fin 4, t.dev.dieSt n = 2 ∧ (t.dev.die n).queries = []) ∧ t.dev.get F.LMC_STATUS_TRAINED = 0 ∧
        (∀ a, t.ledger.get a = 0) ∧ t.dev.coarse = (s.dev.coarse || !x.tb) ∧ t.dev.md.run = none ∧
        t.dev.flag F.MODE_STATUS_DONE = true ∧ t.dev.get (evStatus 0) = 1 ∧
        (∀ i : Fin 12, s.dev.get (F.SLOT_CFG_TYPE i) = 5 ∨ s.dev.get (F.SLOT_CFG_TYPE i) = 6 →
          t.dev.flag (F.SLOT_STATE_SIG_VALID i) = false ∧ (t.dev.src i).has = false ∧ (t.dev.src i).hist = [] ∧ (t.dev.src i).ys = [] ∧
          (x.tb = true → ∀ k : Fin 2, s.dev.slotSt k i ≠ 0 → t.dev.slotSt k i = 1)) ∧
        t.dev.nv = s.dev.nv ∧ t.dev.keys = s.dev.keys ∧ (∀ a, t.flash.get a = s.flash.get a)) ∧
      (s.dev.mode = .standby → s.dev.coarse = false → x.target = 3 → Does .modeTransitionComplete s fun t => t.dev.mode = .warm ∧
        (∀ n : Fin 4, s.dev.diePresent n = true → s.dev.flag ⟨A.DIE_CTRL, n, n⟩ = true →
          t.dev.dieSt n = 0 ∧ t.dev.flag (F.REPLICA_STATUS_ALIGNED n) = true) ∧
        t.dev.get F.LMC_STATUS_TRAINED = 3 ∧ (∀ a, t.ledger.get a = 0) ∧ t.dev.md.run = none ∧
        t.dev.flag F.MODE_STATUS_DONE = true ∧ t.dev.get (evStatus 0) = 1 ∧
        t.dev.nv = s.dev.nv ∧ t.dev.keys = s.dev.keys ∧ (∀ a, t.flash.get a = s.flash.get a))) ∧
    (∀ x : Nat, s.dev.coarse = true → s.dev.md.restart = some x → s.dev.flag (pllLocked 0) = true → s.dev.clk.cycRes = 0 →
      Does .standbyRestartHandover s fun t => t.dev.coarse = false ∧ t.dev.md.restart = none ∧ t.dev.clk.frac = s.dev.clk.phi ∧
        t.dev.raw = s.dev.raw ∧
        (∀ n : Fin 8, s.dev.get (F.IN_CTRL_STATE n) = 0 → t.dev.flag (F.IN_STATUS_CAL_WARN n) = true ∧ t.dev.get (evStatus 30) = 1) ∧
        State.Frame (fun a => a = A.MODE_STATUS ∨ ∃ n : Fin 8, a = A.IN_STATUS n)
          { s with dev := { s.dev with clk := { s.dev.clk with frac := s.dev.clk.phi, coarseSpans := t.dev.clk.coarseSpans }, md.restart := none, tin := t.dev.tin } } t) ∧
    (Does .resetNLow s fun t => s.WasReset t 1 ∧ t.dev.md.resetLow = true) ∧
    (Does .pwrGoodLow s fun t => s.WasReset t 2 ∧ t.dev.md.powerBad = true) ∧
    (s.dev.md.resetDue = true → s.dev.mode ≠ .bypass → Does .internalReset s fun t => s.WasReset t 0 ∧ t.dev.md.pulse = true) ∧
    (s.dev.md.resetDue = false ∨ s.dev.mode = .bypass → Does .internalReset s fun t => State.Still (fun _ => False) s t) ∧
    (Does .vddAonLoss s fun t => t.dev.ret = {} ∧ t.dev.reg A.RESET_CAUSE = 2 ∧ t.dev.get F.FAULT_STATUS_HELD = 0 ∧
      t.dev.openFaults = [] ∧ State.WasReset { s with dev := ({ s.dev with ret := {} } : Dev).setReg A.RESET_CAUSE 0 } t 2) ∧
    (∀ (q : Sys2Proof.Req) (v : Word),
      (∀ x, s.dev.armOf q A.GUARD = some x → x.target = A.RESET_CTRL → s.dev.raw < x.since + 8000 → bit v.toNat 0 = true →
        s.dev.limitOk [(A.RESET_CTRL, v)] = true →
        Does (.deviceReset q v) s fun t => t.dev.md.resetDue = true ∧ bit (t.dev.reg A.RESET_CAUSE).toNat 2 = true ∧
          t.dev.armOf q A.GUARD = none ∧
          State.Still (· = A.RESET_CAUSE) { s with dev := { s.dev with md.resetDue := true, bus.arms := t.dev.bus.arms } } t) ∧
      (∀ x, s.dev.armOf q A.GUARD = some x → x.target = A.RESET_CTRL → s.dev.raw < x.since + 8000 →
        s.dev.limitOk [(A.RESET_CTRL, v)] = false →
        Does (.deviceReset q v) s fun t => t.dev.flag ⟨A.GBL_STATUS, 2, 2⟩ = true ∧ t.dev.md = s.dev.md ∧
          State.Still (· = A.GBL_STATUS) { s with dev.bus.arms := t.dev.bus.arms } t) ∧
      ((∀ x, s.dev.armOf q A.GUARD = some x → x.target ≠ A.RESET_CTRL ∨ x.since + 8000 ≤ s.dev.raw) →
        Does (.deviceReset q v) s fun t => t.dev.flag ⟨A.GBL_STATUS, 1, 1⟩ = true ∧ t.dev.md = s.dev.md ∧
          State.Still (· = A.GBL_STATUS) { s with dev.bus.arms := t.dev.bus.arms } t)) ∧
    (∀ (cmd : Instr) (b : State) (ts : List Int),
      (cmd = .resetNRise ∧ s.dev.md.powerBad = false ∧ s.dev.md.pulse = false ∧ s.dev.md.hot = false ∧ b = s ∨
        cmd = .pwrGoodRise ∧ s.dev.md.resetLow = false ∧ s.dev.md.pulse = false ∧ s.dev.md.hot = false ∧ b = s ∨
        cmd = .internalResetPulseEnd ∧ s.dev.md.pulse = true ∧ 800000 ≤ s.dev.md.age ∧ s.dev.md.resetLow = false ∧
          s.dev.md.powerBad = false ∧ s.dev.md.hot = false ∧ b = s ∨
        cmd = .thermalRecovery ts ∧ s.dev.md.hot = true ∧ ts.length = 7 ∧ (∀ x ∈ ts, x < 800) ∧ s.dev.md.resetLow = false ∧
          s.dev.md.powerBad = false ∧ s.dev.md.pulse = false ∧ b = { s with dev.temps := ts }) →
      s.dev.mode = .bypass → Does cmd s fun t => s.Loads b t) ∧
    (∀ low : Bool, s.dev.mode = .load →
      (4000 ≤ s.dev.md.age → s.dev.md.safePin = none → Does (.bootSafeNSample low) s fun t =>
        State.Still (fun _ => False) { s with dev.md.safePin := some low } t) ∧
      (s.dev.md.age < 4000 ∨ s.dev.md.safePin ≠ none → Does (.bootSafeNSample low) s fun t => State.Still (fun _ => False) s t)) ∧
    (s.dev.mode = .load → s.dev.md.load = 0 → Does .loadStart s fun t => State.Still (fun _ => False) { s with dev.md.load := 1 } t) ∧
    (∀ (crystal : Bool) (khz m : Nat), s.dev.mode = .load → s.dev.md.load = 1 →
      (m ∈ [10, 20, 25] → 920 * m ≤ khz → khz ≤ 1080 * m → (crystal = true → m = 25) → Does (.oscillatorValid crystal khz) s fun t =>
        t.dev.flag F.OSC_STATUS_PRESENT = true ∧ t.dev.flag F.OSC_STATUS_SRC = crystal ∧
        t.dev.get F.OSC_STATUS_FREQ = (if m = 25 then 2 else if m = 20 then 1 else 0) ∧
        State.Still (· = A.OSC_STATUS) { s with dev := { s.dev with clk.oscMhz := m, md.load := 2 } } t) ∧
      ((∀ m ∈ [10, 20, 25], khz < 920 * m ∨ 1080 * m < khz ∨ crystal = true ∧ m ≠ 25) → Does (.oscillatorValid crystal khz) s fun t =>
        State.Still (fun _ => False) s t)) ∧
    (∀ (sigA sigB : Bool), s.dev.mode = .load → s.dev.md.load = 2 → s.dev.clk.running = true → s.dev.md.run = none →
      s.dev.md.latched = none →
      (∀ why : Nat, (why = 1 ∧ s.dev.md.safePin = some true ∨ why = 2 ∧ s.dev.md.safePin ≠ some true ∧ s.dev.nv.hdr = none ∨
          why = 2 ∧ s.dev.md.safePin ≠ some true ∧ sigA = false ∧ sigB = false) →
        Does (.loadComplete sigA sigB) s fun t => t.dev.mode = .safe ∧ t.dev.get F.BOOT_STATUS_SAFE_REASON = why ∧
          t.dev.flag F.BOOT_STATUS_SAFE_PIN = decide (why = 1) ∧ t.dev.flag F.MODE_STATUS_DONE = true ∧
          t.dev.get (evStatus 0) = 1 ∧ t.dev.get (F.SLOT_CFG_TYPE 0) = 4 ∧ t.dev.get (F.SLOT_RANK_RANK_A 0) = 1 ∧
          t.dev.flag F.GN_CTRL_ENABLE = true ∧ t.dev.flag (F.OUT_CTRL_ENABLE 0) = true ∧ t.dev.ret.faults = s.dev.ret.faults ∧
          (∀ a, t.flash.get a = s.flash.get a) ∧ t.pending = s.pending) ∧
      (∀ (h : BootHdr) (a p : Nat), s.dev.md.safePin ≠ some true → s.dev.nv.hdr = some h → a = h.active → p = h.posActive → a ≤ 1 →
        p ≤ 1 → (h.rec' 0 a).state = 4 → (h.rec' 0 (1 - a)).state ∉ [2, 3] → (h.rec' 1 p).state = 4 →
        (h.rec' 1 (1 - p)).state ∉ [2, 3, 4] → (if a = 0 then sigA else sigB) = true →
        (List.range 8).foldl (fun n w => n + popCount 32 (s.dev.reg (A.FUSE_MIN_GEN w)).toNat) 0 ≤ (h.rec' 0 a).gen →
        (h.rec' 0 a).gen < 2 ^ 32 → Does (.loadComplete sigA sigB) s fun t =>
          (t.dev.mode = .safe ∧ t.dev.get F.BOOT_STATUS_SAFE_REASON = 3 ∨
            t.dev.mode = (if t.dev.settingByte 1 4 = 2 then .standby else if t.dev.settingByte 1 4 = 3 then .warm else .serve) ∧
            t.dev.get F.BOOT_STATUS_IMAGE_BANK = a ∧ t.dev.get F.POS_INFO_SLOT = p ∧ t.dev.get F.IMAGE_GEN_GEN = (h.rec' 0 a).gen ∧
            t.dev.flag F.MODE_STATUS_ON_TRIAL = false ∧ t.dev.flag F.LMC_STATUS_KEY_VALID = true) ∧
          t.dev.flag F.MODE_STATUS_DONE = true ∧ t.dev.get (evStatus 0) = 1 ∧ t.dev.nv.hdr = some h ∧
          (∀ a, t.flash.get a = s.flash.get a) ∧ t.pending = s.pending))
end

