-- ==== Sys2Proof/Laws/Bytes.lean ====
section
/-! SUPPORT. Numbers as bytes and back, the lengths of hashes, and the messages of the ring. -/

namespace Sys2Proof.Machine

@[simp] theorem leBytes_length (k n : Nat) : (leBytes k n).length = k := by
  induction k generalizing n with
  | zero => rfl
  | succ k ih => simp [leBytes, ih]

@[simp] theorem beBytes_length (k n : Nat) : (beBytes k n).length = k := by simp [beBytes]

theorem byte_toNat (n : Nat) : (byte n).toNat = n % 256 := by simp [byte]

/-- Bytes keep a number that fits in them. -/
theorem leNat_leBytes (k n : Nat) : leNat (leBytes k n) = n % 256 ^ k := by
  induction k generalizing n with
  | zero => simp [leBytes, leNat, Nat.mod_one]
  | succ k ih => rw [leBytes, leNat, ih, byte_toNat, Nat.pow_succ', Nat.mod_mul]

theorem beNat_reverse (bs : List Byte) : beNat bs.reverse = leNat bs := by
  induction bs with
  | nil => rfl
  | cons b bs ih =>
    have : beNat (bs.reverse ++ [b]) = beNat bs.reverse * 256 + b.toNat := by simp [beNat]
    rw [List.reverse_cons, this, ih, leNat]
    omega

theorem beNat_beBytes (k n : Nat) : beNat (beBytes k n) = n % 256 ^ k := by
  rw [beBytes, beNat_reverse, leNat_leBytes]

/-- A slice of what lies between two lists. -/
theorem slice_append (a b c : List Byte) (o n : Nat) (ho : o = a.length) (hn : n = b.length) : slice (a ++ (b ++ c)) o n = b := by
  subst ho hn
  simp [slice]

theorem insertBy_perm {α : Type} (f : α → α → Bool) (x : α) (l : List α) : (insertBy f x l).Perm (x :: l) := by
  induction l with
  | nil => exact List.Perm.refl _
  | cons y l ih =>
    unfold insertBy
    split
    · exact List.Perm.refl _
    · exact (ih.cons y).trans (List.Perm.swap x y l)

/-- Sorting keeps the elements. -/
theorem sortBy_perm {α : Type} (f : α → α → Bool) (l : List α) : (sortBy f l).Perm l := by
  induction l with
  | nil => exact List.Perm.refl _
  | cons x l ih => exact (insertBy_perm f x _).trans (ih.cons x)

@[simp] theorem mem_sortBy {α : Type} (f : α → α → Bool) (l : List α) (x : α) : x ∈ sortBy f l ↔ x ∈ l := (sortBy_perm f l).mem_iff

/-- A hash of eight words of 64 bits. -/
theorem sha_length (p : ShaP) (h : List Nat) (m : List Byte) (k : p.w / 8 = 8 ∧ h.length = 8) :
    (sha p h m).length = 64 := by
  have round (s : List Nat) (x : Nat) (l : s.length = 8) : (shaRound p s x).length = 8 := by
    unfold shaRound
    split <;> simp_all
  have rounds (l : List (Nat × Nat)) : ∀ s : List Nat, s.length = 8 →
      (l.foldl (fun s (x, i) => shaRound p s (x + (p.k >>> (p.w * i)) % 2 ^ p.w)) s).length = 8 := by
    induction l with
    | nil => exact fun s h => h
    | cons x l ih => exact fun s h => ih _ (round s _ h)
  have blocks (l : List (List Byte)) : ∀ s : List Nat, s.length = 8 → (l.foldl (shaBlock p) s).length = 8 := by
    induction l with
    | nil => exact fun s h => h
    | cons x l ih =>
      intro s h
      refine ih _ ?_
      have := rounds ((shaExtend p (p.rounds - 16) (shaWords (p.w / 8) 16 x).reverse).reverse.zipIdx) s h
      simp only [shaBlock, List.length_zipWith, h, this, Nat.min_self]
  have flat (l : List Nat) : (l.flatMap (beBytes 8)).length = 8 * l.length := by
    induction l with
    | nil => rfl
    | cons x l ih => simp only [List.flatMap_cons, List.length_append, beBytes_length, List.length_cons, ih]; omega
  simp only [sha, k.1, flat, blocks _ h k.2]

/-- A device's ORIGIN prefix has eight bytes (R387). -/
theorem selfId_length : selfId.length = 8 := by
  have := sha_length sha512P (unpack 64 8 0x47B5481DBEFA4FA4DB0C2E0D64F98FA78EB44A876858151167332667FFC00B31152FECD8F70E59399159015A3070DD17629A292A367CD507CBBB9D5DC1059ED8)
    (p384.pubBytes idScalar) (by decide)
  unfold selfId sha384
  simp [this]

/-- A message is read back from its frame (R386, R387). -/
theorem parseMsg_bytes (m : Msg) (ty : m.ty < 256) (hops : m.hops < 256) (origin : m.origin.length = 8) (seq : m.seq < 2 ^ 32)
    (payload : m.payload.length ≤ 2048) : parseMsg m.bytes = some m := by
  have crc (b : List Byte) : crc32c b < 2 ^ 32 := by
    have bit (c : Nat) (h : c < 2 ^ 32) : crcBit 0x82F63B78 c < 2 ^ 32 := by
      unfold crcBit
      split
      · exact Nat.xor_lt_two_pow (by omega) (by decide)
      · omega
    have byt (l : List Nat) : ∀ c, c < 2 ^ 32 → l.foldl (fun c _ => crcBit 0x82F63B78 c) c < 2 ^ 32 := by
      induction l with
      | nil => exact fun c h => h
      | cons x l ih => exact fun c h => ih _ (bit c h)
    have all (l : List Byte) : ∀ c, c < 2 ^ 32 → l.foldl (crcByte 0x82F63B78) c < 2 ^ 32 := by
      induction l with
      | nil => exact fun c h => h
      | cons x l ih =>
        exact fun c h => ih _ (byt _ _ (Nat.xor_lt_two_pow h (Nat.lt_of_lt_of_le x.isLt (by decide))))
    exact Nat.xor_lt_two_pow (all b _ (by decide)) (by decide)
  obtain ⟨t, h, r, o, q, p⟩ := m
  simp only at ty hops origin seq payload
  have e : Msg.bytes ⟨t, h, r, o, q, p⟩ =
      [byte t, byte h, byte (boolNat r), 0] ++ o ++ beBytes 4 q ++ beBytes 2 p.length ++ [0, 0] ++ p ++
        beBytes 4 (crc32c ([byte t, byte h, byte (boolNat r), 0] ++ o ++ beBytes 4 q ++ beBytes 2 p.length ++ [0, 0] ++ p)) := rfl
  rw [e]
  generalize hb : [byte t, byte h, byte (boolNat r), 0] ++ o ++ beBytes 4 q ++ beBytes 2 p.length ++ [0, 0] ++ p = b
  generalize hc : beBytes 4 (crc32c b) = c
  have lc : c.length = 4 := by rw [← hc, beBytes_length]
  have lb : b.length = p.length + 20 := by rw [← hb]; simp [origin]; omega
  have at' (a v w : List Byte) (i n : Nat) (hi : i = a.length) (hn : n = v.length) (k : b = a ++ (v ++ w)) : slice (b ++ c) i n = v := by
    rw [k, List.append_assoc, List.append_assoc]
    exact slice_append a v (w ++ c) i n hi hn
  have s16 : slice (b ++ c) 16 2 = beBytes 2 p.length :=
    at' ([byte t, byte h, byte (boolNat r), 0] ++ o ++ beBytes 4 q) _ ([0, 0] ++ p) 16 2 (by simp [origin]) (by simp) (by rw [← hb]; simp)
  have s0 : slice (b ++ c) 0 1 = [byte t] :=
    at' [] _ ([byte h, byte (boolNat r), 0] ++ o ++ beBytes 4 q ++ beBytes 2 p.length ++ [0, 0] ++ p) 0 1 rfl rfl (by rw [← hb]; simp)
  have s1 : slice (b ++ c) 1 1 = [byte h] :=
    at' [byte t] _ ([byte (boolNat r), 0] ++ o ++ beBytes 4 q ++ beBytes 2 p.length ++ [0, 0] ++ p) 1 1 rfl rfl (by rw [← hb]; simp)
  have s2 : slice (b ++ c) 2 1 = [byte (boolNat r)] :=
    at' [byte t, byte h] _ ([0] ++ o ++ beBytes 4 q ++ beBytes 2 p.length ++ [0, 0] ++ p) 2 1 rfl rfl (by rw [← hb]; simp)
  have s4 : slice (b ++ c) 4 8 = o :=
    at' [byte t, byte h, byte (boolNat r), 0] _ (beBytes 4 q ++ beBytes 2 p.length ++ [0, 0] ++ p) 4 8 rfl origin.symm (by rw [← hb]; simp)
  have s12 : slice (b ++ c) 12 4 = beBytes 4 q :=
    at' ([byte t, byte h, byte (boolNat r), 0] ++ o) _ (beBytes 2 p.length ++ [0, 0] ++ p) 12 4 (by simp [origin]) (by simp) (by rw [← hb]; simp)
  have s20 : slice (b ++ c) 20 p.length = p :=
    at' ([byte t, byte h, byte (boolNat r), 0] ++ o ++ beBytes 4 q ++ beBytes 2 p.length ++ [0, 0]) _ [] 20 p.length (by simp [origin]) rfl
      (by rw [← hb]; simp)
  have sc : slice (b ++ c) (20 + p.length) 4 = c := by
    have := slice_append b c [] (20 + p.length) 4 (by omega) lc.symm
    simpa using this
  have tk : (b ++ c).take (20 + p.length) = b := by rw [List.take_append_of_le_length (by omega), List.take_of_length_le (by omega)]
  have n16 : beAt (b ++ c) 16 2 = p.length := by
    rw [beAt, s16, beNat_beBytes]; exact Nat.mod_eq_of_lt (by omega)
  have one (x : Nat) : beNat [byte x] = x % 256 := by simp [beNat, byte_toNat]
  have hcrc : beAt (b ++ c) (20 + p.length) 4 = crc32c b := by
    rw [beAt, sc, ← hc, beNat_beBytes]; exact Nat.mod_eq_of_lt (crc b)
  unfold parseMsg
  simp only [n16, hcrc, tk]
  rw [if_neg (by simp only [List.length_append, lb, lc]; omega), if_neg (by simp)]
  simp only [beAt, s0, s1, s2, s4, s12, s20, one, beNat_beBytes, Option.some.injEq, Msg.mk.injEq, true_and, and_true]
  refine ⟨Nat.mod_eq_of_lt ty, Nat.mod_eq_of_lt hops, by cases r <;> rfl, Nat.mod_eq_of_lt (by omega)⟩

end Sys2Proof.Machine
end

