-- ==== Sys2Proof/Laws/Memory.lean ====
section
/-! SUPPORT. The sparse maps: reading after writing, and that every operation on a memory keeps its canonical form. -/

namespace Sys2Proof.Machine

section Maps
variable {α : Type}

theorem SMap.find_insert_self (f : Nat → α) (m : SMap α) (a : Nat) (x : α) : SMap.find f (SMap.insert m a x) a = x := by
  induction m with
  | nil => simp [SMap.insert, SMap.find]
  | cons p m ih =>
    obtain ⟨k, v⟩ := p
    simp only [SMap.insert]
    split
    · simp [SMap.find]
    · split
      · simp [SMap.find]
      · rename_i h _
        simp [SMap.find, h, ih]

theorem SMap.find_insert_ne (f : Nat → α) (m : SMap α) {a b : Nat} (x : α) (h : b ≠ a) :
    SMap.find f (SMap.insert m a x) b = SMap.find f m b := by
  induction m with
  | nil => simp [SMap.insert, SMap.find, h]
  | cons p m ih =>
    obtain ⟨k, v⟩ := p
    simp only [SMap.insert]
    split
    · rename_i e
      simp [SMap.find, h, ← e]
    · split <;> simp [SMap.find, h, ih]

theorem SMap.find_filter_ne (f : Nat → α) (m : SMap α) {a b : Nat} (h : b ≠ a) :
    SMap.find f (m.filter fun p => p.1 ≠ a) b = SMap.find f m b := by
  induction m with
  | nil => rfl
  | cons p m ih =>
    obtain ⟨k, v⟩ := p
    by_cases e : k = a
    · subst e
      simp only [List.filter_cons, ne_eq, not_true_eq_false, decide_false, Bool.false_eq_true, if_false, SMap.find, if_neg h]
      exact ih
    · simp only [List.filter_cons, ne_eq, e, not_false_eq_true, decide_true, if_true, SMap.find]
      split
      · rfl
      · exact ih

theorem SMap.find_filter_self (f : Nat → α) (m : SMap α) (a : Nat) :
    SMap.find f (m.filter fun p => p.1 ≠ a) a = f a := by
  induction m with
  | nil => rfl
  | cons p m ih =>
    obtain ⟨k, v⟩ := p
    by_cases e : k = a
    · subst e
      simp only [List.filter_cons, ne_eq, not_true_eq_false, decide_false, Bool.false_eq_true, if_false]
      exact ih
    · simp only [List.filter_cons, ne_eq, e, not_false_eq_true, decide_true, if_true, SMap.find, if_neg (Ne.symm e)]
      exact ih

variable [DecidableEq α]

/-- Reading what was written. -/
@[simp] theorem SMap.find_put_self (f : Nat → α) (m : SMap α) (a : Nat) (x : α) : SMap.find f (SMap.put f m a x) a = x := by
  unfold SMap.put
  split
  · rename_i h
    rw [SMap.find_filter_self, h]
  · exact SMap.find_insert_self f m a x

/-- A write leaves every other key alone. -/
theorem SMap.find_put_ne (f : Nat → α) (m : SMap α) {a b : Nat} (x : α) (h : b ≠ a) :
    SMap.find f (SMap.put f m a x) b = SMap.find f m b := by
  unfold SMap.put
  split
  · exact SMap.find_filter_ne f m h
  · exact SMap.find_insert_ne f m x h

theorem SMap.okFrom_mono (f : Nat → α) {lo lo' : Nat} (m : SMap α) (h : lo' ≤ lo) (ok : SMap.okFrom f lo m = true) :
    SMap.okFrom f lo' m = true := by
  cases m with
  | nil => rfl
  | cons p m =>
    obtain ⟨k, v⟩ := p
    simp only [SMap.okFrom, Bool.and_eq_true, decide_eq_true_eq] at ok ⊢
    exact ⟨⟨Nat.le_trans h ok.1.1, ok.1.2⟩, ok.2⟩

theorem SMap.okFrom_filter (f : Nat → α) (q : Nat × α → Bool) (m : SMap α) (lo : Nat) (ok : SMap.okFrom f lo m = true) :
    SMap.okFrom f lo (m.filter q) = true := by
  induction m generalizing lo with
  | nil => rfl
  | cons p m ih =>
    obtain ⟨k, v⟩ := p
    simp only [SMap.okFrom, Bool.and_eq_true, decide_eq_true_eq] at ok
    simp only [List.filter_cons]
    split
    · simp only [SMap.okFrom, Bool.and_eq_true, decide_eq_true_eq]
      exact ⟨ok.1, ih _ ok.2⟩
    · exact SMap.okFrom_mono f _ (Nat.le_trans ok.1.1 (Nat.le_succ k)) (ih _ ok.2)

theorem SMap.okFrom_insert (f : Nat → α) (m : SMap α) (a : Nat) (x : α) (lo : Nat) (h : x ≠ f a) (hlo : lo ≤ a)
    (ok : SMap.okFrom f lo m = true) : SMap.okFrom f lo (SMap.insert m a x) = true := by
  induction m generalizing lo with
  | nil => simp [SMap.insert, SMap.okFrom, h, hlo]
  | cons p m ih =>
    obtain ⟨k, v⟩ := p
    simp only [SMap.okFrom, Bool.and_eq_true, decide_eq_true_eq] at ok
    simp only [SMap.insert]
    split
    · rename_i e
      subst e
      simp only [SMap.okFrom, Bool.and_eq_true, decide_eq_true_eq]
      exact ⟨⟨hlo, h⟩, ok.2⟩
    · split
      · rename_i lt
        simp only [SMap.okFrom, Bool.and_eq_true, decide_eq_true_eq]
        exact ⟨⟨hlo, h⟩, ⟨lt, ok.1.2⟩, ok.2⟩
      · simp only [SMap.okFrom, Bool.and_eq_true, decide_eq_true_eq]
        exact ⟨ok.1, ih _ (by omega) ok.2⟩

/-- A write keeps the canonical form. -/
theorem SMap.ok_put (f : Nat → α) (m : SMap α) (a : Nat) (x : α) (ok : SMap.ok f m = true) : SMap.ok f (SMap.put f m a x) = true := by
  unfold SMap.put
  split
  · exact SMap.okFrom_filter f _ m 0 ok
  · rename_i h
    exact SMap.okFrom_insert f m a x 0 h (Nat.zero_le _) ok

end Maps

/-! ## Byte memories -/

@[simp] theorem Mem.get_put_self (m : Mem) (a : Nat) (b : Byte) : (Mem.put m a b).get a = b := SMap.find_put_self _ m a b

theorem Mem.get_put_ne (m : Mem) {a c : Nat} (b : Byte) (h : c ≠ a) : (Mem.put m a b).get c = Mem.get m c :=
  SMap.find_put_ne _ m b h

/-- A write of bytes leaves what lies outside them alone. -/
theorem Mem.get_write_out (m : Mem) (a c : Nat) (bs : List Byte) (h : c < a ∨ a + bs.length ≤ c) :
    (Mem.write m a bs).get c = Mem.get m c := by
  induction bs generalizing m a with
  | nil => rfl
  | cons b bs ih =>
    simp only [List.length_cons] at h
    simp only [Mem.write]
    rw [ih _ _ (by omega), Mem.get_put_ne _ _ (by omega)]

/-- Reading a byte that was written. -/
theorem Mem.get_write_in (m : Mem) (a i : Nat) (bs : List Byte) (h : i < bs.length) :
    (Mem.write m a bs).get (a + i) = bs[i] := by
  induction bs generalizing m a i with
  | nil => simp at h
  | cons b bs ih =>
    simp only [Mem.write]
    cases i with
    | zero => rw [Mem.get_write_out _ _ _ _ (by omega)]; simp
    | succ i =>
      have := ih (Mem.put m a b) (a + 1) i (by simpa using h)
      rw [show a + (i + 1) = a + 1 + i by omega, this]
      rfl

theorem Memory.wf_put (m : Mem) (a : Nat) (b : Byte) (ok : Memory.wf m = true) : Memory.wf (Mem.put m a b) = true :=
  SMap.ok_put _ m a b ok

theorem Memory.wf_write (m : Mem) (a : Nat) (bs : List Byte) (ok : Memory.wf m = true) : Memory.wf (Mem.write m a bs) = true := by
  induction bs generalizing m a with
  | nil => exact ok
  | cons b bs ih => exact ih _ _ (Memory.wf_put m a b ok)

/-- Every operation that the device posts to a memory keeps the canonical form. -/
theorem Memory.wf_op (m : Mem) (o : MemOp) (ok : Memory.wf m = true) : Memory.wf (Mem.op m o) = true := by
  cases o with
  | wr a bs => exact Memory.wf_write m a bs ok
  | clear a n => exact SMap.okFrom_filter _ _ m 0 ok
  | wipe => rfl

theorem Memory.wf_ops (m : Mem) (l : List MemOp) (ok : Memory.wf m = true) : Memory.wf (Mem.ops m l) = true := by
  induction l generalizing m with
  | nil => exact ok
  | cons o l ih => exact ih _ (Memory.wf_op m o ok)

/-- Every answered state is safe where the state before was. -/
theorem State.safe_commit (s : State) (d : Dev) (h : s.Safe) : (s.commit d).Safe :=
  ⟨Memory.wf_ops _ _ h.host, Memory.wf_ops _ _ h.ledger, Memory.wf_ops _ _ h.flash, rfl, rfl, rfl⟩

theorem Mem.ops_append (m : Mem) (l k : List MemOp) : Mem.ops m (l ++ k) = Mem.ops (Mem.ops m l) k := by
  simp [Mem.ops]

end Sys2Proof.Machine
end

