-- ==== Sys2Proof/Laws/State.lean ====
section
/-! SUPPORT. What the small updates of the device leave alone: one lemma per field and update. -/

namespace Sys2Proof.Machine

/-! ## setReg -/

@[simp] theorem Dev.setReg_clk (d : Dev) (a : Nat) (v : Word) : (d.setReg a v).clk = d.clk := rfl
@[simp] theorem Dev.setReg_ts (d : Dev) (a : Nat) (v : Word) : (d.setReg a v).ts = d.ts := rfl
@[simp] theorem Dev.setReg_refs (d : Dev) (a : Nat) (v : Word) : (d.setReg a v).refs = d.refs := rfl
@[simp] theorem Dev.setReg_tin (d : Dev) (a : Nat) (v : Word) : (d.setReg a v).tin = d.tin := rfl
@[simp] theorem Dev.setReg_gn (d : Dev) (a : Nat) (v : Word) : (d.setReg a v).gn = d.gn := rfl
@[simp] theorem Dev.setReg_cks (d : Dev) (a : Nat) (v : Word) : (d.setReg a v).cks = d.cks := rfl
@[simp] theorem Dev.setReg_pcie (d : Dev) (a : Nat) (v : Word) : (d.setReg a v).pcie = d.pcie := rfl
@[simp] theorem Dev.setReg_dies (d : Dev) (a : Nat) (v : Word) : (d.setReg a v).dies = d.dies := rfl
@[simp] theorem Dev.setReg_temps (d : Dev) (a : Nat) (v : Word) : (d.setReg a v).temps = d.temps := rfl
@[simp] theorem Dev.setReg_keys (d : Dev) (a : Nat) (v : Word) : (d.setReg a v).keys = d.keys := rfl
@[simp] theorem Dev.setReg_bn (d : Dev) (a : Nat) (v : Word) : (d.setReg a v).bn = d.bn := rfl
@[simp] theorem Dev.setReg_nv (d : Dev) (a : Nat) (v : Word) : (d.setReg a v).nv = d.nv := rfl
@[simp] theorem Dev.setReg_upd (d : Dev) (a : Nat) (v : Word) : (d.setReg a v).upd = d.upd := rfl
@[simp] theorem Dev.setReg_ring (d : Dev) (a : Nat) (v : Word) : (d.setReg a v).ring = d.ring := rfl
@[simp] theorem Dev.setReg_pos (d : Dev) (a : Nat) (v : Word) : (d.setReg a v).pos = d.pos := rfl
@[simp] theorem Dev.setReg_eu (d : Dev) (a : Nat) (v : Word) : (d.setReg a v).eu = d.eu := rfl
@[simp] theorem Dev.setReg_md (d : Dev) (a : Nat) (v : Word) : (d.setReg a v).md = d.md := rfl
@[simp] theorem Dev.setReg_streams (d : Dev) (a : Nat) (v : Word) : (d.setReg a v).streams = d.streams := rfl
@[simp] theorem Dev.setReg_sums (d : Dev) (a : Nat) (v : Word) : (d.setReg a v).sums = d.sums := rfl
@[simp] theorem Dev.setReg_statRun (d : Dev) (a : Nat) (v : Word) : (d.setReg a v).statRun = d.statRun := rfl
@[simp] theorem Dev.setReg_ringSnap (d : Dev) (a : Nat) (v : Word) : (d.setReg a v).ringSnap = d.ringSnap := rfl
@[simp] theorem Dev.setReg_batches (d : Dev) (a : Nat) (v : Word) : (d.setReg a v).batches = d.batches := rfl
@[simp] theorem Dev.setReg_openFaults (d : Dev) (a : Nat) (v : Word) : (d.setReg a v).openFaults = d.openFaults := rfl
@[simp] theorem Dev.setReg_ret (d : Dev) (a : Nat) (v : Word) : (d.setReg a v).ret = d.ret := rfl
@[simp] theorem Dev.setReg_hist (d : Dev) (a : Nat) (v : Word) : (d.setReg a v).hist = d.hist := rfl
@[simp] theorem Dev.setReg_out (d : Dev) (a : Nat) (v : Word) : (d.setReg a v).out = d.out := rfl
@[simp] theorem Dev.setReg_posted (d : Dev) (a : Nat) (v : Word) : (d.setReg a v).posted = d.posted := rfl
@[simp] theorem Dev.setReg_lposted (d : Dev) (a : Nat) (v : Word) : (d.setReg a v).lposted = d.lposted := rfl
@[simp] theorem Dev.setReg_fposted (d : Dev) (a : Nat) (v : Word) : (d.setReg a v).fposted = d.fposted := rfl
@[simp] theorem Dev.setReg_freeCtr (d : Dev) (a : Nat) (v : Word) : (d.setReg a v).freeCtr = d.freeCtr := rfl

/-! ## set -/

@[simp] theorem Dev.set_clk (d : Dev) (f : Fld) (v : Nat) : (d.set f v).clk = d.clk := rfl
@[simp] theorem Dev.set_ts (d : Dev) (f : Fld) (v : Nat) : (d.set f v).ts = d.ts := rfl
@[simp] theorem Dev.set_refs (d : Dev) (f : Fld) (v : Nat) : (d.set f v).refs = d.refs := rfl
@[simp] theorem Dev.set_tin (d : Dev) (f : Fld) (v : Nat) : (d.set f v).tin = d.tin := rfl
@[simp] theorem Dev.set_gn (d : Dev) (f : Fld) (v : Nat) : (d.set f v).gn = d.gn := rfl
@[simp] theorem Dev.set_cks (d : Dev) (f : Fld) (v : Nat) : (d.set f v).cks = d.cks := rfl
@[simp] theorem Dev.set_pcie (d : Dev) (f : Fld) (v : Nat) : (d.set f v).pcie = d.pcie := rfl
@[simp] theorem Dev.set_dies (d : Dev) (f : Fld) (v : Nat) : (d.set f v).dies = d.dies := rfl
@[simp] theorem Dev.set_temps (d : Dev) (f : Fld) (v : Nat) : (d.set f v).temps = d.temps := rfl
@[simp] theorem Dev.set_keys (d : Dev) (f : Fld) (v : Nat) : (d.set f v).keys = d.keys := rfl
@[simp] theorem Dev.set_bn (d : Dev) (f : Fld) (v : Nat) : (d.set f v).bn = d.bn := rfl
@[simp] theorem Dev.set_nv (d : Dev) (f : Fld) (v : Nat) : (d.set f v).nv = d.nv := rfl
@[simp] theorem Dev.set_upd (d : Dev) (f : Fld) (v : Nat) : (d.set f v).upd = d.upd := rfl
@[simp] theorem Dev.set_ring (d : Dev) (f : Fld) (v : Nat) : (d.set f v).ring = d.ring := rfl
@[simp] theorem Dev.set_pos (d : Dev) (f : Fld) (v : Nat) : (d.set f v).pos = d.pos := rfl
@[simp] theorem Dev.set_eu (d : Dev) (f : Fld) (v : Nat) : (d.set f v).eu = d.eu := rfl
@[simp] theorem Dev.set_md (d : Dev) (f : Fld) (v : Nat) : (d.set f v).md = d.md := rfl
@[simp] theorem Dev.set_streams (d : Dev) (f : Fld) (v : Nat) : (d.set f v).streams = d.streams := rfl
@[simp] theorem Dev.set_sums (d : Dev) (f : Fld) (v : Nat) : (d.set f v).sums = d.sums := rfl
@[simp] theorem Dev.set_statRun (d : Dev) (f : Fld) (v : Nat) : (d.set f v).statRun = d.statRun := rfl
@[simp] theorem Dev.set_ringSnap (d : Dev) (f : Fld) (v : Nat) : (d.set f v).ringSnap = d.ringSnap := rfl
@[simp] theorem Dev.set_batches (d : Dev) (f : Fld) (v : Nat) : (d.set f v).batches = d.batches := rfl
@[simp] theorem Dev.set_openFaults (d : Dev) (f : Fld) (v : Nat) : (d.set f v).openFaults = d.openFaults := rfl
@[simp] theorem Dev.set_ret (d : Dev) (f : Fld) (v : Nat) : (d.set f v).ret = d.ret := rfl
@[simp] theorem Dev.set_hist (d : Dev) (f : Fld) (v : Nat) : (d.set f v).hist = d.hist := rfl
@[simp] theorem Dev.set_out (d : Dev) (f : Fld) (v : Nat) : (d.set f v).out = d.out := rfl
@[simp] theorem Dev.set_posted (d : Dev) (f : Fld) (v : Nat) : (d.set f v).posted = d.posted := rfl
@[simp] theorem Dev.set_lposted (d : Dev) (f : Fld) (v : Nat) : (d.set f v).lposted = d.lposted := rfl
@[simp] theorem Dev.set_fposted (d : Dev) (f : Fld) (v : Nat) : (d.set f v).fposted = d.fposted := rfl
@[simp] theorem Dev.set_freeCtr (d : Dev) (f : Fld) (v : Nat) : (d.set f v).freeCtr = d.freeCtr := rfl

/-! ## setFlag -/

@[simp] theorem Dev.setFlag_clk (d : Dev) (f : Fld) (b : Bool) : (d.setFlag f b).clk = d.clk := rfl
@[simp] theorem Dev.setFlag_ts (d : Dev) (f : Fld) (b : Bool) : (d.setFlag f b).ts = d.ts := rfl
@[simp] theorem Dev.setFlag_refs (d : Dev) (f : Fld) (b : Bool) : (d.setFlag f b).refs = d.refs := rfl
@[simp] theorem Dev.setFlag_tin (d : Dev) (f : Fld) (b : Bool) : (d.setFlag f b).tin = d.tin := rfl
@[simp] theorem Dev.setFlag_gn (d : Dev) (f : Fld) (b : Bool) : (d.setFlag f b).gn = d.gn := rfl
@[simp] theorem Dev.setFlag_cks (d : Dev) (f : Fld) (b : Bool) : (d.setFlag f b).cks = d.cks := rfl
@[simp] theorem Dev.setFlag_pcie (d : Dev) (f : Fld) (b : Bool) : (d.setFlag f b).pcie = d.pcie := rfl
@[simp] theorem Dev.setFlag_dies (d : Dev) (f : Fld) (b : Bool) : (d.setFlag f b).dies = d.dies := rfl
@[simp] theorem Dev.setFlag_temps (d : Dev) (f : Fld) (b : Bool) : (d.setFlag f b).temps = d.temps := rfl
@[simp] theorem Dev.setFlag_keys (d : Dev) (f : Fld) (b : Bool) : (d.setFlag f b).keys = d.keys := rfl
@[simp] theorem Dev.setFlag_bn (d : Dev) (f : Fld) (b : Bool) : (d.setFlag f b).bn = d.bn := rfl
@[simp] theorem Dev.setFlag_nv (d : Dev) (f : Fld) (b : Bool) : (d.setFlag f b).nv = d.nv := rfl
@[simp] theorem Dev.setFlag_upd (d : Dev) (f : Fld) (b : Bool) : (d.setFlag f b).upd = d.upd := rfl
@[simp] theorem Dev.setFlag_ring (d : Dev) (f : Fld) (b : Bool) : (d.setFlag f b).ring = d.ring := rfl
@[simp] theorem Dev.setFlag_pos (d : Dev) (f : Fld) (b : Bool) : (d.setFlag f b).pos = d.pos := rfl
@[simp] theorem Dev.setFlag_eu (d : Dev) (f : Fld) (b : Bool) : (d.setFlag f b).eu = d.eu := rfl
@[simp] theorem Dev.setFlag_md (d : Dev) (f : Fld) (b : Bool) : (d.setFlag f b).md = d.md := rfl
@[simp] theorem Dev.setFlag_streams (d : Dev) (f : Fld) (b : Bool) : (d.setFlag f b).streams = d.streams := rfl
@[simp] theorem Dev.setFlag_sums (d : Dev) (f : Fld) (b : Bool) : (d.setFlag f b).sums = d.sums := rfl
@[simp] theorem Dev.setFlag_statRun (d : Dev) (f : Fld) (b : Bool) : (d.setFlag f b).statRun = d.statRun := rfl
@[simp] theorem Dev.setFlag_ringSnap (d : Dev) (f : Fld) (b : Bool) : (d.setFlag f b).ringSnap = d.ringSnap := rfl
@[simp] theorem Dev.setFlag_batches (d : Dev) (f : Fld) (b : Bool) : (d.setFlag f b).batches = d.batches := rfl
@[simp] theorem Dev.setFlag_openFaults (d : Dev) (f : Fld) (b : Bool) : (d.setFlag f b).openFaults = d.openFaults := rfl
@[simp] theorem Dev.setFlag_ret (d : Dev) (f : Fld) (b : Bool) : (d.setFlag f b).ret = d.ret := rfl
@[simp] theorem Dev.setFlag_hist (d : Dev) (f : Fld) (b : Bool) : (d.setFlag f b).hist = d.hist := rfl
@[simp] theorem Dev.setFlag_out (d : Dev) (f : Fld) (b : Bool) : (d.setFlag f b).out = d.out := rfl
@[simp] theorem Dev.setFlag_posted (d : Dev) (f : Fld) (b : Bool) : (d.setFlag f b).posted = d.posted := rfl
@[simp] theorem Dev.setFlag_lposted (d : Dev) (f : Fld) (b : Bool) : (d.setFlag f b).lposted = d.lposted := rfl
@[simp] theorem Dev.setFlag_fposted (d : Dev) (f : Fld) (b : Bool) : (d.setFlag f b).fposted = d.fposted := rfl
@[simp] theorem Dev.setFlag_freeCtr (d : Dev) (f : Fld) (b : Bool) : (d.setFlag f b).freeCtr = d.freeCtr := rfl

/-! ## stick -/

@[simp] theorem Dev.stick_clk (d : Dev) (a b : Nat) : (d.stick a b).clk = d.clk := rfl
@[simp] theorem Dev.stick_ts (d : Dev) (a b : Nat) : (d.stick a b).ts = d.ts := rfl
@[simp] theorem Dev.stick_refs (d : Dev) (a b : Nat) : (d.stick a b).refs = d.refs := rfl
@[simp] theorem Dev.stick_tin (d : Dev) (a b : Nat) : (d.stick a b).tin = d.tin := rfl
@[simp] theorem Dev.stick_gn (d : Dev) (a b : Nat) : (d.stick a b).gn = d.gn := rfl
@[simp] theorem Dev.stick_cks (d : Dev) (a b : Nat) : (d.stick a b).cks = d.cks := rfl
@[simp] theorem Dev.stick_pcie (d : Dev) (a b : Nat) : (d.stick a b).pcie = d.pcie := rfl
@[simp] theorem Dev.stick_dies (d : Dev) (a b : Nat) : (d.stick a b).dies = d.dies := rfl
@[simp] theorem Dev.stick_temps (d : Dev) (a b : Nat) : (d.stick a b).temps = d.temps := rfl
@[simp] theorem Dev.stick_keys (d : Dev) (a b : Nat) : (d.stick a b).keys = d.keys := rfl
@[simp] theorem Dev.stick_bn (d : Dev) (a b : Nat) : (d.stick a b).bn = d.bn := rfl
@[simp] theorem Dev.stick_nv (d : Dev) (a b : Nat) : (d.stick a b).nv = d.nv := rfl
@[simp] theorem Dev.stick_upd (d : Dev) (a b : Nat) : (d.stick a b).upd = d.upd := rfl
@[simp] theorem Dev.stick_ring (d : Dev) (a b : Nat) : (d.stick a b).ring = d.ring := rfl
@[simp] theorem Dev.stick_pos (d : Dev) (a b : Nat) : (d.stick a b).pos = d.pos := rfl
@[simp] theorem Dev.stick_eu (d : Dev) (a b : Nat) : (d.stick a b).eu = d.eu := rfl
@[simp] theorem Dev.stick_md (d : Dev) (a b : Nat) : (d.stick a b).md = d.md := rfl
@[simp] theorem Dev.stick_streams (d : Dev) (a b : Nat) : (d.stick a b).streams = d.streams := rfl
@[simp] theorem Dev.stick_sums (d : Dev) (a b : Nat) : (d.stick a b).sums = d.sums := rfl
@[simp] theorem Dev.stick_statRun (d : Dev) (a b : Nat) : (d.stick a b).statRun = d.statRun := rfl
@[simp] theorem Dev.stick_ringSnap (d : Dev) (a b : Nat) : (d.stick a b).ringSnap = d.ringSnap := rfl
@[simp] theorem Dev.stick_batches (d : Dev) (a b : Nat) : (d.stick a b).batches = d.batches := rfl
@[simp] theorem Dev.stick_openFaults (d : Dev) (a b : Nat) : (d.stick a b).openFaults = d.openFaults := rfl
@[simp] theorem Dev.stick_ret (d : Dev) (a b : Nat) : (d.stick a b).ret = d.ret := rfl
@[simp] theorem Dev.stick_hist (d : Dev) (a b : Nat) : (d.stick a b).hist = d.hist := rfl
@[simp] theorem Dev.stick_out (d : Dev) (a b : Nat) : (d.stick a b).out = d.out := rfl
@[simp] theorem Dev.stick_posted (d : Dev) (a b : Nat) : (d.stick a b).posted = d.posted := rfl
@[simp] theorem Dev.stick_lposted (d : Dev) (a b : Nat) : (d.stick a b).lposted = d.lposted := rfl
@[simp] theorem Dev.stick_fposted (d : Dev) (a b : Nat) : (d.stick a b).fposted = d.fposted := rfl
@[simp] theorem Dev.stick_freeCtr (d : Dev) (a b : Nat) : (d.stick a b).freeCtr = d.freeCtr := rfl

/-! ## count32 -/

@[simp] theorem Dev.count32_clk (d : Dev) (a n : Nat) : (d.count32 a n).clk = d.clk := rfl
@[simp] theorem Dev.count32_ts (d : Dev) (a n : Nat) : (d.count32 a n).ts = d.ts := rfl
@[simp] theorem Dev.count32_refs (d : Dev) (a n : Nat) : (d.count32 a n).refs = d.refs := rfl
@[simp] theorem Dev.count32_tin (d : Dev) (a n : Nat) : (d.count32 a n).tin = d.tin := rfl
@[simp] theorem Dev.count32_gn (d : Dev) (a n : Nat) : (d.count32 a n).gn = d.gn := rfl
@[simp] theorem Dev.count32_cks (d : Dev) (a n : Nat) : (d.count32 a n).cks = d.cks := rfl
@[simp] theorem Dev.count32_pcie (d : Dev) (a n : Nat) : (d.count32 a n).pcie = d.pcie := rfl
@[simp] theorem Dev.count32_dies (d : Dev) (a n : Nat) : (d.count32 a n).dies = d.dies := rfl
@[simp] theorem Dev.count32_temps (d : Dev) (a n : Nat) : (d.count32 a n).temps = d.temps := rfl
@[simp] theorem Dev.count32_keys (d : Dev) (a n : Nat) : (d.count32 a n).keys = d.keys := rfl
@[simp] theorem Dev.count32_bn (d : Dev) (a n : Nat) : (d.count32 a n).bn = d.bn := rfl
@[simp] theorem Dev.count32_nv (d : Dev) (a n : Nat) : (d.count32 a n).nv = d.nv := rfl
@[simp] theorem Dev.count32_upd (d : Dev) (a n : Nat) : (d.count32 a n).upd = d.upd := rfl
@[simp] theorem Dev.count32_ring (d : Dev) (a n : Nat) : (d.count32 a n).ring = d.ring := rfl
@[simp] theorem Dev.count32_pos (d : Dev) (a n : Nat) : (d.count32 a n).pos = d.pos := rfl
@[simp] theorem Dev.count32_eu (d : Dev) (a n : Nat) : (d.count32 a n).eu = d.eu := rfl
@[simp] theorem Dev.count32_md (d : Dev) (a n : Nat) : (d.count32 a n).md = d.md := rfl
@[simp] theorem Dev.count32_streams (d : Dev) (a n : Nat) : (d.count32 a n).streams = d.streams := rfl
@[simp] theorem Dev.count32_sums (d : Dev) (a n : Nat) : (d.count32 a n).sums = d.sums := rfl
@[simp] theorem Dev.count32_statRun (d : Dev) (a n : Nat) : (d.count32 a n).statRun = d.statRun := rfl
@[simp] theorem Dev.count32_ringSnap (d : Dev) (a n : Nat) : (d.count32 a n).ringSnap = d.ringSnap := rfl
@[simp] theorem Dev.count32_batches (d : Dev) (a n : Nat) : (d.count32 a n).batches = d.batches := rfl
@[simp] theorem Dev.count32_openFaults (d : Dev) (a n : Nat) : (d.count32 a n).openFaults = d.openFaults := rfl
@[simp] theorem Dev.count32_ret (d : Dev) (a n : Nat) : (d.count32 a n).ret = d.ret := rfl
@[simp] theorem Dev.count32_hist (d : Dev) (a n : Nat) : (d.count32 a n).hist = d.hist := rfl
@[simp] theorem Dev.count32_out (d : Dev) (a n : Nat) : (d.count32 a n).out = d.out := rfl
@[simp] theorem Dev.count32_posted (d : Dev) (a n : Nat) : (d.count32 a n).posted = d.posted := rfl
@[simp] theorem Dev.count32_lposted (d : Dev) (a n : Nat) : (d.count32 a n).lposted = d.lposted := rfl
@[simp] theorem Dev.count32_fposted (d : Dev) (a n : Nat) : (d.count32 a n).fposted = d.fposted := rfl
@[simp] theorem Dev.count32_freeCtr (d : Dev) (a n : Nat) : (d.count32 a n).freeCtr = d.freeCtr := rfl

/-! ## countSat -/

@[simp] theorem Dev.countSat_clk (d : Dev) (f : Fld) (n : Nat) : (d.countSat f n).clk = d.clk := rfl
@[simp] theorem Dev.countSat_ts (d : Dev) (f : Fld) (n : Nat) : (d.countSat f n).ts = d.ts := rfl
@[simp] theorem Dev.countSat_refs (d : Dev) (f : Fld) (n : Nat) : (d.countSat f n).refs = d.refs := rfl
@[simp] theorem Dev.countSat_tin (d : Dev) (f : Fld) (n : Nat) : (d.countSat f n).tin = d.tin := rfl
@[simp] theorem Dev.countSat_gn (d : Dev) (f : Fld) (n : Nat) : (d.countSat f n).gn = d.gn := rfl
@[simp] theorem Dev.countSat_cks (d : Dev) (f : Fld) (n : Nat) : (d.countSat f n).cks = d.cks := rfl
@[simp] theorem Dev.countSat_pcie (d : Dev) (f : Fld) (n : Nat) : (d.countSat f n).pcie = d.pcie := rfl
@[simp] theorem Dev.countSat_dies (d : Dev) (f : Fld) (n : Nat) : (d.countSat f n).dies = d.dies := rfl
@[simp] theorem Dev.countSat_temps (d : Dev) (f : Fld) (n : Nat) : (d.countSat f n).temps = d.temps := rfl
@[simp] theorem Dev.countSat_keys (d : Dev) (f : Fld) (n : Nat) : (d.countSat f n).keys = d.keys := rfl
@[simp] theorem Dev.countSat_bn (d : Dev) (f : Fld) (n : Nat) : (d.countSat f n).bn = d.bn := rfl
@[simp] theorem Dev.countSat_nv (d : Dev) (f : Fld) (n : Nat) : (d.countSat f n).nv = d.nv := rfl
@[simp] theorem Dev.countSat_upd (d : Dev) (f : Fld) (n : Nat) : (d.countSat f n).upd = d.upd := rfl
@[simp] theorem Dev.countSat_ring (d : Dev) (f : Fld) (n : Nat) : (d.countSat f n).ring = d.ring := rfl
@[simp] theorem Dev.countSat_pos (d : Dev) (f : Fld) (n : Nat) : (d.countSat f n).pos = d.pos := rfl
@[simp] theorem Dev.countSat_eu (d : Dev) (f : Fld) (n : Nat) : (d.countSat f n).eu = d.eu := rfl
@[simp] theorem Dev.countSat_md (d : Dev) (f : Fld) (n : Nat) : (d.countSat f n).md = d.md := rfl
@[simp] theorem Dev.countSat_streams (d : Dev) (f : Fld) (n : Nat) : (d.countSat f n).streams = d.streams := rfl
@[simp] theorem Dev.countSat_sums (d : Dev) (f : Fld) (n : Nat) : (d.countSat f n).sums = d.sums := rfl
@[simp] theorem Dev.countSat_statRun (d : Dev) (f : Fld) (n : Nat) : (d.countSat f n).statRun = d.statRun := rfl
@[simp] theorem Dev.countSat_ringSnap (d : Dev) (f : Fld) (n : Nat) : (d.countSat f n).ringSnap = d.ringSnap := rfl
@[simp] theorem Dev.countSat_batches (d : Dev) (f : Fld) (n : Nat) : (d.countSat f n).batches = d.batches := rfl
@[simp] theorem Dev.countSat_openFaults (d : Dev) (f : Fld) (n : Nat) : (d.countSat f n).openFaults = d.openFaults := rfl
@[simp] theorem Dev.countSat_ret (d : Dev) (f : Fld) (n : Nat) : (d.countSat f n).ret = d.ret := rfl
@[simp] theorem Dev.countSat_hist (d : Dev) (f : Fld) (n : Nat) : (d.countSat f n).hist = d.hist := rfl
@[simp] theorem Dev.countSat_out (d : Dev) (f : Fld) (n : Nat) : (d.countSat f n).out = d.out := rfl
@[simp] theorem Dev.countSat_posted (d : Dev) (f : Fld) (n : Nat) : (d.countSat f n).posted = d.posted := rfl
@[simp] theorem Dev.countSat_lposted (d : Dev) (f : Fld) (n : Nat) : (d.countSat f n).lposted = d.lposted := rfl
@[simp] theorem Dev.countSat_fposted (d : Dev) (f : Fld) (n : Nat) : (d.countSat f n).fposted = d.fposted := rfl
@[simp] theorem Dev.countSat_freeCtr (d : Dev) (f : Fld) (n : Nat) : (d.countSat f n).freeCtr = d.freeCtr := rfl

/-! ## setWide and what is built on it -/

@[simp] theorem Dev.setWide_clk (d : Dev) (a k v : Nat) : (d.setWide a k v).clk = d.clk := by
  induction k generalizing d a v with
  | zero => rfl
  | succ k ih => simp [Dev.setWide, ih]
@[simp] theorem Dev.setWide_ts (d : Dev) (a k v : Nat) : (d.setWide a k v).ts = d.ts := by
  induction k generalizing d a v with
  | zero => rfl
  | succ k ih => simp [Dev.setWide, ih]
@[simp] theorem Dev.setWide_refs (d : Dev) (a k v : Nat) : (d.setWide a k v).refs = d.refs := by
  induction k generalizing d a v with
  | zero => rfl
  | succ k ih => simp [Dev.setWide, ih]
@[simp] theorem Dev.setWide_tin (d : Dev) (a k v : Nat) : (d.setWide a k v).tin = d.tin := by
  induction k generalizing d a v with
  | zero => rfl
  | succ k ih => simp [Dev.setWide, ih]
@[simp] theorem Dev.setWide_gn (d : Dev) (a k v : Nat) : (d.setWide a k v).gn = d.gn := by
  induction k generalizing d a v with
  | zero => rfl
  | succ k ih => simp [Dev.setWide, ih]
@[simp] theorem Dev.setWide_cks (d : Dev) (a k v : Nat) : (d.setWide a k v).cks = d.cks := by
  induction k generalizing d a v with
  | zero => rfl
  | succ k ih => simp [Dev.setWide, ih]
@[simp] theorem Dev.setWide_pcie (d : Dev) (a k v : Nat) : (d.setWide a k v).pcie = d.pcie := by
  induction k generalizing d a v with
  | zero => rfl
  | succ k ih => simp [Dev.setWide, ih]
@[simp] theorem Dev.setWide_dies (d : Dev) (a k v : Nat) : (d.setWide a k v).dies = d.dies := by
  induction k generalizing d a v with
  | zero => rfl
  | succ k ih => simp [Dev.setWide, ih]
@[simp] theorem Dev.setWide_temps (d : Dev) (a k v : Nat) : (d.setWide a k v).temps = d.temps := by
  induction k generalizing d a v with
  | zero => rfl
  | succ k ih => simp [Dev.setWide, ih]
@[simp] theorem Dev.setWide_keys (d : Dev) (a k v : Nat) : (d.setWide a k v).keys = d.keys := by
  induction k generalizing d a v with
  | zero => rfl
  | succ k ih => simp [Dev.setWide, ih]
@[simp] theorem Dev.setWide_bn (d : Dev) (a k v : Nat) : (d.setWide a k v).bn = d.bn := by
  induction k generalizing d a v with
  | zero => rfl
  | succ k ih => simp [Dev.setWide, ih]
@[simp] theorem Dev.setWide_nv (d : Dev) (a k v : Nat) : (d.setWide a k v).nv = d.nv := by
  induction k generalizing d a v with
  | zero => rfl
  | succ k ih => simp [Dev.setWide, ih]
@[simp] theorem Dev.setWide_upd (d : Dev) (a k v : Nat) : (d.setWide a k v).upd = d.upd := by
  induction k generalizing d a v with
  | zero => rfl
  | succ k ih => simp [Dev.setWide, ih]
@[simp] theorem Dev.setWide_ring (d : Dev) (a k v : Nat) : (d.setWide a k v).ring = d.ring := by
  induction k generalizing d a v with
  | zero => rfl
  | succ k ih => simp [Dev.setWide, ih]
@[simp] theorem Dev.setWide_pos (d : Dev) (a k v : Nat) : (d.setWide a k v).pos = d.pos := by
  induction k generalizing d a v with
  | zero => rfl
  | succ k ih => simp [Dev.setWide, ih]
@[simp] theorem Dev.setWide_eu (d : Dev) (a k v : Nat) : (d.setWide a k v).eu = d.eu := by
  induction k generalizing d a v with
  | zero => rfl
  | succ k ih => simp [Dev.setWide, ih]
@[simp] theorem Dev.setWide_md (d : Dev) (a k v : Nat) : (d.setWide a k v).md = d.md := by
  induction k generalizing d a v with
  | zero => rfl
  | succ k ih => simp [Dev.setWide, ih]
@[simp] theorem Dev.setWide_streams (d : Dev) (a k v : Nat) : (d.setWide a k v).streams = d.streams := by
  induction k generalizing d a v with
  | zero => rfl
  | succ k ih => simp [Dev.setWide, ih]
@[simp] theorem Dev.setWide_sums (d : Dev) (a k v : Nat) : (d.setWide a k v).sums = d.sums := by
  induction k generalizing d a v with
  | zero => rfl
  | succ k ih => simp [Dev.setWide, ih]
@[simp] theorem Dev.setWide_statRun (d : Dev) (a k v : Nat) : (d.setWide a k v).statRun = d.statRun := by
  induction k generalizing d a v with
  | zero => rfl
  | succ k ih => simp [Dev.setWide, ih]
@[simp] theorem Dev.setWide_ringSnap (d : Dev) (a k v : Nat) : (d.setWide a k v).ringSnap = d.ringSnap := by
  induction k generalizing d a v with
  | zero => rfl
  | succ k ih => simp [Dev.setWide, ih]
@[simp] theorem Dev.setWide_batches (d : Dev) (a k v : Nat) : (d.setWide a k v).batches = d.batches := by
  induction k generalizing d a v with
  | zero => rfl
  | succ k ih => simp [Dev.setWide, ih]
@[simp] theorem Dev.setWide_openFaults (d : Dev) (a k v : Nat) : (d.setWide a k v).openFaults = d.openFaults := by
  induction k generalizing d a v with
  | zero => rfl
  | succ k ih => simp [Dev.setWide, ih]
@[simp] theorem Dev.setWide_ret (d : Dev) (a k v : Nat) : (d.setWide a k v).ret = d.ret := by
  induction k generalizing d a v with
  | zero => rfl
  | succ k ih => simp [Dev.setWide, ih]
@[simp] theorem Dev.setWide_hist (d : Dev) (a k v : Nat) : (d.setWide a k v).hist = d.hist := by
  induction k generalizing d a v with
  | zero => rfl
  | succ k ih => simp [Dev.setWide, ih]
@[simp] theorem Dev.setWide_out (d : Dev) (a k v : Nat) : (d.setWide a k v).out = d.out := by
  induction k generalizing d a v with
  | zero => rfl
  | succ k ih => simp [Dev.setWide, ih]
@[simp] theorem Dev.setWide_posted (d : Dev) (a k v : Nat) : (d.setWide a k v).posted = d.posted := by
  induction k generalizing d a v with
  | zero => rfl
  | succ k ih => simp [Dev.setWide, ih]
@[simp] theorem Dev.setWide_lposted (d : Dev) (a k v : Nat) : (d.setWide a k v).lposted = d.lposted := by
  induction k generalizing d a v with
  | zero => rfl
  | succ k ih => simp [Dev.setWide, ih]
@[simp] theorem Dev.setWide_fposted (d : Dev) (a k v : Nat) : (d.setWide a k v).fposted = d.fposted := by
  induction k generalizing d a v with
  | zero => rfl
  | succ k ih => simp [Dev.setWide, ih]
@[simp] theorem Dev.setWide_freeCtr (d : Dev) (a k v : Nat) : (d.setWide a k v).freeCtr = d.freeCtr := by
  induction k generalizing d a v with
  | zero => rfl
  | succ k ih => simp [Dev.setWide, ih]

@[simp] theorem Dev.set64_clk (d : Dev) (a v : Nat) : (d.set64 a v).clk = d.clk := by simp [Dev.set64]
@[simp] theorem Dev.set64_ts (d : Dev) (a v : Nat) : (d.set64 a v).ts = d.ts := by simp [Dev.set64]
@[simp] theorem Dev.set64_refs (d : Dev) (a v : Nat) : (d.set64 a v).refs = d.refs := by simp [Dev.set64]
@[simp] theorem Dev.set64_tin (d : Dev) (a v : Nat) : (d.set64 a v).tin = d.tin := by simp [Dev.set64]
@[simp] theorem Dev.set64_gn (d : Dev) (a v : Nat) : (d.set64 a v).gn = d.gn := by simp [Dev.set64]
@[simp] theorem Dev.set64_cks (d : Dev) (a v : Nat) : (d.set64 a v).cks = d.cks := by simp [Dev.set64]
@[simp] theorem Dev.set64_pcie (d : Dev) (a v : Nat) : (d.set64 a v).pcie = d.pcie := by simp [Dev.set64]
@[simp] theorem Dev.set64_dies (d : Dev) (a v : Nat) : (d.set64 a v).dies = d.dies := by simp [Dev.set64]
@[simp] theorem Dev.set64_temps (d : Dev) (a v : Nat) : (d.set64 a v).temps = d.temps := by simp [Dev.set64]
@[simp] theorem Dev.set64_keys (d : Dev) (a v : Nat) : (d.set64 a v).keys = d.keys := by simp [Dev.set64]
@[simp] theorem Dev.set64_bn (d : Dev) (a v : Nat) : (d.set64 a v).bn = d.bn := by simp [Dev.set64]
@[simp] theorem Dev.set64_nv (d : Dev) (a v : Nat) : (d.set64 a v).nv = d.nv := by simp [Dev.set64]
@[simp] theorem Dev.set64_upd (d : Dev) (a v : Nat) : (d.set64 a v).upd = d.upd := by simp [Dev.set64]
@[simp] theorem Dev.set64_ring (d : Dev) (a v : Nat) : (d.set64 a v).ring = d.ring := by simp [Dev.set64]
@[simp] theorem Dev.set64_pos (d : Dev) (a v : Nat) : (d.set64 a v).pos = d.pos := by simp [Dev.set64]
@[simp] theorem Dev.set64_eu (d : Dev) (a v : Nat) : (d.set64 a v).eu = d.eu := by simp [Dev.set64]
@[simp] theorem Dev.set64_md (d : Dev) (a v : Nat) : (d.set64 a v).md = d.md := by simp [Dev.set64]
@[simp] theorem Dev.set64_streams (d : Dev) (a v : Nat) : (d.set64 a v).streams = d.streams := by simp [Dev.set64]
@[simp] theorem Dev.set64_sums (d : Dev) (a v : Nat) : (d.set64 a v).sums = d.sums := by simp [Dev.set64]
@[simp] theorem Dev.set64_statRun (d : Dev) (a v : Nat) : (d.set64 a v).statRun = d.statRun := by simp [Dev.set64]
@[simp] theorem Dev.set64_ringSnap (d : Dev) (a v : Nat) : (d.set64 a v).ringSnap = d.ringSnap := by simp [Dev.set64]
@[simp] theorem Dev.set64_batches (d : Dev) (a v : Nat) : (d.set64 a v).batches = d.batches := by simp [Dev.set64]
@[simp] theorem Dev.set64_openFaults (d : Dev) (a v : Nat) : (d.set64 a v).openFaults = d.openFaults := by simp [Dev.set64]
@[simp] theorem Dev.set64_ret (d : Dev) (a v : Nat) : (d.set64 a v).ret = d.ret := by simp [Dev.set64]
@[simp] theorem Dev.set64_hist (d : Dev) (a v : Nat) : (d.set64 a v).hist = d.hist := by simp [Dev.set64]
@[simp] theorem Dev.set64_out (d : Dev) (a v : Nat) : (d.set64 a v).out = d.out := by simp [Dev.set64]
@[simp] theorem Dev.set64_posted (d : Dev) (a v : Nat) : (d.set64 a v).posted = d.posted := by simp [Dev.set64]
@[simp] theorem Dev.set64_lposted (d : Dev) (a v : Nat) : (d.set64 a v).lposted = d.lposted := by simp [Dev.set64]
@[simp] theorem Dev.set64_fposted (d : Dev) (a v : Nat) : (d.set64 a v).fposted = d.fposted := by simp [Dev.set64]
@[simp] theorem Dev.set64_freeCtr (d : Dev) (a v : Nat) : (d.set64 a v).freeCtr = d.freeCtr := by simp [Dev.set64]
@[simp] theorem Dev.count64_clk (d : Dev) (a n : Nat) : (d.count64 a n).clk = d.clk := by simp [Dev.count64]
@[simp] theorem Dev.count64_ts (d : Dev) (a n : Nat) : (d.count64 a n).ts = d.ts := by simp [Dev.count64]
@[simp] theorem Dev.count64_refs (d : Dev) (a n : Nat) : (d.count64 a n).refs = d.refs := by simp [Dev.count64]
@[simp] theorem Dev.count64_tin (d : Dev) (a n : Nat) : (d.count64 a n).tin = d.tin := by simp [Dev.count64]
@[simp] theorem Dev.count64_gn (d : Dev) (a n : Nat) : (d.count64 a n).gn = d.gn := by simp [Dev.count64]
@[simp] theorem Dev.count64_cks (d : Dev) (a n : Nat) : (d.count64 a n).cks = d.cks := by simp [Dev.count64]
@[simp] theorem Dev.count64_pcie (d : Dev) (a n : Nat) : (d.count64 a n).pcie = d.pcie := by simp [Dev.count64]
@[simp] theorem Dev.count64_dies (d : Dev) (a n : Nat) : (d.count64 a n).dies = d.dies := by simp [Dev.count64]
@[simp] theorem Dev.count64_temps (d : Dev) (a n : Nat) : (d.count64 a n).temps = d.temps := by simp [Dev.count64]
@[simp] theorem Dev.count64_keys (d : Dev) (a n : Nat) : (d.count64 a n).keys = d.keys := by simp [Dev.count64]
@[simp] theorem Dev.count64_bn (d : Dev) (a n : Nat) : (d.count64 a n).bn = d.bn := by simp [Dev.count64]
@[simp] theorem Dev.count64_nv (d : Dev) (a n : Nat) : (d.count64 a n).nv = d.nv := by simp [Dev.count64]
@[simp] theorem Dev.count64_upd (d : Dev) (a n : Nat) : (d.count64 a n).upd = d.upd := by simp [Dev.count64]
@[simp] theorem Dev.count64_ring (d : Dev) (a n : Nat) : (d.count64 a n).ring = d.ring := by simp [Dev.count64]
@[simp] theorem Dev.count64_pos (d : Dev) (a n : Nat) : (d.count64 a n).pos = d.pos := by simp [Dev.count64]
@[simp] theorem Dev.count64_eu (d : Dev) (a n : Nat) : (d.count64 a n).eu = d.eu := by simp [Dev.count64]
@[simp] theorem Dev.count64_md (d : Dev) (a n : Nat) : (d.count64 a n).md = d.md := by simp [Dev.count64]
@[simp] theorem Dev.count64_streams (d : Dev) (a n : Nat) : (d.count64 a n).streams = d.streams := by simp [Dev.count64]
@[simp] theorem Dev.count64_sums (d : Dev) (a n : Nat) : (d.count64 a n).sums = d.sums := by simp [Dev.count64]
@[simp] theorem Dev.count64_statRun (d : Dev) (a n : Nat) : (d.count64 a n).statRun = d.statRun := by simp [Dev.count64]
@[simp] theorem Dev.count64_ringSnap (d : Dev) (a n : Nat) : (d.count64 a n).ringSnap = d.ringSnap := by simp [Dev.count64]
@[simp] theorem Dev.count64_batches (d : Dev) (a n : Nat) : (d.count64 a n).batches = d.batches := by simp [Dev.count64]
@[simp] theorem Dev.count64_openFaults (d : Dev) (a n : Nat) : (d.count64 a n).openFaults = d.openFaults := by simp [Dev.count64]
@[simp] theorem Dev.count64_ret (d : Dev) (a n : Nat) : (d.count64 a n).ret = d.ret := by simp [Dev.count64]
@[simp] theorem Dev.count64_hist (d : Dev) (a n : Nat) : (d.count64 a n).hist = d.hist := by simp [Dev.count64]
@[simp] theorem Dev.count64_out (d : Dev) (a n : Nat) : (d.count64 a n).out = d.out := by simp [Dev.count64]
@[simp] theorem Dev.count64_posted (d : Dev) (a n : Nat) : (d.count64 a n).posted = d.posted := by simp [Dev.count64]
@[simp] theorem Dev.count64_lposted (d : Dev) (a n : Nat) : (d.count64 a n).lposted = d.lposted := by simp [Dev.count64]
@[simp] theorem Dev.count64_fposted (d : Dev) (a n : Nat) : (d.count64 a n).fposted = d.fposted := by simp [Dev.count64]
@[simp] theorem Dev.count64_freeCtr (d : Dev) (a n : Nat) : (d.count64 a n).freeCtr = d.freeCtr := by simp [Dev.count64]
@[simp] theorem Dev.setTime_clk (d : Dev) (a : Nat) (t : Int) : (d.setTime a t).clk = d.clk := by simp [Dev.setTime]
@[simp] theorem Dev.setTime_ts (d : Dev) (a : Nat) (t : Int) : (d.setTime a t).ts = d.ts := by simp [Dev.setTime]
@[simp] theorem Dev.setTime_refs (d : Dev) (a : Nat) (t : Int) : (d.setTime a t).refs = d.refs := by simp [Dev.setTime]
@[simp] theorem Dev.setTime_tin (d : Dev) (a : Nat) (t : Int) : (d.setTime a t).tin = d.tin := by simp [Dev.setTime]
@[simp] theorem Dev.setTime_gn (d : Dev) (a : Nat) (t : Int) : (d.setTime a t).gn = d.gn := by simp [Dev.setTime]
@[simp] theorem Dev.setTime_cks (d : Dev) (a : Nat) (t : Int) : (d.setTime a t).cks = d.cks := by simp [Dev.setTime]
@[simp] theorem Dev.setTime_pcie (d : Dev) (a : Nat) (t : Int) : (d.setTime a t).pcie = d.pcie := by simp [Dev.setTime]
@[simp] theorem Dev.setTime_dies (d : Dev) (a : Nat) (t : Int) : (d.setTime a t).dies = d.dies := by simp [Dev.setTime]
@[simp] theorem Dev.setTime_temps (d : Dev) (a : Nat) (t : Int) : (d.setTime a t).temps = d.temps := by simp [Dev.setTime]
@[simp] theorem Dev.setTime_keys (d : Dev) (a : Nat) (t : Int) : (d.setTime a t).keys = d.keys := by simp [Dev.setTime]
@[simp] theorem Dev.setTime_bn (d : Dev) (a : Nat) (t : Int) : (d.setTime a t).bn = d.bn := by simp [Dev.setTime]
@[simp] theorem Dev.setTime_nv (d : Dev) (a : Nat) (t : Int) : (d.setTime a t).nv = d.nv := by simp [Dev.setTime]
@[simp] theorem Dev.setTime_upd (d : Dev) (a : Nat) (t : Int) : (d.setTime a t).upd = d.upd := by simp [Dev.setTime]
@[simp] theorem Dev.setTime_ring (d : Dev) (a : Nat) (t : Int) : (d.setTime a t).ring = d.ring := by simp [Dev.setTime]
@[simp] theorem Dev.setTime_pos (d : Dev) (a : Nat) (t : Int) : (d.setTime a t).pos = d.pos := by simp [Dev.setTime]
@[simp] theorem Dev.setTime_eu (d : Dev) (a : Nat) (t : Int) : (d.setTime a t).eu = d.eu := by simp [Dev.setTime]
@[simp] theorem Dev.setTime_md (d : Dev) (a : Nat) (t : Int) : (d.setTime a t).md = d.md := by simp [Dev.setTime]
@[simp] theorem Dev.setTime_streams (d : Dev) (a : Nat) (t : Int) : (d.setTime a t).streams = d.streams := by simp [Dev.setTime]
@[simp] theorem Dev.setTime_sums (d : Dev) (a : Nat) (t : Int) : (d.setTime a t).sums = d.sums := by simp [Dev.setTime]
@[simp] theorem Dev.setTime_statRun (d : Dev) (a : Nat) (t : Int) : (d.setTime a t).statRun = d.statRun := by simp [Dev.setTime]
@[simp] theorem Dev.setTime_ringSnap (d : Dev) (a : Nat) (t : Int) : (d.setTime a t).ringSnap = d.ringSnap := by simp [Dev.setTime]
@[simp] theorem Dev.setTime_batches (d : Dev) (a : Nat) (t : Int) : (d.setTime a t).batches = d.batches := by simp [Dev.setTime]
@[simp] theorem Dev.setTime_openFaults (d : Dev) (a : Nat) (t : Int) : (d.setTime a t).openFaults = d.openFaults := by simp [Dev.setTime]
@[simp] theorem Dev.setTime_ret (d : Dev) (a : Nat) (t : Int) : (d.setTime a t).ret = d.ret := by simp [Dev.setTime]
@[simp] theorem Dev.setTime_hist (d : Dev) (a : Nat) (t : Int) : (d.setTime a t).hist = d.hist := by simp [Dev.setTime]
@[simp] theorem Dev.setTime_out (d : Dev) (a : Nat) (t : Int) : (d.setTime a t).out = d.out := by simp [Dev.setTime]
@[simp] theorem Dev.setTime_posted (d : Dev) (a : Nat) (t : Int) : (d.setTime a t).posted = d.posted := by simp [Dev.setTime]
@[simp] theorem Dev.setTime_lposted (d : Dev) (a : Nat) (t : Int) : (d.setTime a t).lposted = d.lposted := by simp [Dev.setTime]
@[simp] theorem Dev.setTime_fposted (d : Dev) (a : Nat) (t : Int) : (d.setTime a t).fposted = d.fposted := by simp [Dev.setTime]
@[simp] theorem Dev.setTime_freeCtr (d : Dev) (a : Nat) (t : Int) : (d.setTime a t).freeCtr = d.freeCtr := by simp [Dev.setTime]

/-! ## Updates of other fields keep the registers -/

@[simp] theorem Dev.reg_with_clk (d : Dev) (x) (a : Nat) : ({ d with clk := x } : Dev).reg a = d.reg a := rfl
@[simp] theorem Dev.reg_with_ts (d : Dev) (x) (a : Nat) : ({ d with ts := x } : Dev).reg a = d.reg a := rfl
@[simp] theorem Dev.reg_with_refs (d : Dev) (x) (a : Nat) : ({ d with refs := x } : Dev).reg a = d.reg a := rfl
@[simp] theorem Dev.reg_with_tin (d : Dev) (x) (a : Nat) : ({ d with tin := x } : Dev).reg a = d.reg a := rfl
@[simp] theorem Dev.reg_with_gn (d : Dev) (x) (a : Nat) : ({ d with gn := x } : Dev).reg a = d.reg a := rfl
@[simp] theorem Dev.reg_with_cks (d : Dev) (x) (a : Nat) : ({ d with cks := x } : Dev).reg a = d.reg a := rfl
@[simp] theorem Dev.reg_with_pcie (d : Dev) (x) (a : Nat) : ({ d with pcie := x } : Dev).reg a = d.reg a := rfl
@[simp] theorem Dev.reg_with_dies (d : Dev) (x) (a : Nat) : ({ d with dies := x } : Dev).reg a = d.reg a := rfl
@[simp] theorem Dev.reg_with_temps (d : Dev) (x) (a : Nat) : ({ d with temps := x } : Dev).reg a = d.reg a := rfl
@[simp] theorem Dev.reg_with_keys (d : Dev) (x) (a : Nat) : ({ d with keys := x } : Dev).reg a = d.reg a := rfl
@[simp] theorem Dev.reg_with_bn (d : Dev) (x) (a : Nat) : ({ d with bn := x } : Dev).reg a = d.reg a := rfl
@[simp] theorem Dev.reg_with_nv (d : Dev) (x) (a : Nat) : ({ d with nv := x } : Dev).reg a = d.reg a := rfl
@[simp] theorem Dev.reg_with_upd (d : Dev) (x) (a : Nat) : ({ d with upd := x } : Dev).reg a = d.reg a := rfl
@[simp] theorem Dev.reg_with_ring (d : Dev) (x) (a : Nat) : ({ d with ring := x } : Dev).reg a = d.reg a := rfl
@[simp] theorem Dev.reg_with_pos (d : Dev) (x) (a : Nat) : ({ d with pos := x } : Dev).reg a = d.reg a := rfl
@[simp] theorem Dev.reg_with_eu (d : Dev) (x) (a : Nat) : ({ d with eu := x } : Dev).reg a = d.reg a := rfl
@[simp] theorem Dev.reg_with_md (d : Dev) (x) (a : Nat) : ({ d with md := x } : Dev).reg a = d.reg a := rfl
@[simp] theorem Dev.reg_with_streams (d : Dev) (x) (a : Nat) : ({ d with streams := x } : Dev).reg a = d.reg a := rfl
@[simp] theorem Dev.reg_with_sums (d : Dev) (x) (a : Nat) : ({ d with sums := x } : Dev).reg a = d.reg a := rfl
@[simp] theorem Dev.reg_with_statRun (d : Dev) (x) (a : Nat) : ({ d with statRun := x } : Dev).reg a = d.reg a := rfl
@[simp] theorem Dev.reg_with_ringSnap (d : Dev) (x) (a : Nat) : ({ d with ringSnap := x } : Dev).reg a = d.reg a := rfl
@[simp] theorem Dev.reg_with_batches (d : Dev) (x) (a : Nat) : ({ d with batches := x } : Dev).reg a = d.reg a := rfl
@[simp] theorem Dev.reg_with_openFaults (d : Dev) (x) (a : Nat) : ({ d with openFaults := x } : Dev).reg a = d.reg a := rfl
@[simp] theorem Dev.reg_with_ret (d : Dev) (x) (a : Nat) : ({ d with ret := x } : Dev).reg a = d.reg a := rfl
@[simp] theorem Dev.reg_with_hist (d : Dev) (x) (a : Nat) : ({ d with hist := x } : Dev).reg a = d.reg a := rfl
@[simp] theorem Dev.reg_with_out (d : Dev) (x) (a : Nat) : ({ d with out := x } : Dev).reg a = d.reg a := rfl
@[simp] theorem Dev.reg_with_posted (d : Dev) (x) (a : Nat) : ({ d with posted := x } : Dev).reg a = d.reg a := rfl
@[simp] theorem Dev.reg_with_lposted (d : Dev) (x) (a : Nat) : ({ d with lposted := x } : Dev).reg a = d.reg a := rfl
@[simp] theorem Dev.reg_with_fposted (d : Dev) (x) (a : Nat) : ({ d with fposted := x } : Dev).reg a = d.reg a := rfl
@[simp] theorem Dev.reg_with_freeCtr (d : Dev) (x) (a : Nat) : ({ d with freeCtr := x } : Dev).reg a = d.reg a := rfl

@[simp] theorem Dev.reg_emit (d : Dev) (x : Output) (a : Nat) : (d.emit x).reg a = d.reg a := rfl
@[simp] theorem Dev.reg_post (d : Dev) (p : Nat) (bs : List Byte) (a : Nat) : (d.post p bs).reg a = d.reg a := rfl
@[simp] theorem Dev.reg_lpost (d : Dev) (p : Nat) (bs : List Byte) (a : Nat) : (d.lpost p bs).reg a = d.reg a := rfl
@[simp] theorem Dev.reg_fpost (d : Dev) (p : Nat) (bs : List Byte) (a : Nat) : (d.fpost p bs).reg a = d.reg a := rfl
@[simp] theorem Dev.reg_draw (d : Dev) (a : Nat) : (d.draw.2).reg a = d.reg a := rfl

/-! ## The answer of a command -/

@[simp] theorem State.commit_pending (s : State) (d : Dev) : (s.commit d).pending = s.pending := rfl
@[simp] theorem State.commit_host (s : State) (d : Dev) : (s.commit d).host = Mem.ops s.host d.posted := rfl
@[simp] theorem State.commit_ledger (s : State) (d : Dev) : (s.commit d).ledger = Mem.ops s.ledger d.lposted := rfl
@[simp] theorem State.commit_flash (s : State) (d : Dev) : (s.commit d).flash = Mem.ops s.flash d.fposted := rfl
@[simp] theorem State.commit_reg (s : State) (d : Dev) (a : Nat) : (s.commit d).dev.reg a = d.reg a := rfl
@[simp] theorem State.commit_get (s : State) (d : Dev) (f : Fld) : (s.commit d).dev.get f = d.get f := rfl
@[simp] theorem State.commit_flag (s : State) (d : Dev) (f : Fld) : (s.commit d).dev.flag f = d.flag f := rfl
@[simp] theorem State.commit_dev_bus (s : State) (d : Dev) : (s.commit d).dev.bus = d.bus := rfl
@[simp] theorem State.commit_dev_clk (s : State) (d : Dev) : (s.commit d).dev.clk = d.clk := rfl
@[simp] theorem State.commit_dev_ts (s : State) (d : Dev) : (s.commit d).dev.ts = d.ts := rfl
@[simp] theorem State.commit_dev_refs (s : State) (d : Dev) : (s.commit d).dev.refs = d.refs := rfl
@[simp] theorem State.commit_dev_tin (s : State) (d : Dev) : (s.commit d).dev.tin = d.tin := rfl
@[simp] theorem State.commit_dev_gn (s : State) (d : Dev) : (s.commit d).dev.gn = d.gn := rfl
@[simp] theorem State.commit_dev_cks (s : State) (d : Dev) : (s.commit d).dev.cks = d.cks := rfl
@[simp] theorem State.commit_dev_pcie (s : State) (d : Dev) : (s.commit d).dev.pcie = d.pcie := rfl
@[simp] theorem State.commit_dev_dies (s : State) (d : Dev) : (s.commit d).dev.dies = d.dies := rfl
@[simp] theorem State.commit_dev_temps (s : State) (d : Dev) : (s.commit d).dev.temps = d.temps := rfl
@[simp] theorem State.commit_dev_keys (s : State) (d : Dev) : (s.commit d).dev.keys = d.keys := rfl
@[simp] theorem State.commit_dev_bn (s : State) (d : Dev) : (s.commit d).dev.bn = d.bn := rfl
@[simp] theorem State.commit_dev_nv (s : State) (d : Dev) : (s.commit d).dev.nv = d.nv := rfl
@[simp] theorem State.commit_dev_upd (s : State) (d : Dev) : (s.commit d).dev.upd = d.upd := rfl
@[simp] theorem State.commit_dev_ring (s : State) (d : Dev) : (s.commit d).dev.ring = d.ring := rfl
@[simp] theorem State.commit_dev_pos (s : State) (d : Dev) : (s.commit d).dev.pos = d.pos := rfl
@[simp] theorem State.commit_dev_eu (s : State) (d : Dev) : (s.commit d).dev.eu = d.eu := rfl
@[simp] theorem State.commit_dev_md (s : State) (d : Dev) : (s.commit d).dev.md = d.md := rfl
@[simp] theorem State.commit_dev_streams (s : State) (d : Dev) : (s.commit d).dev.streams = d.streams := rfl
@[simp] theorem State.commit_dev_sums (s : State) (d : Dev) : (s.commit d).dev.sums = d.sums := rfl
@[simp] theorem State.commit_dev_statRun (s : State) (d : Dev) : (s.commit d).dev.statRun = d.statRun := rfl
@[simp] theorem State.commit_dev_ringSnap (s : State) (d : Dev) : (s.commit d).dev.ringSnap = d.ringSnap := rfl
@[simp] theorem State.commit_dev_batches (s : State) (d : Dev) : (s.commit d).dev.batches = d.batches := rfl
@[simp] theorem State.commit_dev_openFaults (s : State) (d : Dev) : (s.commit d).dev.openFaults = d.openFaults := rfl
@[simp] theorem State.commit_dev_ret (s : State) (d : Dev) : (s.commit d).dev.ret = d.ret := rfl
@[simp] theorem State.commit_dev_hist (s : State) (d : Dev) : (s.commit d).dev.hist = d.hist := rfl
@[simp] theorem State.commit_dev_out (s : State) (d : Dev) : (s.commit d).dev.out = d.out := rfl
@[simp] theorem State.commit_posted (s : State) (d : Dev) : (s.commit d).dev.posted = [] := rfl
@[simp] theorem State.commit_lposted (s : State) (d : Dev) : (s.commit d).dev.lposted = [] := rfl
@[simp] theorem State.commit_fposted (s : State) (d : Dev) : (s.commit d).dev.fposted = [] := rfl
@[simp] theorem State.commit_dev_freeCtr (s : State) (d : Dev) : (s.commit d).dev.freeCtr = d.freeCtr := rfl

end Sys2Proof.Machine
end

