-- ==== Sys2Proof/Laws/Regs.lean ====
section
/-! SUPPORT. Registers: reading a register or a field after a write of it or of another. -/

namespace Sys2Proof.Machine

/-! ## Whole registers -/

@[simp] theorem Dev.reg_setReg_self (d : Dev) (a : Nat) (v : Word) : (d.setReg a v).reg a = v := SMap.find_put_self _ _ _ _

theorem Dev.reg_setReg_ne (d : Dev) {a b : Nat} (v : Word) (h : b ≠ a) : (d.setReg a v).reg b = d.reg b :=
  SMap.find_put_ne _ _ _ h

theorem Dev.reg_set_ne (d : Dev) (f : Fld) (v : Nat) {b : Nat} (h : b ≠ f.addr) : (d.set f v).reg b = d.reg b :=
  Dev.reg_setReg_ne d _ h

theorem Dev.reg_setFlag_ne (d : Dev) (f : Fld) (v : Bool) {b : Nat} (h : b ≠ f.addr) : (d.setFlag f v).reg b = d.reg b :=
  Dev.reg_setReg_ne d _ h

theorem Dev.reg_stick_ne (d : Dev) (a k : Nat) {b : Nat} (h : b ≠ a) : (d.stick a k).reg b = d.reg b :=
  Dev.reg_setReg_ne d _ h

theorem Dev.reg_count32_ne (d : Dev) (a n : Nat) {b : Nat} (h : b ≠ a) : (d.count32 a n).reg b = d.reg b :=
  Dev.reg_setReg_ne d _ h

@[simp] theorem Dev.reg_count32_self (d : Dev) (a n : Nat) : (d.count32 a n).reg a = d.reg a + BitVec.ofNat 32 n :=
  Dev.reg_setReg_self d _ _

theorem Dev.reg_countSat_ne (d : Dev) (f : Fld) (n : Nat) {b : Nat} (h : b ≠ f.addr) : (d.countSat f n).reg b = d.reg b :=
  Dev.reg_setReg_ne d _ h

theorem Dev.reg_setWide_ne (d : Dev) (a k v : Nat) {b : Nat} (h : b < a ∨ a + 4 * k ≤ b) : (d.setWide a k v).reg b = d.reg b := by
  induction k generalizing d a v with
  | zero => rfl
  | succ k ih =>
    simp only [Dev.setWide]
    rw [ih _ _ _ (by omega), Dev.reg_setReg_ne _ _ (by omega)]

theorem Dev.reg_set64_ne (d : Dev) (a v : Nat) {b : Nat} (h : b < a ∨ a + 8 ≤ b) : (d.set64 a v).reg b = d.reg b :=
  Dev.reg_setWide_ne d a 2 v (by omega)

theorem Dev.reg_count64_ne (d : Dev) (a n : Nat) {b : Nat} (h : b < a ∨ a + 8 ≤ b) : (d.count64 a n).reg b = d.reg b :=
  Dev.reg_setWide_ne d a 2 _ (by omega)

theorem Dev.reg_setTime_ne (d : Dev) (a : Nat) (t : Int) {b : Nat} (h : b < a ∨ a + 16 ≤ b) : (d.setTime a t).reg b = d.reg b :=
  Dev.reg_setWide_ne d a 4 _ (by omega)

/-- A value over k words reads back modulo its width. -/
theorem Dev.wide_setWide (d : Dev) (a k v : Nat) : (d.setWide a k v).wide a k = v % 2 ^ (32 * k) := by
  induction k generalizing d a v with
  | zero => simp [Dev.wide, Nat.mod_one]
  | succ k ih =>
    simp only [Dev.setWide, Dev.wide]
    rw [Dev.reg_setWide_ne _ _ _ _ (by omega), ih, Dev.reg_setReg_self, BitVec.toNat_ofNat,
      show 32 * (k + 1) = 32 + 32 * k by omega, Nat.pow_add, Nat.mod_mul]

theorem Dev.get64_set64 (d : Dev) (a v : Nat) : (d.set64 a v).get64 a = v % 2 ^ 64 := Dev.wide_setWide d a 2 v

theorem Dev.get64_congr (d e : Dev) (a : Nat) (h0 : e.reg a = d.reg a) (h1 : e.reg (a + 4) = d.reg (a + 4)) : e.get64 a = d.get64 a := by
  simp [Dev.get64, Dev.wide, h0, h1]

/-! ## Fields -/

theorem bits_lt (hi lo : Nat) (w : Word) : bits hi lo w < 2 ^ (hi + 1 - lo) := Nat.mod_lt _ (Nat.two_pow_pos _)

theorem bits_le (hi lo : Nat) (w : Word) : bits hi lo w * 2 ^ lo ≤ w.toNat := by
  unfold bits
  have h1 : (w.toNat >>> lo) % 2 ^ (hi + 1 - lo) ≤ w.toNat >>> lo := Nat.mod_le _ _
  have h2 : w.toNat >>> lo * 2 ^ lo ≤ w.toNat := by rw [Nat.shiftRight_eq_div_pow]; exact Nat.div_mul_le_self _ _
  exact Nat.le_trans (Nat.mul_le_mul_right _ h1) h2

/-- The parts of a word below, in and above a field. -/
theorem word_split (hi lo : Nat) (w : Word) (h : lo ≤ hi) :
    w.toNat = w.toNat % 2 ^ lo + bits hi lo w * 2 ^ lo + w.toNat / 2 ^ (hi + 1) * 2 ^ (hi + 1) := by
  unfold bits
  rw [Nat.shiftRight_eq_div_pow]
  have e : 2 ^ (hi + 1) = 2 ^ lo * 2 ^ (hi + 1 - lo) := by rw [← Nat.pow_add]; congr 1; omega
  have a := Nat.div_add_mod w.toNat (2 ^ lo)
  have b := Nat.div_add_mod (w.toNat / 2 ^ lo) (2 ^ (hi + 1 - lo))
  rw [e, ← Nat.div_div_eq_div_mul]
  generalize hq : w.toNat / 2 ^ lo / 2 ^ (hi + 1 - lo) = q at *
  generalize hr : w.toNat / 2 ^ lo % 2 ^ (hi + 1 - lo) = r at *
  generalize ht : w.toNat / 2 ^ lo = t at *
  generalize hs : w.toNat % 2 ^ lo = u at *
  rw [← a, ← b]
  ring

/-- What a word becomes when a field is written: the parts below and above stay. -/
theorem putBits_toNat (hi lo : Nat) (w : Word) (v : Nat) (h : lo ≤ hi) (h2 : hi < 32) :
    (putBits hi lo w v).toNat =
      w.toNat % 2 ^ lo + (v % 2 ^ (hi + 1 - lo)) * 2 ^ lo + w.toNat / 2 ^ (hi + 1) * 2 ^ (hi + 1) := by
  have sp := word_split hi lo w h
  have le := bits_le hi lo w
  have hw := w.isLt
  unfold putBits
  simp only [BitVec.toNat_ofNat]
  have e : w.toNat - bits hi lo w * 2 ^ lo = w.toNat % 2 ^ lo + w.toNat / 2 ^ (hi + 1) * 2 ^ (hi + 1) := by omega
  rw [e, Nat.mod_eq_of_lt]
  · omega
  · have hv : v % 2 ^ (hi + 1 - lo) < 2 ^ (hi + 1 - lo) := Nat.mod_lt _ (Nat.two_pow_pos _)
    have hl : w.toNat % 2 ^ lo < 2 ^ lo := Nat.mod_lt _ (Nat.two_pow_pos _)
    have p : 2 ^ (hi + 1) = 2 ^ (hi + 1 - lo) * 2 ^ lo := by rw [← Nat.pow_add]; congr 1; omega
    have q : (2 : Nat) ^ 32 = 2 ^ (31 - hi) * 2 ^ (hi + 1) := by rw [← Nat.pow_add]; congr 1; omega
    have hd : w.toNat / 2 ^ (hi + 1) < 2 ^ (31 - hi) := by
      rw [Nat.div_lt_iff_lt_mul (Nat.two_pow_pos _), ← q]; exact hw
    have m1 : (v % 2 ^ (hi + 1 - lo) + 1) * 2 ^ lo ≤ 2 ^ (hi + 1) := by
      rw [p]; exact Nat.mul_le_mul_right _ hv
    have m2 : (w.toNat / 2 ^ (hi + 1) + 1) * 2 ^ (hi + 1) ≤ 2 ^ 32 := by
      rw [q]; exact Nat.mul_le_mul_right _ hd
    rw [Nat.add_mul] at m1 m2
    omega

/-- A field reads what was written to it. -/
theorem bits_putBits_self (hi lo : Nat) (w : Word) (v : Nat) (h : lo ≤ hi) (h2 : hi < 32) :
    bits hi lo (putBits hi lo w v) = v % 2 ^ (hi + 1 - lo) := by
  have e := putBits_toNat hi lo w v h h2
  conv_lhs => unfold bits
  rw [Nat.shiftRight_eq_div_pow, e]
  have p : 2 ^ (hi + 1) = 2 ^ (hi + 1 - lo) * 2 ^ lo := by rw [← Nat.pow_add]; congr 1; omega
  have hl : w.toNat % 2 ^ lo < 2 ^ lo := Nat.mod_lt _ (Nat.two_pow_pos _)
  have : w.toNat % 2 ^ lo + v % 2 ^ (hi + 1 - lo) * 2 ^ lo + w.toNat / 2 ^ (hi + 1) * 2 ^ (hi + 1)
      = w.toNat % 2 ^ lo + 2 ^ lo * (v % 2 ^ (hi + 1 - lo) + 2 ^ (hi + 1 - lo) * (w.toNat / 2 ^ (hi + 1))) := by
    rw [p]; ring
  rw [this, Nat.add_mul_div_left _ _ (Nat.two_pow_pos _), Nat.div_eq_of_lt hl, Nat.zero_add, Nat.add_mul_mod_self_left,
    Nat.mod_mod]

/-- A field is unchanged by a write to a field of the same register that shares no bit with it. -/
theorem bits_putBits_ne (hi lo hi' lo' : Nat) (w : Word) (v : Nat) (h : lo ≤ hi) (h2 : hi < 32) (h3 : lo' ≤ hi') (_ : hi' < 32)
    (hd : hi' < lo ∨ hi < lo') : bits hi' lo' (putBits hi lo w v) = bits hi' lo' w := by
  have e := putBits_toNat hi lo w v h h2
  have sp := word_split hi lo w h
  unfold bits
  rw [Nat.shiftRight_eq_div_pow, Nat.shiftRight_eq_div_pow, e]
  have p : 2 ^ (hi + 1) = 2 ^ (hi + 1 - lo) * 2 ^ lo := by rw [← Nat.pow_add]; congr 1; omega
  rcases hd with hd | hd
  · -- the field lies below
    have q : 2 ^ lo = 2 ^ (hi' + 1) * 2 ^ (lo - (hi' + 1)) := by rw [← Nat.pow_add]; congr 1; omega
    have q' : 2 ^ (hi + 1) = 2 ^ (hi' + 1) * 2 ^ (hi + 1 - (hi' + 1)) := by rw [← Nat.pow_add]; congr 1; omega
    have key : ∀ x : Nat, x / 2 ^ lo' % 2 ^ (hi' + 1 - lo') = x % 2 ^ (hi' + 1) / 2 ^ lo' := by
      intro x
      rw [show 2 ^ (hi' + 1) = 2 ^ lo' * 2 ^ (hi' + 1 - lo') by rw [← Nat.pow_add]; congr 1; omega, Nat.mod_mul_right_div_self]
    rw [key, key]
    congr 1
    conv_rhs => rw [sp]
    have f1 : ∀ a b c : Nat, (a + b * 2 ^ lo + c * 2 ^ (hi + 1)) % 2 ^ (hi' + 1) = a % 2 ^ (hi' + 1) := by
      intro a b c
      rw [q', q, show a + b * (2 ^ (hi' + 1) * 2 ^ (lo - (hi' + 1))) + c * (2 ^ (hi' + 1) * 2 ^ (hi + 1 - (hi' + 1)))
        = a + 2 ^ (hi' + 1) * (b * 2 ^ (lo - (hi' + 1)) + c * 2 ^ (hi + 1 - (hi' + 1))) by ring, Nat.add_mul_mod_self_left]
    rw [f1, f1]
  · -- the field lies above
    have q : 2 ^ lo' = 2 ^ (hi + 1) * 2 ^ (lo' - (hi + 1)) := by rw [← Nat.pow_add]; congr 1; omega
    have g : ∀ b : Nat, b < 2 ^ (hi + 1 - lo) →
        (w.toNat % 2 ^ lo + b * 2 ^ lo + w.toNat / 2 ^ (hi + 1) * 2 ^ (hi + 1)) / 2 ^ (hi + 1) = w.toNat / 2 ^ (hi + 1) := by
      intro b hb
      have hl : w.toNat % 2 ^ lo < 2 ^ lo := Nat.mod_lt _ (Nat.two_pow_pos _)
      have m1 : (b + 1) * 2 ^ lo ≤ 2 ^ (hi + 1) := by rw [p]; exact Nat.mul_le_mul_right _ hb
      rw [Nat.add_mul] at m1
      rw [Nat.add_mul_div_right _ _ (Nat.two_pow_pos _), Nat.div_eq_of_lt (by omega), Nat.zero_add]
    have g1 := g (v % 2 ^ (hi + 1 - lo)) (Nat.mod_lt _ (Nat.two_pow_pos _))
    rw [q, ← Nat.div_div_eq_div_mul, ← Nat.div_div_eq_div_mul, g1]

/-- A field that lies within a register. -/
def Fld.Ok (f : Fld) : Prop := f.lo ≤ f.hi ∧ f.hi < 32

theorem Dev.get_set_self (d : Dev) (f : Fld) (v : Nat) (h : f.Ok) : (d.set f v).get f = v % 2 ^ (f.hi + 1 - f.lo) := by
  unfold Dev.get Dev.set
  rw [Dev.reg_setReg_self]
  exact bits_putBits_self _ _ _ _ h.1 h.2

/-- A field of another register is unchanged by a write. -/
theorem Dev.get_set_addr (d : Dev) (f g : Fld) (v : Nat) (h : g.addr ≠ f.addr) : (d.set f v).get g = d.get g := by
  unfold Dev.get
  rw [Dev.reg_set_ne _ _ _ h]

/-- Another field of the same register is unchanged by a write. -/
theorem Dev.get_set_bits (d : Dev) (f g : Fld) (v : Nat) (hf : f.Ok) (hg : g.Ok) (h : g.hi < f.lo ∨ f.hi < g.lo) :
    (d.set f v).get g = d.get g := by
  by_cases e : g.addr = f.addr
  · unfold Dev.get Dev.set
    rw [e, Dev.reg_setReg_self]
    exact bits_putBits_ne _ _ _ _ _ _ hf.1 hf.2 hg.1 hg.2 h
  · exact Dev.get_set_addr d f g v e

theorem Dev.get_congr {d e : Dev} (f : Fld) (h : e.reg f.addr = d.reg f.addr) : e.get f = d.get f := by
  unfold Dev.get; rw [h]

theorem Dev.flag_setFlag_self (d : Dev) (f : Fld) (b : Bool) (h : f.hi = f.lo) (h2 : f.hi < 32) : (d.setFlag f b).flag f = b := by
  unfold Dev.flag Dev.setFlag
  rw [Dev.get_set_self d f _ ⟨by omega, h2⟩, h, show f.lo + 1 - f.lo = 1 by omega]
  cases b <;> rfl

end Sys2Proof.Machine
end

