-- ==== Sys2Proof/Laws/Events.lean ====
section
/-! SUPPORT. Everything that raising, delivering and counting events can do to the device (R354 to R359, R430 to R432). -/

namespace Sys2Proof.Machine

variable {R : Nat → Prop} {d e f : Dev}

theorem Dev.Only.refl (d : Dev) : Dev.Only R d d where
  rest := rfl
  bus := rfl
  pcie := rfl
  reg := fun _ _ _ _ => rfl
  vectors := fun v h => ⟨v, h, rfl⟩
  rings := fun _ _ => rfl
  place := ⟨rfl, rfl⟩
  head := Or.inl rfl
  posted := ⟨[], by simp, by simp⟩
  out := ⟨[], by simp, by simp⟩

/-- A place of deliveries after events is one before. -/
theorem Dev.Only.eventPlace (h : Dev.Only R d e) {a n : Nat} (k : e.EventPlace a n) : d.EventPlace a n := by
  obtain ⟨hn, i, hi, ha⟩ | ⟨hn, v, hv, ha⟩ := k
  · refine Or.inl ⟨hn, i, ?_, ?_⟩
    · rw [h.place.2] at hi
      obtain hi | hi := hi
      · obtain p | p := h.head
        · exact Or.inl (hi.trans p)
        · exact Or.inr (hi ▸ p)
      · exact Or.inr hi
    · rw [ha, Dev.descAddr, Dev.descAddr, h.place.1]
  · obtain ⟨w, hw, e⟩ := h.vectors v hv
    exact Or.inr ⟨hn, w, hw, ha.trans e⟩

theorem Dev.Only.eventOp (h : Dev.Only R d e) {w : MemOp} (k : e.EventOp w) : d.EventOp w := by
  cases w with
  | wr a bs => exact h.eventPlace k
  | clear _ _ => exact k
  | wipe => exact k

theorem Dev.Only.trans (h : Dev.Only R d e) (k : Dev.Only R e f) : Dev.Only R d f where
  rest := by have a := h.rest; have b := k.rest; rw [← a, ← b]
  bus := by have a := h.bus; have b := k.bus; rw [← a, ← b]
  pcie := by have a := h.pcie; have b := k.pcie; rw [← a, ← b]
  reg := fun x p q r => (k.reg x p q r).trans (h.reg x p q r)
  vectors := fun v hv => by
    obtain ⟨w, hw, e1⟩ := k.vectors v hv
    obtain ⟨x, hx, e2⟩ := h.vectors w hw
    exact ⟨x, hx, e1.trans e2⟩
  rings := fun r hr => (k.rings r hr).trans (h.rings r hr)
  place := ⟨k.place.1.trans h.place.1, k.place.2.trans h.place.2⟩
  head := by
    obtain p | p := k.head
    · rw [p]; exact h.head
    · exact Or.inr (h.place.2 ▸ p)
  posted := by
    obtain ⟨a, ha, qa⟩ := h.posted
    obtain ⟨b, hb, qb⟩ := k.posted
    refine ⟨a ++ b, by rw [hb, ha, List.append_assoc], fun w hw => ?_⟩
    obtain hw | hw := List.mem_append.1 hw
    · exact qa w hw
    · exact h.eventOp (qb w hw)
  out := by
    obtain ⟨a, ha, qa⟩ := h.out
    obtain ⟨b, hb, qb⟩ := k.out
    refine ⟨b ++ a, by rw [hb, ha, List.append_assoc], fun w hw => ?_⟩
    obtain hw | hw := List.mem_append.1 hw
    · exact qb w hw
    · exact qa w hw

theorem Dev.Only.mono {R' : Nat → Prop} (h : Dev.Only R d e) (k : ∀ a, R a → R' a) : Dev.Only R' d e :=
  { h with reg := fun a p q r => h.reg a p q (fun x => r (k a x)) }

/-- What only raises and counts events keeps any wider bound. -/
theorem Dev.Quiet.only (h : Dev.Quiet d e) : Dev.Only R d e := Dev.Only.mono h (fun _ x => x.elim)

/-- A command whose device differs so leaves this frame. -/
theorem State.frame_commit (s : State) (x d : Dev) (hp : x.posted = []) (hl : x.lposted = []) (hf : x.fposted = [])
    (h : Dev.Only R x d) : State.Frame R { s with dev := x } (s.commit d) where
  rest := by
    have := h.rest
    simp only [State.commit]
    conv_rhs => rw [← this]
    have e1 := congrArg Dev.lposted this
    have e2 := congrArg Dev.fposted this
    simp only [hl, hf] at e1 e2
    simp [hp, e1, e2]
  bus := h.bus
  pcie := h.pcie
  reg := h.reg
  rings := h.rings
  out := by
    obtain ⟨os, e, k⟩ := h.out
    have z : os.filter (fun o => !o.isMsix) = [] := List.filter_eq_nil_iff.2 (fun o ho => by simp [k o ho])
    simp [State.commit, e, List.filter_append, z]
  host := fun a na => by
    obtain ⟨ws, hw, q⟩ := h.posted
    rw [hp, List.nil_append] at hw
    simp only [State.commit, hw]
    clear hw
    generalize s.host = m
    induction ws generalizing m with
    | nil => rfl
    | cons w ws ih =>
      have e : Mem.get (Mem.op m w) a = Mem.get m a := by
        have k := q w (by simp)
        cases w with
        | wr b bs =>
          apply Mem.get_write_out
          by_contra hc
          exact na ⟨b, bs.length, k, by omega, by omega⟩
        | clear _ _ => exact k.elim
        | wipe => exact k.elim
      exact (ih (fun v hv => q v (by simp [hv])) (Mem.op m w)).trans e
  ledger := fun a => by
    have e1 := congrArg Dev.lposted h.rest
    simp only at e1
    simp [State.commit, e1, hl, Mem.ops]
  flash := fun a => by
    have e1 := congrArg Dev.fposted h.rest
    simp only at e1
    simp [State.commit, e1, hf, Mem.ops]
  pending := rfl

/-- A command that changes nothing but registers of R, against device x. -/
theorem State.still_commit (s : State) (x d : Dev) (hp : x.posted = []) (hl : x.lposted = []) (hf : x.fposted = [])
    (h : { d with bus.regs := x.bus.regs } = x) (hr : ∀ a, ¬ R a → d.reg a = x.reg a) :
    State.Still R { s with dev := x } (s.commit d) := by
  have e1 : d.posted = [] := by rw [← hp, ← h]
  have e2 : d.lposted = [] := by rw [← hl, ← h]
  have e3 : d.fposted = [] := by rw [← hf, ← h]
  have e4 : ({ d with posted := [], lposted := [], fposted := [] } : Dev) = d := by
    cases d; simp only at e1 e2 e3; simp [e1, e2, e3]
  refine ⟨?_, hr, ?_, ?_, ?_, rfl⟩
  · simp only [State.commit, e4]; exact h
  · intro a; simp [State.commit, e1, Mem.ops]
  · intro a; simp [State.commit, e2, Mem.ops]
  · intro a; simp [State.commit, e3, Mem.ops]

/-! ## Parts that stay -/

section
variable (h : Dev.Only R d e)
include h

theorem Dev.Only.clk : e.clk = d.clk := by
  have := congrArg Dev.clk h.rest; exact this
theorem Dev.Only.ts : e.ts = d.ts := by
  have := congrArg Dev.ts h.rest; exact this
theorem Dev.Only.refs : e.refs = d.refs := by
  have := congrArg Dev.refs h.rest; exact this
theorem Dev.Only.tin : e.tin = d.tin := by
  have := congrArg Dev.tin h.rest; exact this
theorem Dev.Only.gn : e.gn = d.gn := by
  have := congrArg Dev.gn h.rest; exact this
theorem Dev.Only.cks : e.cks = d.cks := by
  have := congrArg Dev.cks h.rest; exact this
theorem Dev.Only.dies : e.dies = d.dies := by
  have := congrArg Dev.dies h.rest; exact this
theorem Dev.Only.temps : e.temps = d.temps := by
  have := congrArg Dev.temps h.rest; exact this
theorem Dev.Only.keys : e.keys = d.keys := by
  have := congrArg Dev.keys h.rest; exact this
theorem Dev.Only.bn : e.bn = d.bn := by
  have := congrArg Dev.bn h.rest; exact this
theorem Dev.Only.nv : e.nv = d.nv := by
  have := congrArg Dev.nv h.rest; exact this
theorem Dev.Only.upd : e.upd = d.upd := by
  have := congrArg Dev.upd h.rest; exact this
theorem Dev.Only.ring : e.ring = d.ring := by
  have := congrArg Dev.ring h.rest; exact this
theorem Dev.Only.pos : e.pos = d.pos := by
  have := congrArg Dev.pos h.rest; exact this
theorem Dev.Only.eu : e.eu = d.eu := by
  have := congrArg Dev.eu h.rest; exact this
theorem Dev.Only.md : e.md = d.md := by
  have := congrArg Dev.md h.rest; exact this
theorem Dev.Only.streams : e.streams = d.streams := by
  have := congrArg Dev.streams h.rest; exact this
theorem Dev.Only.sums : e.sums = d.sums := by
  have := congrArg Dev.sums h.rest; exact this
theorem Dev.Only.statRun : e.statRun = d.statRun := by
  have := congrArg Dev.statRun h.rest; exact this
theorem Dev.Only.batches : e.batches = d.batches := by
  have := congrArg Dev.batches h.rest; exact this
theorem Dev.Only.openFaults : e.openFaults = d.openFaults := by
  have := congrArg Dev.openFaults h.rest; exact this
theorem Dev.Only.ret : e.ret = d.ret := by
  have := congrArg Dev.ret h.rest; exact this
theorem Dev.Only.hist : e.hist = d.hist := by
  have := congrArg Dev.hist h.rest; exact this
theorem Dev.Only.lposted : e.lposted = d.lposted := by
  have := congrArg Dev.lposted h.rest; exact this
theorem Dev.Only.fposted : e.fposted = d.fposted := by
  have := congrArg Dev.fposted h.rest; exact this
theorem Dev.Only.freeCtr : e.freeCtr = d.freeCtr := by
  have := congrArg Dev.freeCtr h.rest; exact this
theorem Dev.Only.cmds : e.pcie.cmds = d.pcie.cmds := by
  have := congrArg Pcie.cmds h.pcie; exact this
theorem Dev.Only.perstN : e.pcie.perstN = d.pcie.perstN := by
  have := congrArg Pcie.perstN h.pcie; exact this
theorem Dev.Only.linkUp : e.pcie.linkUp = d.pcie.linkUp := by
  have := congrArg Pcie.linkUp h.pcie; exact this
theorem Dev.Only.busMaster : e.pcie.busMaster = d.pcie.busMaster := by
  have := congrArg Pcie.busMaster h.pcie; exact this
theorem Dev.Only.funcMask : e.pcie.funcMask = d.pcie.funcMask := by
  have := congrArg Pcie.funcMask h.pcie; exact this
theorem Dev.Only.staged : e.bus.staged = d.bus.staged := by
  have := congrArg Bus.staged h.bus; exact this
theorem Dev.Only.latched : e.bus.latched = d.bus.latched := by
  have := congrArg Bus.latched h.bus; exact this
theorem Dev.Only.arms : e.bus.arms = d.bus.arms := by
  have := congrArg Bus.arms h.bus; exact this
theorem Dev.Only.shadow : e.bus.shadow = d.bus.shadow := by
  have := congrArg Bus.shadow h.bus; exact this

end

/-! ## Both sides with one part replaced -/

section
variable (h : Dev.Only R d e)
include h

theorem Dev.Only.with_clk (y) : Dev.Only R { d with clk := y } { e with clk := y } :=
  { bus := h.bus, pcie := h.pcie, reg := h.reg, vectors := h.vectors, rings := h.rings, place := h.place, head := h.head,
    posted := h.posted, out := h.out, rest := by have := congrArg (fun x : Dev => { x with clk := y }) h.rest; exact this }

theorem Dev.Only.with_ts (y) : Dev.Only R { d with ts := y } { e with ts := y } :=
  { bus := h.bus, pcie := h.pcie, reg := h.reg, vectors := h.vectors, rings := h.rings, place := h.place, head := h.head,
    posted := h.posted, out := h.out, rest := by have := congrArg (fun x : Dev => { x with ts := y }) h.rest; exact this }

theorem Dev.Only.with_refs (y) : Dev.Only R { d with refs := y } { e with refs := y } :=
  { bus := h.bus, pcie := h.pcie, reg := h.reg, vectors := h.vectors, rings := h.rings, place := h.place, head := h.head,
    posted := h.posted, out := h.out, rest := by have := congrArg (fun x : Dev => { x with refs := y }) h.rest; exact this }

theorem Dev.Only.with_tin (y) : Dev.Only R { d with tin := y } { e with tin := y } :=
  { bus := h.bus, pcie := h.pcie, reg := h.reg, vectors := h.vectors, rings := h.rings, place := h.place, head := h.head,
    posted := h.posted, out := h.out, rest := by have := congrArg (fun x : Dev => { x with tin := y }) h.rest; exact this }

theorem Dev.Only.with_gn (y) : Dev.Only R { d with gn := y } { e with gn := y } :=
  { bus := h.bus, pcie := h.pcie, reg := h.reg, vectors := h.vectors, rings := h.rings, place := h.place, head := h.head,
    posted := h.posted, out := h.out, rest := by have := congrArg (fun x : Dev => { x with gn := y }) h.rest; exact this }

theorem Dev.Only.with_cks (y) : Dev.Only R { d with cks := y } { e with cks := y } :=
  { bus := h.bus, pcie := h.pcie, reg := h.reg, vectors := h.vectors, rings := h.rings, place := h.place, head := h.head,
    posted := h.posted, out := h.out, rest := by have := congrArg (fun x : Dev => { x with cks := y }) h.rest; exact this }

theorem Dev.Only.with_dies (y) : Dev.Only R { d with dies := y } { e with dies := y } :=
  { bus := h.bus, pcie := h.pcie, reg := h.reg, vectors := h.vectors, rings := h.rings, place := h.place, head := h.head,
    posted := h.posted, out := h.out, rest := by have := congrArg (fun x : Dev => { x with dies := y }) h.rest; exact this }

theorem Dev.Only.with_temps (y) : Dev.Only R { d with temps := y } { e with temps := y } :=
  { bus := h.bus, pcie := h.pcie, reg := h.reg, vectors := h.vectors, rings := h.rings, place := h.place, head := h.head,
    posted := h.posted, out := h.out, rest := by have := congrArg (fun x : Dev => { x with temps := y }) h.rest; exact this }

theorem Dev.Only.with_keys (y) : Dev.Only R { d with keys := y } { e with keys := y } :=
  { bus := h.bus, pcie := h.pcie, reg := h.reg, vectors := h.vectors, rings := h.rings, place := h.place, head := h.head,
    posted := h.posted, out := h.out, rest := by have := congrArg (fun x : Dev => { x with keys := y }) h.rest; exact this }

theorem Dev.Only.with_bn (y) : Dev.Only R { d with bn := y } { e with bn := y } :=
  { bus := h.bus, pcie := h.pcie, reg := h.reg, vectors := h.vectors, rings := h.rings, place := h.place, head := h.head,
    posted := h.posted, out := h.out, rest := by have := congrArg (fun x : Dev => { x with bn := y }) h.rest; exact this }

theorem Dev.Only.with_nv (y) : Dev.Only R { d with nv := y } { e with nv := y } :=
  { bus := h.bus, pcie := h.pcie, reg := h.reg, vectors := h.vectors, rings := h.rings, place := h.place, head := h.head,
    posted := h.posted, out := h.out, rest := by have := congrArg (fun x : Dev => { x with nv := y }) h.rest; exact this }

theorem Dev.Only.with_upd (y) : Dev.Only R { d with upd := y } { e with upd := y } :=
  { bus := h.bus, pcie := h.pcie, reg := h.reg, vectors := h.vectors, rings := h.rings, place := h.place, head := h.head,
    posted := h.posted, out := h.out, rest := by have := congrArg (fun x : Dev => { x with upd := y }) h.rest; exact this }

theorem Dev.Only.with_ring (y) : Dev.Only R { d with ring := y } { e with ring := y } :=
  { bus := h.bus, pcie := h.pcie, reg := h.reg, vectors := h.vectors, rings := h.rings, place := h.place, head := h.head,
    posted := h.posted, out := h.out, rest := by have := congrArg (fun x : Dev => { x with ring := y }) h.rest; exact this }

theorem Dev.Only.with_pos (y) : Dev.Only R { d with pos := y } { e with pos := y } :=
  { bus := h.bus, pcie := h.pcie, reg := h.reg, vectors := h.vectors, rings := h.rings, place := h.place, head := h.head,
    posted := h.posted, out := h.out, rest := by have := congrArg (fun x : Dev => { x with pos := y }) h.rest; exact this }

theorem Dev.Only.with_eu (y) : Dev.Only R { d with eu := y } { e with eu := y } :=
  { bus := h.bus, pcie := h.pcie, reg := h.reg, vectors := h.vectors, rings := h.rings, place := h.place, head := h.head,
    posted := h.posted, out := h.out, rest := by have := congrArg (fun x : Dev => { x with eu := y }) h.rest; exact this }

theorem Dev.Only.with_md (y) : Dev.Only R { d with md := y } { e with md := y } :=
  { bus := h.bus, pcie := h.pcie, reg := h.reg, vectors := h.vectors, rings := h.rings, place := h.place, head := h.head,
    posted := h.posted, out := h.out, rest := by have := congrArg (fun x : Dev => { x with md := y }) h.rest; exact this }

theorem Dev.Only.with_streams (y) : Dev.Only R { d with streams := y } { e with streams := y } :=
  { bus := h.bus, pcie := h.pcie, reg := h.reg, vectors := h.vectors, rings := h.rings, place := h.place, head := h.head,
    posted := h.posted, out := h.out, rest := by have := congrArg (fun x : Dev => { x with streams := y }) h.rest; exact this }

theorem Dev.Only.with_sums (y) : Dev.Only R { d with sums := y } { e with sums := y } :=
  { bus := h.bus, pcie := h.pcie, reg := h.reg, vectors := h.vectors, rings := h.rings, place := h.place, head := h.head,
    posted := h.posted, out := h.out, rest := by have := congrArg (fun x : Dev => { x with sums := y }) h.rest; exact this }

theorem Dev.Only.with_statRun (y) : Dev.Only R { d with statRun := y } { e with statRun := y } :=
  { bus := h.bus, pcie := h.pcie, reg := h.reg, vectors := h.vectors, rings := h.rings, place := h.place, head := h.head,
    posted := h.posted, out := h.out, rest := by have := congrArg (fun x : Dev => { x with statRun := y }) h.rest; exact this }

theorem Dev.Only.with_batches (y) : Dev.Only R { d with batches := y } { e with batches := y } :=
  { bus := h.bus, pcie := h.pcie, reg := h.reg, vectors := h.vectors, rings := h.rings, place := h.place, head := h.head,
    posted := h.posted, out := h.out, rest := by have := congrArg (fun x : Dev => { x with batches := y }) h.rest; exact this }

theorem Dev.Only.with_openFaults (y) : Dev.Only R { d with openFaults := y } { e with openFaults := y } :=
  { bus := h.bus, pcie := h.pcie, reg := h.reg, vectors := h.vectors, rings := h.rings, place := h.place, head := h.head,
    posted := h.posted, out := h.out, rest := by have := congrArg (fun x : Dev => { x with openFaults := y }) h.rest; exact this }

theorem Dev.Only.with_ret (y) : Dev.Only R { d with ret := y } { e with ret := y } :=
  { bus := h.bus, pcie := h.pcie, reg := h.reg, vectors := h.vectors, rings := h.rings, place := h.place, head := h.head,
    posted := h.posted, out := h.out, rest := by have := congrArg (fun x : Dev => { x with ret := y }) h.rest; exact this }

theorem Dev.Only.with_hist (y) : Dev.Only R { d with hist := y } { e with hist := y } :=
  { bus := h.bus, pcie := h.pcie, reg := h.reg, vectors := h.vectors, rings := h.rings, place := h.place, head := h.head,
    posted := h.posted, out := h.out, rest := by have := congrArg (fun x : Dev => { x with hist := y }) h.rest; exact this }

theorem Dev.Only.with_lposted (y) : Dev.Only R { d with lposted := y } { e with lposted := y } :=
  { bus := h.bus, pcie := h.pcie, reg := h.reg, vectors := h.vectors, rings := h.rings, place := h.place, head := h.head,
    posted := h.posted, out := h.out, rest := by have := congrArg (fun x : Dev => { x with lposted := y }) h.rest; exact this }

theorem Dev.Only.with_fposted (y) : Dev.Only R { d with fposted := y } { e with fposted := y } :=
  { bus := h.bus, pcie := h.pcie, reg := h.reg, vectors := h.vectors, rings := h.rings, place := h.place, head := h.head,
    posted := h.posted, out := h.out, rest := by have := congrArg (fun x : Dev => { x with fposted := y }) h.rest; exact this }

theorem Dev.Only.with_freeCtr (y) : Dev.Only R { d with freeCtr := y } { e with freeCtr := y } :=
  { bus := h.bus, pcie := h.pcie, reg := h.reg, vectors := h.vectors, rings := h.rings, place := h.place, head := h.head,
    posted := h.posted, out := h.out, rest := by have := congrArg (fun x : Dev => { x with freeCtr := y }) h.rest; exact this }

end

/-! ## The primitives -/

/-- Writing one register that does not belong to the event ring's bank. -/
theorem Dev.only_setReg (d : Dev) (a : Nat) (v : Word) (h : eventReg a = true ∨ dieCntReg a = true ∨ R a)
    (n : a < 0x80200 ∨ 0x80214 ≤ a) : Dev.Only R d (d.setReg a v) where
  rest := rfl
  bus := rfl
  pcie := rfl
  reg := fun x p q r => Dev.reg_setReg_ne d v (fun e => by subst e; simp_all)
  vectors := fun v h => ⟨v, h, rfl⟩
  rings := fun _ _ => rfl
  place := by
    refine ⟨Dev.get64_congr _ _ _ (Dev.reg_setReg_ne d v ?_) (Dev.reg_setReg_ne d v ?_), ?_⟩
    · simp only [A.EVR_BASE]; omega
    · simp only [A.EVR_BASE]; omega
    · simp only [Dev.ringSize, Dev.get]
      rw [Dev.reg_setReg_ne d v (by simp only [ringLog2, A.EVR_BASE]; omega)]
  head := Or.inl (by simp only [Dev.get]; rw [Dev.reg_setReg_ne d v (by simp only [ringHead, A.EVR_BASE]; omega)])
  posted := ⟨[], by simp [Dev.setReg], by simp⟩
  out := ⟨[], by simp [Dev.setReg], by simp⟩

theorem Dev.only_set (d : Dev) (f : Fld) (v : Nat) (h : eventReg f.addr = true ∨ dieCntReg f.addr = true ∨ R f.addr)
    (n : f.addr < 0x80200 ∨ 0x80214 ≤ f.addr) : Dev.Only R d (d.set f v) :=
  Dev.only_setReg d _ _ h n

theorem Dev.only_setFlag (d : Dev) (f : Fld) (v : Bool) (h : eventReg f.addr = true ∨ dieCntReg f.addr = true ∨ R f.addr)
    (n : f.addr < 0x80200 ∨ 0x80214 ≤ f.addr) : Dev.Only R d (d.setFlag f v) :=
  Dev.only_setReg d _ _ h n

theorem Dev.only_stick (d : Dev) (a k : Nat) (h : eventReg a = true ∨ dieCntReg a = true ∨ R a)
    (n : a < 0x80200 ∨ 0x80214 ≤ a) : Dev.Only R d (d.stick a k) :=
  Dev.only_setReg d _ _ h n

theorem Dev.only_count32 (d : Dev) (a k : Nat) (h : eventReg a = true ∨ dieCntReg a = true ∨ R a)
    (n : a < 0x80200 ∨ 0x80214 ≤ a) : Dev.Only R d (d.count32 a k) :=
  Dev.only_setReg d _ _ h n

theorem Dev.only_countSat (d : Dev) (f : Fld) (k : Nat) (h : eventReg f.addr = true ∨ dieCntReg f.addr = true ∨ R f.addr)
    (n : f.addr < 0x80200 ∨ 0x80214 ≤ f.addr) : Dev.Only R d (d.countSat f k) :=
  Dev.only_setReg d _ _ h n

theorem Dev.only_setWide (d : Dev) (a k v : Nat)
    (h : ∀ j < k, eventReg (a + 4 * j) = true ∨ dieCntReg (a + 4 * j) = true ∨ R (a + 4 * j))
    (n : a + 4 * k ≤ 0x80200 ∨ 0x80214 ≤ a) : Dev.Only R d (d.setWide a k v) := by
  induction k generalizing d a v with
  | zero => exact Dev.Only.refl d
  | succ k ih =>
    refine (Dev.only_setReg d a _ (by simpa using h 0 (by omega)) (by omega)).trans (ih _ _ _ ?_ (by omega))
    intro j hj
    rw [show a + 4 + 4 * j = a + 4 * (j + 1) by omega]
    exact h (j + 1) (by omega)

theorem Dev.only_set64 (d : Dev) (a v : Nat)
    (h : ∀ j < 2, eventReg (a + 4 * j) = true ∨ dieCntReg (a + 4 * j) = true ∨ R (a + 4 * j))
    (n : a + 8 ≤ 0x80200 ∨ 0x80214 ≤ a) : Dev.Only R d (d.set64 a v) :=
  Dev.only_setWide d a 2 v h n

/-- Moving HEAD of the event ring within it. -/
theorem Dev.quiet_setHead (d : Dev) (v : Nat) (h : v < d.ringSize A.EVR_BASE) :
    Dev.Quiet d (d.set (ringHead A.EVR_BASE) v) where
  rest := rfl
  bus := rfl
  pcie := rfl
  reg := fun x p q r => Dev.reg_setReg_ne d _ (fun e => by subst e; revert p; decide)
  vectors := fun v h => ⟨v, h, rfl⟩
  rings := fun _ _ => rfl
  place := by
    refine ⟨Dev.get64_congr _ _ _ (Dev.reg_set_ne d _ v (by decide)) (Dev.reg_set_ne d _ v (by decide)), ?_⟩
    simp only [Dev.ringSize, Dev.get]
    rw [Dev.reg_set_ne d _ v (by decide)]
  head := Or.inr (by rw [Dev.get_set_self d _ v ⟨by decide, by decide⟩]; exact Nat.lt_of_le_of_lt (Nat.mod_le _ _) h)
  posted := ⟨[], by simp [Dev.set, Dev.setReg], by simp⟩
  out := ⟨[], by simp [Dev.set, Dev.setReg], by simp⟩

theorem Dev.quiet_emit (d : Dev) (o : Output) (h : o.isMsix = true) : Dev.Quiet d (d.emit o) :=
  { Dev.Only.refl d with rest := rfl, bus := rfl, pcie := rfl, out := ⟨[o], rfl, by simpa using h⟩ }

theorem Dev.quiet_post (d : Dev) (a : Nat) (bs : List Byte) (h : d.EventPlace a bs.length) : Dev.Quiet d (d.post a bs) :=
  { Dev.Only.refl d with rest := rfl, bus := rfl, pcie := rfl, posted := ⟨[.wr a bs], rfl, by simpa [Dev.EventOp] using h⟩ }

theorem Dev.quiet_msix (d : Dev) (x : List MsixEntry) (h : ∀ v ∈ x, ∃ w ∈ d.pcie.msix, v.addr = w.addr) :
    Dev.Quiet d { d with pcie.msix := x } :=
  { Dev.Only.refl d with rest := rfl, bus := rfl, pcie := rfl, vectors := h }

theorem Dev.ringRt_setRingRt_self (d : Dev) (r : Nat) (x : RingRt) : (d.setRingRt r x).ringRt r = x := by
  simp [Dev.setRingRt, Dev.ringRt]

theorem Dev.ringRt_setRingRt_ne (d : Dev) {r q : Nat} (x : RingRt) (h : q ≠ r) : (d.setRingRt r x).ringRt q = d.ringRt q := by
  simp only [Dev.setRingRt, Dev.ringRt, List.find?_cons]
  rw [show decide (r = q) = false by simp [Ne.symm h]]
  simp only [List.find?_filter]
  congr 2
  funext p
  by_cases e : p.1 = q <;> simp [e, h]

theorem Dev.quiet_setRingRt (d : Dev) (x : RingRt) : Dev.Quiet d (d.setRingRt A.EVR_BASE x) :=
  { Dev.Only.refl d with rest := rfl, bus := rfl, pcie := rfl, rings := fun _ h => Dev.ringRt_setRingRt_ne d x h }

theorem Dev.quiet_remember (d : Dev) (s e i : Nat) : Dev.Quiet d (d.remember s e i) :=
  { Dev.Only.refl d with rest := rfl, bus := rfl, pcie := rfl }

/-! ## Counters -/

/-- Place of a counter register among those that counting may change. -/
def cntReg (a : Nat) : Prop := (eventReg a = true ∨ dieCntReg a = true) ∧ 0x80214 ≤ a

theorem cntReg.only {a : Nat} (h : cntReg a) : (eventReg a = true ∨ dieCntReg a = true ∨ R a) ∧ (a < 0x80200 ∨ 0x80214 ≤ a) :=
  ⟨h.1.elim Or.inl (fun x => Or.inr (Or.inl x)), Or.inr h.2⟩

theorem Dev.quiet_bumpProg (d : Dev) (cfg ovf k n : Nat) (h1 : cntReg (cfg + 8)) (h2 : cntReg (cfg + 8 + 4)) (h3 : cntReg ovf) :
    Dev.Quiet d (d.bumpProg cfg ovf k n).1 := by
  have q : ∀ v, Dev.Quiet d (d.set64 (cfg + 8) v) := fun v =>
    (Dev.only_setReg d (cfg + 8) _ (h1.only (R := fun _ => False)).1 (Or.inr h1.2)).trans
      (Dev.only_setReg _ (cfg + 8 + 4) _ (h2.only (R := fun _ => False)).1 (Or.inr h2.2))
  unfold Dev.bumpProg
  dsimp only
  split
  · exact q _
  · exact (q _).trans (Dev.only_setReg _ ovf _ (h3.only (R := fun _ => False)).1 (Or.inr h3.2))

theorem Dev.quiet_bumpAll (d : Dev) (cfg0 ovf ev n k : Nat)
    (h : ∀ j < k, cntReg (cfg0 + 0x20 * j + 8) ∧ cntReg (cfg0 + 0x20 * j + 8 + 4)) (h3 : cntReg ovf) :
    Dev.Quiet d (d.bumpAll cfg0 ovf ev n k).1 := by
  induction k with
  | zero => exact Dev.Only.refl d
  | succ k ih =>
    have q := ih (fun j hj => h j (by omega))
    unfold Dev.bumpAll
    dsimp only
    split
    · exact q.trans (Dev.quiet_bumpProg _ _ _ _ _ (h k (by omega)).1 (h k (by omega)).2 h3)
    · exact q

theorem Dev.quiet_bumpKeeper (d : Dev) (ev n : Nat) : Dev.Quiet d (d.bumpAll (A.K_CNT_CFG 0) A.K_CNT_OVF ev n 4).1 := by
  apply Dev.quiet_bumpAll
  · intro j hj
    have : j = 0 ∨ j = 1 ∨ j = 2 ∨ j = 3 := by omega
    rcases this with rfl | rfl | rfl | rfl <;> exact ⟨⟨Or.inl (by decide), by decide⟩, ⟨Or.inl (by decide), by decide⟩⟩
  · exact ⟨Or.inl (by decide), by decide⟩

theorem dieCntReg_of (n o : Nat) (h : o = 0x90004 ∨ (0x90100 ≤ o ∧ o < 0x90200 ∧ (o % 0x20 = 8 ∨ o % 0x20 = 12))) :
    cntReg (dieBase n + o) := by
  have m : (dieBase n + o) % 0x100000 = o := by simp only [dieBase]; omega
  have m2 : (dieBase n + o) % 0x20 = o % 0x20 := by simp only [dieBase]; omega
  refine ⟨Or.inr ?_, by simp only [dieBase]; omega⟩
  have l : (0x100000 : Nat) ≤ dieBase n + o := by simp only [dieBase]; omega
  simp only [dieCntReg, m, m2, l, decide_true, Bool.true_and]
  rcases h with rfl | ⟨h1, h2, h3 | h3⟩
  · rfl
  · simp [h1, h2, h3]
  · simp [h1, h2, h3]

theorem Dev.quiet_bumpDie (d : Dev) (die : Nat) (ev n : Nat) : Dev.Quiet d (d.bumpAll (A.D_CNT_CFG die 0) (A.D_CNT_OVF die) ev n 8).1 := by
  apply Dev.quiet_bumpAll
  · intro j hj
    have e : A.D_CNT_CFG die 0 + 0x20 * j = dieBase die + (0x90100 + 0x20 * j) := by simp only [A.D_CNT_CFG]; omega
    rw [e]
    exact ⟨by have := dieCntReg_of die (0x90108 + 0x20 * j) (by omega); rwa [show dieBase die + (0x90108 + 0x20 * j) = dieBase die + (0x90100 + 0x20 * j) + 8 by omega] at this,
      by have := dieCntReg_of die (0x9010C + 0x20 * j) (by omega); rwa [show dieBase die + (0x9010C + 0x20 * j) = dieBase die + (0x90100 + 0x20 * j) + 8 + 4 by omega] at this⟩
  · exact dieCntReg_of die 0x90004 (by omega)

/-! ## Deliveries -/

theorem mem_setAt {α : Type} (l : List α) (i : Nat) (x y : α) (h : y ∈ setAt l i x) : y ∈ l ∨ y = x := by
  induction l generalizing i with
  | nil => simp [setAt] at h
  | cons z l ih =>
    cases i with
    | zero =>
      simp only [setAt, List.mem_cons] at h
      rcases h with h | h <;> simp [h]
    | succ i =>
      simp only [setAt, List.mem_cons] at h
      rcases h with h | h
      · simp [h]
      · rcases ih i h with h | h <;> simp [h]

theorem mem_setAt_self {α : Type} (l : List α) (i : Nat) (x : α) (h : i < l.length) : x ∈ setAt l i x := by
  induction l generalizing i with
  | nil => simp at h
  | cons z l ih =>
    cases i with
    | zero => simp [setAt]
    | succ i => simp only [setAt, List.mem_cons]; exact Or.inr (ih i (by simpa using h))

theorem Dev.quiet_msixSend (d : Dev) (v : Nat) : Dev.Quiet d (d.msixSend v) := by
  unfold Dev.msixSend
  split
  · exact Dev.Only.refl d
  · split
    · exact Dev.Only.refl d
    · rename_i x hx
      have m : x ∈ d.pcie.msix := List.mem_of_getElem? hx
      have q : ∀ b, Dev.Quiet d { d with pcie.msix := setAt d.pcie.msix v { x with pending := b } } := fun b => by
        refine Dev.quiet_msix d _ (fun y hy => ?_)
        rcases mem_setAt _ _ _ _ hy with hy | hy
        · exact ⟨y, hy, rfl⟩
        · exact ⟨x, m, by rw [hy]⟩
      split
      · exact q true
      · refine ((q false).trans (Dev.quiet_bumpKeeper _ _ _)).trans ((Dev.quiet_post _ _ _ ?_).trans (Dev.quiet_emit _ _ rfl))
        refine Or.inr ⟨leBytes_length _ _, { x with pending := false }, ?_, rfl⟩
        have hm : ({ x with pending := false } : MsixEntry) ∈ setAt d.pcie.msix v { x with pending := false } :=
          mem_setAt_self _ _ _ (List.getElem?_eq_some_iff.1 hx).1
        have bump : ∀ (y : Dev) (c o ev n k : Nat), (y.bumpAll c o ev n k).1.pcie = y.pcie := by
          intro y c o ev n k
          induction k with
          | zero => rfl
          | succ k ih =>
            unfold Dev.bumpAll
            dsimp only
            split
            · refine Eq.trans ?_ ih
              unfold Dev.bumpProg
              dsimp only
              split <;> rfl
            · exact ih
        rw [bump]
        exact hm

theorem Dev.quiet_ringMessage (d : Dev) : Dev.Quiet d (d.ringMessage A.EVR_BASE) :=
  (Dev.quiet_setRingRt d _).trans (Dev.quiet_msixSend _ _)

theorem Dev.quiet_ringReport (d : Dev) : Dev.Quiet d (d.ringReport A.EVR_BASE) := by
  unfold Dev.ringReport
  dsimp only
  split
  · exact (Dev.quiet_setRingRt d _).trans (Dev.quiet_ringMessage _)
  · exact Dev.quiet_setRingRt d _

theorem Dev.quiet_markFull (d : Dev) : Dev.Quiet d d.markFull := by
  unfold Dev.markFull
  split
  · exact Dev.Only.refl d
  · exact (Dev.quiet_remember d _ _ _).trans (Dev.only_set _ _ _ (Or.inl (by decide)) (by decide))

theorem Dev.quiet_eventStored (d : Dev) (h : Nat) (phase : Bool) : Dev.Quiet d (d.eventStored h phase) := by
  unfold Dev.eventStored
  extract_lets ring d1 r d2
  refine Dev.Only.trans (e := d2) ?_ ((Dev.only_count32 _ _ _ (Or.inl (by decide)) (by decide)).trans (Dev.quiet_ringReport _))
  refine Dev.Only.trans (e := d1) ?_ ?_
  · unfold d1
    split
    · exact Dev.quiet_markFull d
    · exact Dev.Only.refl d
  · unfold d2
    split
    · exact Dev.quiet_setRingRt _ _
    · exact Dev.Only.refl _

theorem evRecord_length (tick src status index seq : Nat) (phase resent : Bool) :
    (evRecord tick src status index seq phase resent).length = 32 := by
  simp [evRecord, leBytes_length, zeros]

theorem Dev.quiet_eventRing (d : Dev) (src tick status index : Nat) (resent : Bool) :
    Dev.Quiet d (d.eventRing src tick status index resent) := by
  unfold Dev.eventRing
  dsimp only
  split
  · exact Dev.Only.refl d
  · split
    · exact ((Dev.quiet_setRingRt d _).trans (Dev.only_count32 _ _ _ (Or.inl (by decide)) (by decide))).trans (Dev.quiet_markFull _)
    · refine (((Dev.quiet_setRingRt d _).trans (Dev.quiet_post _ _ _ ?_)).trans (Dev.quiet_setHead _ _ ?_)).trans
        (Dev.quiet_eventStored _ _ _)
      · exact Or.inl ⟨evRecord_length _ _ _ _ _ _ _, _, Or.inl rfl, rfl⟩
      · exact Nat.mod_lt _ (Nat.two_pow_pos _)

theorem Dev.quiet_deliver (d : Dev) (src tick status index : Nat) (resent : Bool) :
    Dev.Quiet d (d.deliver src tick status index resent) := by
  unfold Dev.deliver
  dsimp only
  split
  · exact (Dev.quiet_bumpKeeper d _ _).trans (Dev.quiet_msixSend _ _)
  · exact (Dev.quiet_bumpKeeper d _ _).trans (Dev.quiet_eventRing _ _ _ _ _ _)
  · exact Dev.quiet_bumpKeeper d _ _

theorem Dev.quiet_afterDrop (d d0 : Dev) : Dev.Quiet d (d.afterDrop d0) := by
  unfold Dev.afterDrop
  split
  · exact Dev.quiet_deliver _ _ _ _ _ _
  · exact Dev.Only.refl d

/-- Raising a source of the event table. -/
theorem Dev.quiet_raise (d : Dev) (src status index : Nat) (h : src < 128) : Dev.Quiet d (d.raise src status index) := by
  unfold Dev.raise
  split
  · exact Dev.Only.refl d
  · split
    · exact Dev.Only.refl d
    · have l : (evStatus src).addr < 0x1010 := by simp only [evStatus, A.EV_STATUS]; omega
      have e : eventReg (evStatus src).addr = true := by
        have l' : 0x1000 ≤ (evStatus src).addr := by simp only [evStatus, A.EV_STATUS]; omega
        simp [eventReg, l, l']
      have q := (Dev.quiet_remember d src (d.reg status).toNat index).trans
        (Dev.only_set _ (evStatus src) 1 (Or.inl e) (Or.inl (by omega)))
      dsimp only
      split
      · exact (q.trans (Dev.quiet_deliver _ _ _ _ _ _)).trans (Dev.quiet_afterDrop _ _)
      · exact q

theorem Dev.quiet_keeperCount (d : Dev) (ev n : Nat) : Dev.Quiet d (d.keeperCount ev n) := by
  unfold Dev.keeperCount
  dsimp only
  split
  · exact (Dev.quiet_bumpKeeper d _ _).trans (Dev.quiet_raise _ _ _ _ (by omega))
  · exact Dev.quiet_bumpKeeper d _ _

theorem Dev.quiet_dieCount (d : Dev) (die ev n : Nat) (h : die < 4) : Dev.Quiet d (d.dieCount die ev n) := by
  unfold Dev.dieCount
  dsimp only
  split
  · exact (Dev.quiet_bumpDie d die _ _).trans (Dev.quiet_raise _ _ _ _ (by simp only [dieSrc]; omega))
  · exact Dev.quiet_bumpDie d die _ _

theorem Dev.quiet_raiseLevel (d : Dev) (src status index : Nat) (h : src < 128) : Dev.Quiet d (d.raiseLevel src status index) := by
  unfold Dev.raiseLevel
  split
  · exact Dev.quiet_raise _ _ _ _ h
  · exact Dev.Only.refl d

theorem Dev.quiet_levelCheck (d : Dev) (src : Nat) (h : src < 128) : Dev.Quiet d (d.levelCheck src) :=
  Dev.quiet_raiseLevel _ _ _ _ h

theorem Dev.quiet_redeliver (d : Dev) (src : Nat) (resent : Bool) : Dev.Quiet d (d.redeliver src resent) := by
  unfold Dev.redeliver
  split
  · exact (Dev.quiet_deliver _ _ _ _ _ _).trans (Dev.quiet_afterDrop _ _)
  · exact (Dev.quiet_deliver _ _ _ _ _ _).trans (Dev.quiet_afterDrop _ _)

/-! ## Status bits of sources, once set, stay set through deliveries -/

/-- Status bits set in d are set in e. -/
def Dev.EvMono (d e : Dev) : Prop := ∀ s < 128, d.get (evStatus s) = 1 → e.get (evStatus s) = 1

theorem Dev.EvMono.trans (h : Dev.EvMono d e) (k : Dev.EvMono e f) : Dev.EvMono d f := fun s hs x => k s hs (h s hs x)

theorem evStatus_addr (s : Nat) (h : s < 128) : 0x1000 ≤ (evStatus s).addr ∧ (evStatus s).addr < 0x1010 := by
  simp only [evStatus, A.EV_STATUS]; omega

theorem evStatus_ok (s : Nat) : (evStatus s).Ok := ⟨Nat.le_refl _, Nat.mod_lt _ (by decide)⟩

/-- Nothing but the status registers matters. -/
theorem Dev.evMono_of (h : ∀ a, 0x1000 ≤ a → a < 0x1010 → e.reg a = d.reg a) : Dev.EvMono d e := fun s hs x => by
  rw [Dev.get_congr _ (h _ (evStatus_addr s hs).1 (evStatus_addr s hs).2)]; exact x

theorem Dev.evMono_rfl (h : e.bus.regs = d.bus.regs) : Dev.EvMono d e :=
  Dev.evMono_of (fun a _ _ => by simp only [Dev.reg, h])

theorem Dev.evMono_setReg (d : Dev) (a : Nat) (v : Word) (h : a < 0x1000 ∨ 0x1010 ≤ a) : Dev.EvMono d (d.setReg a v) :=
  Dev.evMono_of (fun b _ _ => Dev.reg_setReg_ne d v (by omega))

theorem Dev.get_set_evStatus (d : Dev) (k : Nat) : (d.set (evStatus k) 1).get (evStatus k) = 1 := by
  rw [Dev.get_set_self _ _ _ (evStatus_ok k)]
  simp only [evStatus]
  rw [show k % 32 + 1 - k % 32 = 1 by omega]
  rfl

theorem Dev.evMono_mark (d : Dev) (k : Nat) : Dev.EvMono d (d.set (evStatus k) 1) := fun s hs x => by
  by_cases e : evStatus s = evStatus k
  · rw [e]; exact Dev.get_set_evStatus d k
  · by_cases a : (evStatus s).addr = (evStatus k).addr
    · rw [Dev.get_set_bits _ _ _ _ (evStatus_ok k) (evStatus_ok s)]
      · exact x
      · simp only [evStatus, A.EV_STATUS] at a e ⊢
        have : s % 32 ≠ k % 32 := fun c => e (by rw [a, c])
        omega
    · rw [Dev.get_set_addr _ _ _ _ a]; exact x

theorem Dev.evMono_bumpAll (d : Dev) (cfg0 ovf ev n k : Nat) (h : 0x1010 ≤ cfg0) (h2 : 0x1010 ≤ ovf) :
    Dev.EvMono d (d.bumpAll cfg0 ovf ev n k).1 := by
  induction k with
  | zero => exact Dev.evMono_rfl rfl
  | succ k ih =>
    unfold Dev.bumpAll
    dsimp only
    split
    · refine ih.trans ?_
      unfold Dev.bumpProg
      dsimp only
      have q : ∀ (x : Dev) v, Dev.EvMono x (x.set64 (cfg0 + 0x20 * k + 8) v) := fun x v =>
        Dev.evMono_of (fun b _ _ => Dev.reg_set64_ne x _ v (by omega))
      split
      · exact q _ _
      · exact (q _ _).trans (Dev.evMono_setReg _ _ _ (Or.inr h2))
    · exact ih

theorem Dev.evMono_bumpKeeper (d : Dev) (ev n : Nat) : Dev.EvMono d (d.bumpAll (A.K_CNT_CFG 0) A.K_CNT_OVF ev n 4).1 :=
  Dev.evMono_bumpAll d _ _ _ _ _ (by decide) (by decide)

theorem Dev.evMono_post (d : Dev) (a : Nat) (bs : List Byte) : Dev.EvMono d (d.post a bs) := Dev.evMono_rfl rfl

theorem Dev.evMono_emit (d : Dev) (o : Output) : Dev.EvMono d (d.emit o) := Dev.evMono_rfl rfl

theorem Dev.evMono_msixSend (d : Dev) (v : Nat) : Dev.EvMono d (d.msixSend v) := by
  unfold Dev.msixSend
  split
  · exact Dev.evMono_rfl rfl
  · split
    · exact Dev.evMono_rfl rfl
    · split
      · exact Dev.evMono_rfl rfl
      · rename_i x _ _
        have q : Dev.EvMono d { d with pcie.msix := setAt d.pcie.msix v { x with pending := false } } := Dev.evMono_rfl rfl
        exact (q.trans (Dev.evMono_bumpKeeper _ _ _)).trans ((Dev.evMono_post _ x.addr (leBytes 4 x.data)).trans (Dev.evMono_emit _ (.msix v x.addr x.data)))

theorem Dev.evMono_setRingRt (d : Dev) (r : Nat) (x : RingRt) : Dev.EvMono d (d.setRingRt r x) := Dev.evMono_rfl rfl

theorem Dev.evMono_remember (d : Dev) (s e i : Nat) : Dev.EvMono d (d.remember s e i) := Dev.evMono_rfl rfl

theorem Dev.evMono_ringMessage (d : Dev) (r : Nat) : Dev.EvMono d (d.ringMessage r) :=
  (Dev.evMono_setRingRt d _ _).trans (Dev.evMono_msixSend _ _)

theorem Dev.evMono_ringReport (d : Dev) (r : Nat) : Dev.EvMono d (d.ringReport r) := by
  unfold Dev.ringReport
  dsimp only
  split
  · exact (Dev.evMono_setRingRt d _ _).trans (Dev.evMono_ringMessage _ _)
  · exact Dev.evMono_rfl rfl

theorem Dev.evMono_markFull (d : Dev) : Dev.EvMono d d.markFull := by
  unfold Dev.markFull
  split
  · exact Dev.evMono_rfl rfl
  · exact (Dev.evMono_remember d _ _ _).trans (Dev.evMono_mark _ _)

theorem Dev.evMono_eventStored (d : Dev) (h : Nat) (phase : Bool) : Dev.EvMono d (d.eventStored h phase) := by
  unfold Dev.eventStored
  extract_lets ring d1 r d2
  refine Dev.EvMono.trans (e := d2) ?_ ((Dev.evMono_setReg _ _ _ (by decide)).trans (Dev.evMono_ringReport _ _))
  refine Dev.EvMono.trans (e := d1) ?_ ?_
  · unfold d1
    split
    · exact Dev.evMono_markFull d
    · exact Dev.evMono_rfl rfl
  · unfold d2
    split <;> exact Dev.evMono_rfl rfl

theorem Dev.evMono_eventRing (d : Dev) (src tick status index : Nat) (resent : Bool) :
    Dev.EvMono d (d.eventRing src tick status index resent) := by
  unfold Dev.eventRing
  dsimp only
  split
  · exact Dev.evMono_rfl rfl
  · split
    · refine Dev.EvMono.trans ?_ (Dev.evMono_markFull _)
      exact (Dev.evMono_setRingRt d _ _).trans (Dev.evMono_setReg _ _ _ (by decide))
    · refine Dev.EvMono.trans ?_ (Dev.evMono_eventStored _ _ _)
      exact ((Dev.evMono_setRingRt d _ _).trans (Dev.evMono_post _ _ _)).trans (Dev.evMono_setReg _ _ _ (by decide))

theorem Dev.evMono_deliver (d : Dev) (src tick status index : Nat) (resent : Bool) :
    Dev.EvMono d (d.deliver src tick status index resent) := by
  unfold Dev.deliver
  dsimp only
  split
  · exact (Dev.evMono_bumpKeeper d _ _).trans (Dev.evMono_msixSend _ _)
  · exact (Dev.evMono_bumpKeeper d _ _).trans (Dev.evMono_eventRing _ _ _ _ _ _)
  · exact Dev.evMono_bumpKeeper d _ _

theorem Dev.evMono_afterDrop (d d0 : Dev) : Dev.EvMono d (d.afterDrop d0) := by
  unfold Dev.afterDrop
  split
  · exact Dev.evMono_deliver _ _ _ _ _ _
  · exact Dev.evMono_rfl rfl

theorem Dev.evMono_raise (d : Dev) (src status index : Nat) : Dev.EvMono d (d.raise src status index) := by
  unfold Dev.raise
  split
  · exact Dev.evMono_rfl rfl
  · split
    · exact Dev.evMono_rfl rfl
    · have q : Dev.EvMono d ((d.remember src (d.reg status).toNat index).set (evStatus src) 1) :=
        (Dev.evMono_remember d _ _ _).trans (Dev.evMono_mark _ _)
      dsimp only
      split
      · exact (q.trans (Dev.evMono_deliver _ _ _ _ _ _)).trans (Dev.evMono_afterDrop _ _)
      · exact q

/-- A source that is raised has its status bit set afterwards, but for a source of a die that is off (R354, R358). -/
theorem Dev.raise_status (d : Dev) (src status index : Nat) (h : src < 128) (g : src < 64 ∨ d.dieSt ((src - 64) / 16) ≠ stStopped) :
    (d.raise src status index).get (evStatus src) = 1 := by
  unfold Dev.raise
  rw [if_neg (by intro c; rcases g with g | g; omega; exact g c.2)]
  split
  · assumption
  · dsimp only
    have q := Dev.get_set_evStatus (d.remember src (d.reg status).toNat index) src
    split
    · exact Dev.evMono_afterDrop _ _ _ h (Dev.evMono_deliver _ _ _ _ _ _ _ h q)
    · exact q

theorem Dev.evMono_keeperCount (d : Dev) (ev n : Nat) : Dev.EvMono d (d.keeperCount ev n) := by
  unfold Dev.keeperCount
  dsimp only
  split
  · exact (Dev.evMono_bumpKeeper d _ _).trans (Dev.evMono_raise _ _ _ _)
  · exact Dev.evMono_bumpKeeper d _ _

end Sys2Proof.Machine
end

