-- ==== Sys2Proof/WellFormed.lean ====
section
/-! DEFINITION. Well-formed commands: operands within what their wires, records and tables can carry. A command that is not well-formed still has a meaning; nothing in the model rests on this check. -/

namespace Sys2Proof

/-- Sizes in bytes that an access of a bus can have (R333). -/
def accessSize (n : Nat) : Bool := n == 1 || n == 2 || n == 4 || n == 8

/-- Well-formed operands. -/
def Instr.wf : Instr → Bool
  | .registerWrite _ _ size v => accessSize size && decide (v < 2 ^ (8 * size))
  | .multiwordLatchRead _ _ size => accessSize size
  | .guardWrite _ _ _ => true
  | .bar2Access ofs _ _ => decide (ofs < 2 ^ 26)
  | .syncWordSend _ => true
  | .syncWordReceive _ => true
  | .alignLost _ => true
  | .aligned _ => true
  | .markerEcho _ _ => true
  | .clockPairLoss _ _ => true
  | .laneFailure _ _ _ => true
  | .laneRemapComplete _ => true
  | .parameterSetPublish dies => decide (dies < 16)
  | .scaleSetApplied _ => true
  | .euSubmit => true
  | .euCheckComplete _ => true
  | .euCancel => true
  | .epochUpdateApply => true
  | .modeGo => true
  | .serveEpoch => true
  | .modeTransitionComplete => true
  | .standbyRestartHandover => true
  | .resetNLow => true
  | .resetNRise => true
  | .pwrGoodLow => true
  | .vddAonLoss => true
  | .deviceReset _ _ => true
  | .internalReset => true
  | .internalResetPulseEnd => true
  | .bootSafeNSample _ => true
  | .loadStart => true
  | .oscillatorValid _ _ => true
  | .loadComplete _ _ => true
  | .pcieReset _ => true
  | .watchdog => true
  | .glitchDetect => true
  | .capture => true
  | .apply _ => true
  | .slewGo _ => true
  | .stepRel _ _ _ => true
  | .stepAbs _ _ _ => true
  | .castlingRequest => true
  | .castlingCancel => true
  | .castlingDecision => true
  | .castlingSwitch => true
  | .castlingComplete => true
  | .leapAdd _ => true
  | .leapWithdraw _ => true
  | .leapApplied => true
  | .utcBaseWrite _ => true
  | .convert => true
  | .selectorEvaluation synce => synce.all fun p => decide (p.1 < 16)
  | .measureEnd _ => true
  | .wtrExpiry _ _ => true
  | .disagreementPersists _ _ => true
  | .lockQualified _ => true
  | .signalTimeout _ _ => true
  | .holdoverExpired _ => true
  | .tbPllCoastTimeout => true
  | .disq _ => true
  | .release _ => true
  | .stepOnRecoverWrite _ _ => true
  | .inputEdge _ _ _ _ => true
  | .candidateAccept _ _ => true
  | .candidateReject _ => true
  | .startTimeout _ => true
  | .calibrationComplete _ hits => decide (hits.length ≤ 512)
  | .delayLineSwap _ => true
  | .gateOpen _ => true
  | .gateClose _ => true
  | .gateResult _ => true
  | .arm _ => true
  | .stop _ => true
  | .flush _ => true
  | .tsW0Pop _ _ => true
  | .resW0Pop _ _ => true
  | .inCtrlEnable _ _ => true
  | .inputTransitionComplete _ => true
  | .bandDown _ => true
  | .bandUp _ => true
  | .agcUpdate _ rms => decide (rms < 2 ^ 16)
  | .spectrum _ lines => lines.all fun x => decide (x.1 < 1024)
  | .jamCal _ => true
  | .acquisitionSearch _ found => decide (found.length ≤ 64) && found.all fun x => decide (x.1 < 6) && decide (x.2.1 < 256) && decide (x.2.2.1 < 256)
  | .channelLossOfLock _ _ => true
  | .measurementEpoch _ _ s0 s1 ms _ utc => decide (s0 ≤ s1) && ms.all (fun x => decide (x.1 < 96)) && utc.all fun x => decide (x.1 < 3)
  | .solutionPublish q => q.all fun x => decide (x.nsat ≤ 96) && x.pos.length == 3
  | .gnssSuspectSet => true
  | .gnssSuspectClear => true
  | .shortHoldoverEnd => true
  | .surveyComplete => true
  | .set => true
  | .surveyRestart => true
  | .suspectClr => true
  | .gnCtrlEnable _ => true
  | .gnssTransitionComplete => true
  | .dutyWake => true
  | .dutySleep => true
  | .hotStartPeriodicSave => true
  | .save => true
  | .erase => true
  | .oscillatorLoss => true
  | .oscillatorReturn => true
  | .pllWindow _ _ _ => true
  | .pllLockDeclared _ => true
  | .pllUnlockDeclared _ => true
  | .referenceLoss _ => true
  | .fastCheckWindow _ _ => true
  | .fallbackReturn _ => true
  | .opllPstep _ _ _ => true
  | .phaseMoveStart _ => true
  | .phaseMoveComplete _ => true
  | .realignResume _ => true
  | .outCtrlEnable _ _ => true
  | .outputTransitionComplete _ => true
  | .stagedApply _ => true
  | .irigBFrame _ => true
  | .linkCtrlEnable _ _ _ => true
  | .linkTransitionComplete _ _ => true
  | .anRestart _ _ => true
  | .negotiationComplete _ _ _ => true
  | .linkUp _ _ => true
  | .linkDown _ _ => true
  | .gridMeasurement _ _ _ => true
  | .gridReanchor _ _ => true
  | .gridOkRestored _ _ => true
  | .receiveFrame _ _ _ _ _ => true
  | .clientRead _ _ _ => true
  | .grantCheck _ _ _ => true
  | .dispatch _ => true
  | .threadComplete _ _ => true
  | .engineClockGate _ _ => true
  | .lateCheck _ _ => true
  | .frameLaunch _ _ => true
  | .orderingInstant _ => true
  | .hostWindowOpen _ _ => true
  | .hostFrameFetch _ _ => true
  | .reservedSlotOccurrence _ _ _ => true
  | .grantExpiry _ _ => true
  | .bmca _ _ => true
  | .referenceMessage _ => true
  | .streamGrantRequest _ => true
  | .engCtrlEnable _ _ _ => true
  | .drainComplete _ _ => true
  | .engineStartUpComplete _ _ => true
  | .engineFatalError _ _ => true
  | .engineRejoin _ _ => true
  | .dieCtrlEnable _ => true
  | .dieTransitionComplete _ => true
  | .statSnapGo => true
  | .statSnapCancel => true
  | .snapshotLatch => true
  | .snapshotComplete => true
  | .counterWrap _ _ => true
  | .dispatchStatusRead _ _ => true
  | .calStateRead _ _ _ => true
  | .ntsKeyWrite _ _ _ => true
  | .ntsRotGo => true
  | .ntsRotCancel => true
  | .ntsKeyRotation => true
  | .ringTailWrite _ _ => true
  | .ringCtrlEnable _ _ => true
  | .ringTransitionComplete _ => true
  | .hostDmaError _ _ => true
  | .ringIrqHoldoff _ => true
  | .tsqW0Pop _ _ _ => true
  | .nop => true
  | .hostTime => true
  | .ledgerCopy _ => true
  | .commandCompletion => true
  | .modadd => true
  | .modsub => true
  | .modmul => true
  | .modexp => true
  | .modexpCrt => true
  | .modinv => true
  | .ecdsaSign => true
  | .ecdsaVerify => true
  | .ed25519Sign => true
  | .ed25519Verify => true
  | .x25519 => true
  | .pmul => true
  | .sha => true
  | .bigNumberOperationComplete => true
  | .keyGen => true
  | .keyImportBegin => true
  | .keyImport => true
  | .keyExport => true
  | .keyErase => true
  | .keyInfo => true
  | .idSign => true
  | .importSessionExpiry => true
  | .fuseProg => true
  | .debugChallenge => true
  | .debugUnlock => true
  | .challengeExpiry => true
  | .ntsMint => true
  | .tlsSign => true
  | .bnCtrlEnable _ => true
  | .abort => true
  | .wipeComplete => true
  | .bnStartUpComplete => true
  | .updOpen => true
  | .updBlock _ => true
  | .updClose => true
  | .updAbort => true
  | .confirm => true
  | .reject => true
  | .trialAutoConfirm => true
  | .ringQuery => true
  | .ringEvent => true
  | .setRead => true
  | .setWrite => true
  | .queryTimeout => true
  | .ringPortUp _ => true
  | .ringPortDown _ => true
  | .compareSend _ => true
  | .compare _ _ _ => true
  | .event _ _ => true
  | .snapshot _ _ => true
  | .query _ _ => true
  | .queryReply _ _ => true
  | .updOpenMessage _ _ => true
  | .updData _ _ _ => true
  | .updCloseMessage _ _ => true
  | .updAbortMessage _ _ => true
  | .updReply _ _ => true
  | .blockRetry => true
  | .sessionTimeout => true
  | .grEvqW0Pop _ => true
  | .evEnableWrite _ _ => true
  | .evStatusClear _ _ => true
  | .evRouteWrite _ _ => true
  | .msixUnmask _ _ _ => true
  | .summaryGo => true
  | .summaryLatch _ => true
  | .summaryWritten _ => true
  | .smbusId => true
  | .smbusMode => true
  | .smbusSel => true
  | .temp _ _ => true
  | .sumTake _ => true
  | .sumState => true
  | .sumPtr v _ => decide (v < 2 ^ 16)
  | .sumRead => true
  | .resetReq v _ => decide (v < 2 ^ 16)
  | .smbusTimeout => true
  | .lockstepMismatch => true
  | .housekeepingCoreRestart => true
  | .uncorrectableError _ => true
  | .temperatureAlarm _ _ => true
  | .thermalShutdown _ _ => true
  | .thermalRecovery ts => ts.length == 7
  | .faultRecordWrite => true
  | .pwrGoodRise => true
  | .perstNRise => true
  | .pcieLinkUp _ _ => true
  | .configurationRequest _ _ _ _ => true
  | .syncWordMiss _ => true
  | .ledgerDieLoss _ => true
  | .calendarCycleStart _ _ => true
  | .blockLock _ _ _ _ _ _ _ _ _ => true
  | .detectionVerification _ _ => true
  | .ratioRampComplete _ => true
  | .tableScrub _ _ => true

end Sys2Proof
end

