-- ==== Sys2Proof/Tests/Slice0.lean ====
section
/-! SUPPORT. Tests: the checks of WellFormed, worked examples of the manual, and for each statement one theorem that shows states and operands that meet the hypotheses of each of its clauses together. -/

open Sys2Proof Sys2Proof.Machine

namespace Sys2Proof.Machine

set_option Elab.async false
set_option maxRecDepth 4000

/-! ## States for the tests -/

def State.safeB (s : State) : Bool :=
  Memory.wf s.host && Memory.wf s.ledger && Memory.wf s.flash && decide (s.dev.posted = []) && decide (s.dev.lposted = []) && decide (s.dev.fposted = [])

theorem State.safe_of {s : State} (h : s.safeB = true) : s.Safe := by
  simp only [State.safeB, Bool.and_eq_true, decide_eq_true_eq] at h
  obtain ⟨⟨⟨⟨⟨a, b⟩, c⟩, d⟩, e⟩, f⟩ := h
  exact ⟨a, b, c, d, e, f⟩

def State.shapedB (s : State) : Bool :=
  decide (s.dev.refs.srcs.length = 12) && decide (s.dev.refs.selA.views.length = 12 ∧ s.dev.refs.selB.views.length = 12) &&
  decide (s.dev.tin.length = 8 ∧ ∀ x ∈ s.dev.tin, x.tables.length = 2) && decide (s.dev.gn.bands.length = 2) &&
  decide (s.dev.gn.channels.length = 96) && decide (s.dev.cks.plls.length = 12) && decide (s.dev.cks.oplls.length = 2) &&
  decide (s.dev.cks.outs.length = 4) && decide (s.dev.cks.fracs.length = 4) && decide (s.dev.dies.length = 4) &&
  decide (∀ x ∈ s.dev.dies, x.links.length = 4 ∧ x.engines.length = 4 ∧ x.txq.length = 8) &&
  decide (s.dev.ret.hot.length = 2 ∧ s.dev.ret.hotNew < 2) && decide (s.dev.streams.length = 8) && decide (s.dev.pcie.msix.length = 64) &&
  decide (s.dev.keys.slots.length = 16) && decide (s.dev.ring.ports.length = 2) && decide (s.dev.temps.length = 7) &&
  decide (s.dev.nv.hdrs.length = 2 ∧ ∀ o ∈ s.dev.nv.hdrs, ∀ h ∈ o.toList, h.banks.length = 2 ∧ h.slots.length = 2) &&
  decide (s.dev.nv.sets.length = 2 ∧ ∀ l ∈ s.dev.nv.sets, l.length = 2)

theorem State.shaped_of {s : State} (h : s.shapedB = true) : s.Shaped := by
  simp only [State.shapedB, Bool.and_eq_true, decide_eq_true_eq] at h
  obtain ⟨⟨⟨⟨⟨⟨⟨⟨⟨⟨⟨⟨⟨⟨⟨⟨⟨⟨a, b⟩, c⟩, d⟩, e⟩, f⟩, g⟩, h⟩, i⟩, j⟩, k⟩, l⟩, m⟩, n⟩, o⟩, p⟩, q⟩, r⟩, t⟩ := h
  exact ⟨a, b, c, d, e, f, g, h, i, j, k, l, m, n, o, p, q, ⟨r.1, fun x hx => r.2 _ hx x (by simp)⟩, t⟩

theorem State.takes_of {s : State} {op : Nat} {c : CmdRun} (h : s.dev.nextCmd s.host = some c ∧ c.opcode = op ∧
    s.dev.unitBusy op = false ∧ (cmdUnit op = some 0 → s.dev.md.coresDown = none) ∧ s.dev.cmdRefusal s.host c = none) : s.Takes op c :=
  ⟨h.1, h.2.1, h.2.2.1, h.2.2.2.1, h.2.2.2.2⟩

theorem State.bnIdle_of {s : State} {op : Nat} {c : CmdRun} (h : s.dev.nextCmd s.host = some c ∧ c.opcode = op ∧
    s.dev.cmdRefusal s.host c = none ∧ s.dev.bn = none ∧ s.dev.get F.BN_CTRL_STATE = 0 ∧
    ∀ k ∈ s.dev.pcie.cmds, k.result = none → cmdUnit k.opcode ≠ some 2) : s.BnIdle op c :=
  ⟨h.1, h.2.1, h.2.2.1, h.2.2.2.1, h.2.2.2.2.1, h.2.2.2.2.2⟩

theorem State.arrives_of {s : State} {p : Nat} {f : List Byte} {ty : Nat} {m : Msg} (up : s.dev.portUp p = true) (hf : f = m.bytes)
    (h : m.ty = ty ∧ m.ty < 256 ∧ m.hops < 256 ∧ m.seq < 2 ^ 32 ∧ m.payload.length ≤ 2048) (o : m.origin.length = 8) : s.Arrives p f ty m :=
  ⟨up, hf ▸ parseMsg_bytes m h.2.1 h.2.2.1 o h.2.2.2.1 h.2.2.2.2, h.1⟩

theorem all_some {α : Type} {o : Option α} {p : α → Prop} (h : ∀ x ∈ o.toList, p x) : ∀ x, o = some x → p x :=
  fun x e => h x (by simp [e])

/-- An ORIGIN prefix that is not this device's. -/
@[irreducible] def otherId : List Byte := if selfId = zeros 8 then List.replicate 8 1 else zeros 8
theorem otherId_ne : otherId ≠ selfId := by
  unfold otherId
  split
  · rename_i h; rw [h]; decide
  · rename_i h; exact fun e => h e.symm
theorem otherId_length : otherId.length = 8 := by unfold otherId; split <;> rfl

/-- The parameter set of LOAD. -/
def wSet : PSet := Scale.atLoad.journal.headD ⟨0, 0, 0, 0, 0, none, none, 0⟩
theorem ex_some_true {o : Option (Nat × Bool)} {p : Nat → Prop} :
    (∃ k, o = some (k, true) ∧ p k) ↔ ∃ x ∈ o.toList, x.2 = true ∧ p x.1 := by
  obtain _ | ⟨k, _ | _⟩ := o <;> simp
theorem all_pairs {A : Fin 4 → List (Nat × List Byte)} {en : Fin 4 → Bool} {q : Nat → List Byte → Prop} :
    (∀ (l : Fin 4) (a : Nat) (p : List Byte), en l = true → (a, p) ∈ A l → q a p) ↔
      ∀ l, ∀ x ∈ A l, en l = true → q x.1 x.2 :=
  ⟨fun h l x m e => h l x.1 x.2 e m, fun h l a p e m => h l (a, p) m e⟩
theorem all_epochs {u : Eu} {p : Nat → Prop} (h : (∀ e ∈ (u.epoch 0).toList, p e) ∧ ∀ e ∈ (u.epoch 1).toList, p e) :
    ∀ k e, u.epoch k = some e → p e := by
  intro k e hk
  by_cases z : k = 0
  · exact h.1 e (by rw [← z, hk]; simp)
  · refine h.2 e ?_
    have : u.epoch 1 = u.epoch k := by simp [Eu.epoch, z]
    rw [this, hk]; simp
theorem all_head {α : Type} {l : List α} {p : α → Prop} (h : ∀ x ∈ l.head?.toList, p x) : ∀ x r, l = x :: r → p x :=
  fun x r e => h x (by simp [e])
theorem ed_some {x y : List Byte} (h : x = y) (i : (edDecode y).isSome = true) : edDecode x = some ((edDecode y).getD edZero) := by
  rw [h]
  cases e : edDecode y with
  | none => rw [e] at i; cases i
  | some z => rfl
theorem all_replica {o : Option (Int × Nat)} {f : Int → Nat → Int} {p : Int → Prop} (h : ∀ x ∈ o.toList, p (f x.1 x.2)) :
    ∀ q m, o = some (q, m) → ∀ y, y = f q m → p y :=
  fun q m e y k => k ▸ h (q, m) (by simp [e])
theorem Dev.armed_iff {d : Dev} {q : Req} {g a : Nat} :
    d.Armed q g a ↔ ∃ x ∈ (d.armOf q g).toList, x.target = a % 65536 ∧ d.raw < x.since + 8000 := by
  unfold Dev.Armed
  cases d.armOf q g <;> simp

/-- Fields written one after the other. -/
def Dev.fields (d : Dev) (l : List (Fld × Nat)) : Dev := l.foldl (fun d p => d.set p.1 p.2) d
/-- Registers written one after the other. -/
def Dev.words (d : Dev) (l : List (Nat × Word)) : Dev := l.foldl (fun d p => d.setReg p.1 p.2) d
/-- A device in a mode at raw count 100,000, with both scales as at LOAD and these fields. -/
def dev0 (mode : Nat) (l : List (Fld × Nat) := []) : Dev :=
  { State.reset.dev with clk := { raw := 100000, running := true, oscMhz := 10 }, ts := { a := Scale.atLoad, b := Scale.atLoad } }.fields ((F.MODE_STATUS_MODE, mode) :: l)
def st0 (mode : Nat) (l : List (Fld × Nat) := []) : State := { dev := dev0 mode l }
/-- In WARM with the four answer dies running. -/
def warm (l : List (Fld × Nat) := []) : State := st0 3 ((F.DIE_STATE_STATE, 0) :: l)
/-- With a limit on a field, as a Position gives it. -/
def limd (l : Limit) (s : State) : State := { s with dev.pos.limits := [l] }

def wScale : State :=
  { st0 3 [(F.SC_CTRL_DISCIPLINE 0, 1), (F.SC_CTRL_DISCIPLINE 1, 0)] with pending := [.capture] }
def v10_1 := st0 3
def wStaged : State := { wScale with dev.ts.a := { Scale.atLoad with staged := some { amount := -65536000, ppb := 500 } } }
def wPend : State := { wScale with dev.ts.a := { Scale.atLoad with pend := some { seq := 2, epoch := 90000, ofs := 5, incr := 1, cause := 0x29 } } }
def wCastle (q : CastleReq) : State := { wScale with dev.ts.castle := some q }
def v10_2 := wCastle { s := 110000, target := 1, force := false }
def v10_3 := wCastle { s := 200000, target := 1, force := false }
def v10_4 := wCastle { s := 90000, target := 1, force := false, decided := some 0, switch := some { s := 90000, target := 1, d := 7, delta := 1, n := 5} }
def wBridge : State := { wScale with dev.ts.switches := [{ s := 90000, target := 1, d := 7, delta := 1, n := 5}], dev.ts.bridgeOpen := true }
def wLeap : State := { wScale with dev.ts.leaps := [{ sec := 0, offset := 37 }] }
def wLeapNew : State := { dev := (wLeap.dev.fields [(F.LEAP_CTRL_SRC, 1)]).set64 A.LEAP_NEW_SEC (86400*3+37) }
def wLeap2 : State := { wLeap with dev.ts.leaps := [{ sec := 0, offset := 37 }, {sec := 500, offset := 38}] }
def v10_5 := limd ⟨A.UTC_BASE, 0, 16, 0, 40⟩ wLeap

def v14_6 := limd ⟨A.SLOT_WTR 3, 0, 12, 5, 60⟩ warm
def v14_1 := warm [(F.GBL_STATUS_UNMAPPED, 1)]
def wArm (blk a : Nat) : State := { warm with dev.bus.arms := [(blk, { req := .host, target := a % 65536, since := 99000 })], dev.pos.priv := 0xFF }
def v14_3 := wArm A.TS_GUARD (A.STEP_REL_HI 1)
def v14_7 : State := { limd ⟨A.CASTLE_EPOCH, 0, 64, 0, 7⟩ warm with dev.bus.staged := [((.cores, A.CASTLE_EPOCH), 9)] }
def wFifo : State := { warm with dev := ((warm.dev.setTim 2 { warm.dev.tim 2 with stamps := [leBytes 16 0x123456789ABCDEF], results := [leBytes 64 0x1234567890] }).setLnk 1 2 { warm.dev.lnk 1 2 with tsq := [leBytes 32 0x99] }).fields [(F.IN_STATUS_FIFO_LEVEL 2, 1), (F.MEAS_STATUS_RES_LEVEL 2, 1), (F.TSQ_STATUS_LEVEL 1 2, 1), (F.GR_EVQ_STATUS_LEVEL, 1), (F.DISPATCH_STATUS_LEVEL 3, 4), (F.DISPATCH_STATUS_PEAK 3, 9), (F.CAL_STATE_PEAK 0 3, 8)] }
def wFifo2 : State := { wFifo with dev.ring.evq := [leBytes 32 0x1234567890ABCDEF] }
def v14_2 := wArm A.TS_GUARD 0x24
def v14_8 : State := { v14_3 with dev.pos.priv := 0 }
def v14_9 := limd ⟨A.STEP_REL 1, 0, 64, 0, 7⟩ v14_3
def v14_10 : State := { v14_3 with dev.ts.b := { Scale.atLoad with pend := some wSet } }
def v14_4 := wArm A.TS_GUARD (A.STEP_ABS_SEC_HI 1)
def v14_11 : State := { (st0 3 [(F.SC_STATUS_INIT 1, 1)]) with dev.bus.arms := v14_4.dev.bus.arms }
def v14_12 : State := { v14_4 with dev.bus.staged := [((.host, A.STEP_ABS_NS 1), 1000000000)] }
def v14_13 := limd ⟨A.STEP_ABS_NS 1, 0, 30, 5, 7⟩ v14_4
def v14_5 := wArm A.CK_GUARD (A.OPLL_PSTEP 1)
def v14_14 := limd ⟨A.OPLL_PSTEP 1, 0, 32, 5, 7⟩ v14_5
def v14_15 : State := { v14_5 with dev.pos.priv := 0 }

def wOff : State := warm [(F.IN_CTRL_STATE 1, 2), (F.GN_CTRL_STATE, 2), (F.OUT_CTRL_STATE 1, 2), (F.LINK_CTRL_STATE 1 1, 2), (F.BN_CTRL_STATE, 2), (F.DIE_INFO_ENG_MASK 1, 15), (F.ENG_CTRL_STATE 1 1, 2)]
def wOn : State := warm [(F.IN_CTRL_ENABLE 1, 1), (F.IN_CTRL_STATE 1, 0), (F.GN_CTRL_STATE, 0), (F.OUT_CTRL_STATE 1, 0), (F.LINK_CTRL_STATE 1 1, 0), (F.BN_CTRL_STATE, 0), (F.DIE_INFO_ENG_MASK 1, 13), (F.ENG_CTRL_STATE 1 2, 0), (F.ENG_CTRL_ENABLE 1 2, 1), (F.DIE_INFO_E_MIN 1, 1)]
def wTrans : State := warm [(F.IN_CTRL_STATE 1, 3), (F.GN_CTRL_STATE, 1), (F.OUT_CTRL_STATE 1, 1), (F.LINK_CTRL_STATE 1 1, 3), (F.BN_CTRL_STATE, 3), (F.DIE_INFO_ENG_MASK 1, 15), (F.ENG_CTRL_STATE 1 1, 3)]
def v16_1 := { wOn with dev.pos.present := 5 }
def v16_2 := { wOn with dev := (wOn.dev.set F.DIE_STATE_STATE 0xE4) }
def v16_3 := { wOn with dev := { (wOn.dev.set F.DIE_STATE_STATE 0xE4) with pos.present := 15 } }
def v16_4 := { wOn with dev := { (wOn.dev.set F.MODE_STATUS_MODE 2) with pos.present := 15 } }
def v16_5 := limd ⟨A.IN_CTRL 1, 0, 1, 0, 0⟩ wOff
def v16_6 := limd ⟨A.GN_CTRL, 0, 1, 0, 0⟩ wOff
def v16_7 := limd ⟨A.OUT_CTRL 1, 0, 1, 0, 0⟩ wOff
def v16_8 := limd ⟨A.LINK_CTRL 1 1, 0, 1, 0, 0⟩ wOff
def v16_9 := limd ⟨A.BN_CTRL, 0, 1, 0, 0⟩ wOff
def v16_10 := limd ⟨A.ENG_CTRL 1 1, 0, 1, 0, 0⟩ wOff
def v16_11 := limd ⟨A.EVR_BASE + 12, 0, 1, 0, 0⟩ wOff
def v16_12 := limd ⟨A.DIE_CTRL, 0, 4, 3, 3⟩ wOff

def wSel : State := warm [(F.SLOT_RANK_RANK_A 1, 1), (F.SLOT_STATE_STATE_A 1, 2), (F.SLOT_STATE_SIG_VALID 1, 1), (F.SLOT_CFG_TYPE 1, 4), (F.SEL_STATUS_SELECTED 0, 1), (F.SEL_STATUS_STATE 0, 3), (F.SLOT_RANK_RANK_B 2, 1), (F.SLOT_STATE_STATE_B 2, 3)]
def wDis (n : Nat) : State :=
  { wSel with dev := { (wSel.dev.fields ((List.range n).flatMap fun i => [(F.SLOT_RANK_RANK_A i, 1), (F.SLOT_STATE_STATE_A i, 3), (F.SLOT_STATE_SIG_VALID i, 1), (F.SLOT_CFG_TYPE i, 4)])) with
      clk.raw := 9000000000, refs := { wSel.dev.refs with srcs := setAt (setAt (setAt wSel.dev.refs.srcs 0 { ys := [(0, 0)] }) 1 { ys := [(0, 100)] }) 2 { ys := [(0, 900000000)] }, selA.views := setAt (setAt wSel.dev.refs.selA.views 2 { disSince := some 1000 }) 1 {disSince := some 1000} } } }
def v20_1 := wDis 3
def wDis2 : State := { wDis 2 with dev.refs.srcs := setAt (wDis 2).dev.refs.srcs 1 { ys := [(0, 900000000)] } }
def v20_2 := { wDis2 with dev := wDis2.dev.fields [(F.SLOT_CFG_TYPE 1, 7), (F.SLOT_CFG_BIND 1, 1)] }
def wLock : State := { wDis 3 with dev := { (wDis 3).dev.fields [(F.SEL_STATUS_STATE 0, 1), (F.SEL_STATUS_SELECTED 0, 2), (F.SLOT_STATE_STATE_A 2, 4), (F.LOCK_WINDOW_NS 0, 1000)] with refs := { (wDis 3).dev.refs with selA.lockSince := some 1000, srcs := setAt (wDis 3).dev.refs.srcs 2 { has := true, inst16 := 8900000000*65536, ref16 := floor16 (((wDis 3).dev.ts.a.time72 (8900000000*65536)).getD 0) } } } }
def wHold (lim : Nat) : State := { warm [(F.SEL_STATUS_STATE 1, 3), (F.HOLD_LIMIT_NS 1, lim)] with dev.clk.raw := 9000000000, dev.refs.selB.entry := 100000, dev.refs.selB.fPpt := 50, dev.refs.selB.committed := true }
def wHold' (lim : Nat) : State := { (wHold lim) with dev := ((wHold lim).dev.fields [(F.SEL_STATUS_STATE 1, 3), (F.HOLD_LIMIT_NS 1, lim)]) }
def v20_3 := { wHold' 60000 with dev.refs.selB.coast := some 5 }
def wMeas : State := { wLock with dev.refs.selA.sw := some { target := 2, count := 15 } }
def v20_4 := { wMeas with dev.pos.priv := 0x11 }
def v20_5 := { wMeas with dev.pos.priv := 0x10 }
def v20_6 := limd ⟨A.SEL_CTRL 0, 0, 1, 0, 0⟩ v20_4
def v20_7 : State := { wHold' 60000 with dev.refs.selB.committed := false }

/-- Timing input 2 holds x, at raw count r. -/
def wIn (r : Nat) (x : TimIn) (l : List (Fld × Nat)) : State := { dev := { (warm l).dev.setTim 2 x with clk.raw := r } }
def cnd : Candidate := { stamp := 5000, level := true, edge := 100000, run := some 100000 }
def v22_1 := wIn 100200 { cand := some cnd } []
def v22_2 := wIn 100200 {} [(F.IN_CTRL_STATE 2, 2)]
def v22_3 := wIn 100200 { lastStamp := some 6566707200 } [(F.IN_CTRL_STATE 2, 0), (F.IN_CFG_EDGE 2, 0)]
def v22_4 := wIn 100200 {} [(F.IN_CTRL_STATE 2, 0), (F.IN_CFG_EDGE 2, 1), (F.IN_FILT_FILT 2, 3)]
def v22_5 := wIn 100200 {} [(F.IN_CTRL_STATE 2, 0), (F.IN_CFG_EDGE 2, 2)]
def v22_6 := wIn 100200 { cand := some cnd } [(F.IN_FILT_FILT 2, 2), (F.IN_FILT_BOUNCE 2, 1)]
def v22_7 := wIn 100200 { cand := some cnd, stamps := List.replicate 1024 [] } [(F.IN_FILT_FILT 2, 2), (F.IN_FILT_BOUNCE 2, 1)]
def v22_23 := wIn 100200 {} [(F.IN_CTRL_STATE 2, 0), (F.IN_CFG_EDGE 2, 2), (F.IN_CFG_DIVIDE 2, 3)]
def cnd0 : Candidate := { cnd with run := none }
def v22_8 := wIn 100200 { cand := some cnd0 } []
def hitsGood : List Nat := List.replicate 511 2048 ++ [2048]
def v22_9 := wIn 5 {} []
def v22_24 := wIn 5 {} [(F.MODE_STATUS_TB_OFF, 1)]
def v22_10 := wIn 5 { goodLines := 1} [(F.IN_STATUS_CAL_WARN 2, 1)]
def v22_11 := wIn 5 { swapReady := true } []
def v22_12 := wIn 5 {} [(F.MEAS_CFG_MODE 2, 2), (F.MEAS_CFG_GATE_SEL 2, 8)]
def v22_13 := wIn 5 {} [(F.MEAS_CFG_MODE 2, 2), (F.MEAS_CFG_GATE_SEL 2, 15)]
def mIn : TimIn := { nextOpen := some 100000 }
def v22_14 := wIn 100000 mIn [(F.MEAS_CFG_MODE 2, 2), (F.MEAS_CFG_GATE_SEL 2, 8), (F.MEAS_GATE_MS 2, 3), (F.MEAS_CTRL_CONT 2, 1)]
def mGate : TimIn := { gates := [{ opened := 10 * 65536, n := 3 }], start := some { stamp := 7, since := 100, t18 := 0, rec' := [] } }
def v22_15 := wIn 100000 mGate []
def v22_16 := wIn 100000 {} []
def v22_17 := wIn 100000 mGate [(F.MEAS_TIMEOUT_US 2, 5)]
def mHold : TimIn := { cand := some cnd, stop := some (99500, 4500) }
def wHoldStop : State := wIn 100200 mHold [(F.IN_FILT_FILT 2, 2), (F.IN_FILT_BOUNCE 2, 1), (F.MEAS_CFG_MODE 2, 1), (F.MEAS_STATUS_ARMED 2, 1), (F.MEAS_CFG_START_SEL 2, 1)]
def iStart : Start := { stamp := 4000, since := 99000, t18 := 77, rec' := List.replicate 16 7, calWarn := true }
def mInt : TimIn := { cand := some cnd, start := some iStart, stop := some (99500, 4500) }
def wInt : State := wIn 100200 mInt [(F.IN_FILT_FILT 2, 2), (F.IN_FILT_BOUNCE 2, 1), (F.MEAS_CFG_MODE 2, 1), (F.MEAS_STATUS_ARMED 2, 1), (F.MEAS_CFG_START_SEL 2, 1)]
def gDone : Gate := { opened := 10 * 65536, closed := some (50000 * 65536), n := 1 }
def gDone2 : Gate := { opened := 10 * 65536, closed := some (50000 * 65536), n := 20, t0 := 5, si := 190, st := 1900, sit := 24700, si2 := 2470, st2 := 247000, last := some (7, 8) }
def v22_18 := wIn 100000 { gates := [gDone] } [(F.MEAS_CFG_MODE 2, 2)]
def v22_19 := wIn 100000 { gates := [gDone2] } [(F.MEAS_CFG_MODE 2, 2)]
def v22_20 := wIn 100000 { gates := [gDone2], results := List.replicate 16 [] } [(F.MEAS_CFG_MODE 2, 3)]
def v22_21 := wIn 100000 { gates := [gDone2] } [(F.IN_CTRL_STATE 2, 1), (F.IN_CTRL_LATCHED 2, 1), (F.SLOT_CFG_TYPE 3, 1), (F.SLOT_CFG_BIND 3, 2)]
def v22_22 := wIn 100000 { lastStamp := some 5 } [(F.IN_CTRL_STATE 2, 3)]
def v22_25 := wIn 100000 { lastStamp := some 5, goodLines := 3 } [(F.IN_CTRL_STATE 2, 3)]


def wGn (r : Nat) (g : Gnss) (l : List (Fld × Nat)) : State := { dev := { (warm l).dev with gn := g, clk.raw := r } }
def gChan : Gnss := { channels := setAt (setAt (List.replicate 96 {}) 3 { state := 2, signal := 3, sv := 5, cn0 := 160, used := true }) 7 { state := 0, signal := 0, sv := 5 } }
def v24_1 := wGn 5 gChan []
def v24_2 := wGn 5 gChan [(bandUpF 0, 1), (F.GN_CTRL_STATE, 0), (F.AGC_CFG_TARGET 0, 50)]
def v24_3 := wGn 5 { gChan with bands := [{ calCode := 10, calRms := 20 }, {}] } [(bandUpF 0, 1), (F.GN_CTRL_STATE, 0), (F.JAM_CAL_VALID 0, 1), (F.JAM_JN_THR 0, 3)]
def v24_4 := wGn 5 gChan [(F.AGC_STATUS_CODE 0, 9), (F.AGC_STATUS_RMS 0, 8)]
def lBand : List (Fld × Nat) := [(F.GN_CTRL_STATE, 0), (bandUpF 0, 1), (F.NOTCH_CFG_THR 0, 20), (F.NOTCH_CFG_ENABLE 0, 15)]
def gLine : Gnss := { bands := [{ lines := [(4, 9)] }, {}] }
def v24_5 := wGn 5 gLine lBand
def gNotch : Gnss := { bands := [{ notch := [some (4, 99), some (9, 5), none, none] }, {}] }
def v24_6 := wGn 5 gNotch lBand
def lGn : List (Fld × Nat) := [(F.GN_CTRL_STATE, 0), (bandUpF 0, 1), (bandUpF 1, 1), (F.GN_CTRL_BANDS, 3), (F.GN_CTRL_CONST, 7)]
def v24_8 := wGn 5 gChan lGn
def v24_30 := wGn 5 { channels := setAt (setAt (List.replicate 96 {}) 3 { state := 2, signal := 3, sv := 5, cn0 := 160, used := true }) 7 { state := 3, signal := 4, sv := 9 } } lGn
def v24_31 := wGn 5 { channels := setAt (List.replicate 96 { state := 2, signal := 3, sv := 5 }) 1 {} } lGn
def v24_9 := wGn 5 { channels := setAt (List.replicate 96 {}) 3 { state := 1, sv := 5 } } lGn
def v24_32 := wGn 900000000 { channels := setAt (List.replicate 96 {}) 3 { state := 2, sv := 5, lowSince := some 7 } } lGn
def v24_33 := wGn 5 { channels := setAt (List.replicate 96 {}) 3 { state := 2, signal := 0, sv := 5 }, epochEdge := some (0, 1000), posNext := some [7, 8, 9] } lGn
def v24_34 := wGn 5 { channels := setAt (List.replicate 96 {}) 3 { state := 2, signal := 0, sv := 5 }, fresh := true } lGn
def gSol : Sys2Proof.GnSolution := { sysTime := 12345678, drift := -7, sigmaPs := 1001, nsat := 9, pos := [1, 2, 3], posUnc := 5 }
def gEpoch : Gnss := { epoch := some 6553600001 }
def v24_10 := wGn 500000 gEpoch [(F.GN_CTRL_STATE, 0), (F.SLOT_CFG_TYPE 2, 4)]
def v24_35 := wGn 500000 { gEpoch with posSet := true } [(F.GN_CTRL_STATE, 0), (F.GN_CTRL_HOLD_MODE, 1), (F.RF_DELAY_DELAY 0, 500)]
def gSol1 : Sys2Proof.GnSolution := { gSol with nsat := 1 }
def v24_36 := wGn 500000 gEpoch [(F.GN_CTRL_STATE, 0), (F.GN_CTRL_HOLD_MODE, 2)]
def gSol2 : Sys2Proof.GnSolution := { gSol with iono := 2 }
def gHeld : Gnss := { sol := some { r16 := 1, time := 2, drift := 3, unc := 4 }, fails := [0, 5, 0, 0, 0], passes := 10, shortSince := some 5, surveySince := some 5, surveySum := [30, -40, 5], surveyN := 2 }
def v24_11 := wGn 500000 gHeld []
def v24_12 := wGn 500000 gHeld [(F.GN_CHK_CFG_PERSIST, 3), (F.SLOT_CFG_TYPE 2, 4), (F.SLOT_STATE_SIG_VALID 2, 1)]
def v24_13 := wGn 500000 gHeld [(F.GN_CHK_CFG_CLEAR, 3), (F.GN_STATE_SUSPECT, 1), (F.SLOT_CFG_TYPE 2, 4)]
def v24_14 := wGn 9000000000 gHeld [(F.GN_HOLD_S, 3), (F.GN_STATE_SHORT_HOLD, 1), (F.SLOT_CFG_TYPE 2, 4), (F.SLOT_STATE_SIG_VALID 2, 1)]
def v24_15 := wGn 9000000000 gHeld [(F.GN_STATE_SOLN, 2), (F.GN_SURVEY_S, 10)]
def v24_16 := wGn 9000000000 gHeld [(F.GN_STATE_SOLN, 3)]
def v24_17 := wGn 9000000000 gHeld [(F.GN_STATE_SOLN, 2)]
def v24_18 := wGn 9000000000 { gHeld with channels := gChan.channels } [(F.GN_CTRL_STATE, 1), (F.GN_CTRL_LATCHED, 1)]
def v24_19 := wGn 9000000000 gHeld [(F.GN_CTRL_STATE, 3)]
def v24_20 := wGn 9000000000 gHeld [(F.GN_CTRL_STATE, 3), (F.SC_STATUS_INIT 0, 1)]
def wDuty' (a : Bool) : State := { wGn 9000000000 { gHeld with asleep := a } [(F.MODE_STATUS_MODE, 2), (F.GN_CTRL_STBY_DUTY, 1), (F.GN_CTRL_ENABLE, 1), (F.GN_CTRL_STATE, if a then 2 else 0), (F.GN_DUTY_PERIOD_S, 10), (F.GN_DUTY_ON_S, 3)] with dev := { (wGn 9000000000 { gHeld with asleep := a } [(F.MODE_STATUS_MODE, 2), (F.GN_CTRL_STBY_DUTY, 1), (F.GN_CTRL_ENABLE, 1), (F.GN_CTRL_STATE, if a then 2 else 0), (F.GN_DUTY_PERIOD_S, 10), (F.GN_DUTY_ON_S, 3)]).dev with ret.aon := 30000000 } }
def wDutyAt (d : Nat) (l : List (Fld × Nat)) : State := { dev := { (wDuty' false).dev with gn := { (wDuty' false).dev.gn with dutyAt := d } }.fields l }
def v24_37 := wDutyAt 25000000 []
def v24_38 := wDutyAt 20000000 []
def v24_39 : State := { dev := (wDuty' true).dev.fields [(F.MODE_STATUS_MODE, 3)] }
def v24_21 := wGn 90000000000 gHeld [(F.GN_CTRL_STATE, 0)]


/-- In WARM at raw count r, after f. -/
def warmAt (r : Nat) (l : List (Fld × Nat)) (f : Dev → Dev := id) : State := { dev := f { (warm l).dev with clk.raw := r } }
def wPll (l : List (Fld × Nat)) : State := warmAt 500000 l fun d => { d with cks.plls := List.replicate 12 { badWin := 2 } }
def v26_1 := wPll [(pllGood 4, 3)]
def v26_2 := wPll [(pllGood 9, 3)]
def v26_3 := wPll [(pllGood 0, 3), (F.OSC_STATUS_PRESENT, 1)]
def v26_20 := wPll [(F.OSC_STATUS_PRESENT, 0)]
def v26_4 := wPll [(pllGood 5, 8), (pllFallback 5, 1)]
def v26_5 := wPll [(pllGood 0, 8), (pllCoast 0, 1)]
def v26_6 := wPll [(pllGood 0, 8)]
def wLocked : State := wPll [(pllLocked 0, 1), (pllLocked 5, 1), (pllLocked 9, 1), (F.SEL_STATUS_STATE 0, 2), (F.LINK_STATUS_LINK_UP 1 1, 1)]
def wOsc (l : List (Fld × Nat)) : State := wPll ((pllLocked 0, 1) :: (F.SEL_STATUS_STATE 0, 2) :: l)
def v26_7 := wOsc [(F.OSC_STATUS_PRESENT, 1)]
def fOsc : OpenFault := { fr := { code := 0x0C, die := 0xFF, index := 0 } }
def v26_8 := warmAt 5 [(F.OSC_STATUS_AON_RC, 1), (F.FRAC_STATUS_COAST 1, 1)] fun d => { d with openFaults := [fOsc] }
def v26_9 := warmAt 5 [(F.FRAC_STATUS_RAMPING 1, 1)] fun d => { d with cks.fracs := [{}, { target := -70, start := -70 }, {}, {}] }
def v26_10 := wPll [(pllLocked 5, 1)]
def v26_11 := warmAt 500000 [(F.DPLL_STATUS_FALLBACK 1 0, 1), (F.ENG_STATUS_SLOW_CLK 1 2, 1)] fun d => ({ d with openFaults := [{ fr := { code := 3, die := 1, index := 0 } }] } : Dev).setReg (A.ENG_FB_EPOCH 1) 400000
def oMove : Opll := { target := 10, queued := [(100, -30), (200, 4)] }
def wOpll (x : Opll) (l : List (Fld × Nat)) : State := warmAt 800000000 l fun d => { d with cks.oplls := [{}, x] }
def v26_12 := wOpll oMove []
def v26_13 := wOpll { target := 10, ofs0 := 10 } [(F.OPLL_STATUS_MOVING 1, 1)]
def v26_14 := wOpll { target := 10, resumeFrom := 900 } [(F.OPLL_STATUS_REALIGN_WAIT 1, 1)]
def v26_21 := wOpll { target := 10, resumeFrom := 900000000 } [(F.OPLL_STATUS_REALIGN_WAIT 1, 1)]
def wOut (x : TOut) (l : List (Fld × Nat)) : State := warmAt 800000000 l fun d => { d with cks.outs := [{}, x, {}, {}] }
abbrev wDue (s : State) (n : Nat) (r : Nat) : Prop := s.dev.codeSecond (s.dev.get (F.OPLL_CFG_SCALE (s.dev.get (F.OUT_CFG_SRC n)))) r ≤ s.dev.raw
def v26_15 := wOut { transFrom := 900 } [(F.OUT_CTRL_STATE 1, 3), (F.OUT_CTRL_LATCHED 1, 1)]
def v26_16 := wOut { transFrom := 900 } [(F.OUT_CTRL_STATE 1, 3)]
def v26_17 := wOut { transFrom := 900 } [(F.OUT_CTRL_STATE 1, 1)]
def v26_22 := wOut { transFrom := 900000000 } [(F.OUT_CTRL_STATE 1, 1)]
def v26_18 := wOut { live := some [1], stagedFrom := 900 } [(F.OUT_STATUS_STAGED 1, 1)]
def v26_23 := wOut { live := some [1], stagedFrom := 900000000 } [(F.OUT_STATUS_STAGED 1, 1)]
def v26_19 := wOut {} [(F.OUT_CFG_TYPE 1, 3), (F.OUT_CTRL_STATE 1, 0)]

/-- In WARM at raw count r with link 1.2 as x. -/
def wLnk (r : Nat) (x : Lnk) (l : List (Fld × Nat)) : State := warmAt r l fun d => d.setLnk 1 2 x
def v30_1 := wLnk 9000 {} [(F.LINK_CTRL_STATE 1 2, 0), (F.LINK_CFG_AN 1 2, 1)]
def v30_2 := wLnk 9000 {} [(F.LINK_CTRL_STATE 1 2, 0), (F.LINK_CFG_AN 1 2, 0)]
def xUp : Lnk := { lockedSince := some 100, gen := 65535, sessions := [4] }
def v30_3 := wLnk 900000 { xUp with lockedSince := some 0 } [(F.PORT_MODE_PRESENT 1, 15), (F.LINK_CTRL_STATE 1 2, 0)]
def v30_4 := { xUp with lockedSince := some 0 }
def v30_5 := wLnk 900000 xUp [(F.LINK_CTRL_STATE 1 2, 0), (F.LINK_STATUS_LINK_UP 1 2, 1)]
def v30_6 := wLnk 900000 xUp [(F.LINK_CTRL_STATE 1 2, 0), (F.LINK_STATUS_LINK_UP 1 2, 1), (F.LINK_STATUS_AN_DONE 1 2, 1)]
def v30_7 := wLnk 900000 xUp [(F.LINK_CTRL_STATE 1 2, 3), (F.LINK_CTRL_LATCHED 1 2, 1)]
def v30_8 := wLnk 900000 xUp [(F.LINK_CTRL_STATE 1 2, 1), (F.LINK_STATUS_LINK_UP 1 2, 1)]
def v30_9 := wLnk 900000 xUp [(F.LINK_CTRL_STATE 1 2, 1), (F.LINK_CTRL_LATCHED 1 2, 1), (F.LINK_STATUS_LINK_UP 1 2, 1)]
def v30_10 := wLnk 900000 {} [(F.LINK_STATUS_LINK_UP 1 2, 1)]
def v30_11 := wLnk 900000 {} [(F.LINK_STATUS_LINK_UP 1 2, 0)]
def v30_24 := wLnk 900000 { reanchor := some 4000000, goodGrid := 15 } [(F.LINK_STATUS_LINK_UP 1 2, 1)]
def v30_12 := wLnk 900000 {goodGrid := 16} []
def cHost (start : Nat) : Commit := { start := start, occ := 12, dOut := 0, lam := 70000, len := 64, load := .sched (zeros 46) false }
def xRe : Lnk := { reanchor := some 5, commits := [cHost 3, cHost 7] }
def v30_13 := warmAt 900000 [(F.GRID_ERR_ERR 1 2, 500)] fun d => ({ d with openFaults := [{ fr := { code := 6, die := 1, index := 2 } }] } : Dev).setLnk 1 2 xRe
def v30_14 := wLnk 900000 { calNew := true } [(F.CAL_CYCLE_N 1 2, 50), (F.CAL_WIN_START_S 1 2, 3), (F.CAL_WIN_LEN_L 1 2, 4)]
def v30_15 := wLnk 900000 {} []
def cLaunch (load : Load) : Commit := { start := 3, occ := 12, dOut := 0, lam := 70000, len := 64, load := load }
def v30_16 := wLnk 900000 { commits := [cLaunch (.sched (zeros 46) false)] } [(F.LINK_STATUS_LINK_UP 1 2, 1)]
def v30_17 := wLnk 900000 { commits := [cLaunch (.hostFrame { ring := 0, descs := [0], bytes := zeros 60, tag := 0 })] } [(F.LINK_STATUS_LINK_UP 1 2, 1)]
def v30_18 := cLaunch (.hostFrame { ring := 0, descs := [0], bytes := zeros 60, tag := 0 })
def qDone : Query := { id := 4, link := 2, ctx := 1, img := List.replicate 16 0, bytes := zeros 90, stamp := 60000, need := 0, stage := .done, reply := some (zeros 90), outcome := some 0 }
def xRep : Lnk := { commits := [cLaunch (.reply 4)] }
def wRep (q : Query) : State := warmAt 900000 [(F.LINK_STATUS_LINK_UP 1 2, 1)] fun d => (d.setDie 1 { d.die 1 with queries := [q] }).setLnk 1 2 xRep
def v30_19 := wRep qDone
def v30_20 := wLnk 900000 { commits := [cLaunch (.sched (zeros 46) false)] } []
def qQueued : Query := { qDone with stage := .queued, outcome := none, reply := none }
def v30_21 : State := { dev := (wRep qQueued).dev.fields [(F.LINK_STATUS_LINK_UP 1 2, 0)] }
def v30_25 := wRep qQueued
def v30_26 := wLnk 900000 { commits := [cLaunch (.sched (zeros 46) true)] } [(F.LINK_STATUS_LINK_UP 1 2, 1), (F.LINK_TEST_LOOP 1 2, 1)]
def ordr : Sys2Proof.Machine.Ordering := { at' := 899000, stamp := 5, link := 2, ctx := 3, outcome := 1, src := zeros 4, ipv6 := false, log := false, logRefused := false }
def v30_23 := warmAt 900000 [] fun d => d.setDie 1 { d.die 1 with orderings := [ordr] }
def wTab : State := { warmAt 900000 [] (fun d => (d.setLnk 1 2 { d.lnk 1 2 with gen := 5 }).words [(A.CT_SIZE 1 2, 1), (A.ST_BASE 1 2, 0x1000), (A.ST_SIZE 1 2, 1)]) with ledger := Mem.write (Mem.write [] 64 (zeros 16 ++ [1, 0, 4, 0])) 0x1000 (zeros 10 ++ [3]) }
/-- The bytes that hold VALID of the stale entries of link 1.2. -/
def wStale (a : Nat) : Prop :=
  ∃ base size flags gen, (base, size, flags, gen) ∈
      [(wTab.dev.get64 (A.CT_BASE 1 2), (wTab.dev.reg (A.CT_SIZE 1 2)).toNat * 4096, 16, 18),
       (wTab.dev.get64 (A.ST_BASE 1 2), (wTab.dev.reg (A.ST_SIZE 1 2)).toNat * 4096, 10, 60)] ∧
      base ≤ a ∧ a < base + size ∧ (a - base) % 64 = flags ∧ (wTab.ledger.get a).getLsbD 0 = true ∧
      leNat (wTab.ledger.read (a - flags + gen) 2) ≠ (wTab.dev.lnk 1 2).gen


def wTx (f : Dev → Dev) : State :=
  { dev := f { (warm [(F.TXR_CTRL_STATE 1 2, 0), (F.TXR_CFG_LOG2 1 2, 6), (F.TXR_TAIL_I 1 2, 3)]).dev with pcie.busMaster := true }
    host := Mem.write [] 0 [0x00, 0x20, 0, 0, 0, 0, 0, 0, 60, 0, 1, 0, 0x34, 0x12] }
def v32_1 := wTx fun d => { d with pcie.busMaster := false }
def v32_2 := wTx id
def hFr : HostFrame := { ring := 2, descs := [0], bytes := zeros 60, tag := 0 }
def xWin : Lnk := { cal := { n := 1000000, ws := 0, wl := 1000000 } }
def wWin : State := warmAt 900000 [(F.TXR_CFG_LINK 1 2, 2), (F.TXR_CTRL_STATE 1 2, 0), (F.LINK_CTRL_STATE 1 2, 0), (F.LINK_STATUS_LINK_UP 1 2, 1)] fun d => (d.setLnk 1 2 xWin).setDie 1 { (d.setLnk 1 2 xWin).die 1 with txq := setAt (List.replicate 8 []) 2 [hFr, hFr] }
def qEng (st : Stage) (id stamp : Nat) : Query := { qDone with id := id, stamp := stamp, stage := st, reply := none, outcome := none, cells := 2 }
def wEng (l : List (Fld × Nat)) (e : Eng) (qs : List Query) : State :=
  warmAt 9000000 ([(F.DIE_INFO_ENG_MASK 1, 15), (F.ENG_CTRL_STATE 1 0, 0), (F.ENG_CTRL_STATE 1 1, 0), (F.DIE_INFO_E_MIN 1, 1)] ++ l) fun d => (d.setDie 1 { d.die 1 with queries := qs }).setEng 1 1 e
def v32_3 := wEng [(F.ENG_STATUS_GATED 1 1, 1)] {} [qEng .queued 1 70, qEng .queued 2 60, qEng (.thread 0) 3 50]
def v32_4 := wEng [] {} [qEng .done 1 70]
def qTh : Query := qEng (.thread 1) 3 50
def v32_5 := wEng [] {} [qTh, qEng .done 1 70]
def v32_6 := (qTh.form ((wEng [] {} [qTh, qEng .done 1 70]).dev.seenAt 1 50) 1 0).1
def v32_7 := (qTh.form ((wEng [] {} [qTh, qEng .done 1 70]).dev.seenAt 1 50) 1 0).2.1
def qFall : Query := { qTh with fallen := some 5 }
def v32_19 := wEng [] {} [qFall, qEng .done 1 70]
def v32_8 := wEng [] {} []
def v32_9 := wEng [] {} [qTh]
def v32_10 := wEng [(F.ENG_CTRL_STATE 1 1, 1)] {} []
def v32_11 := wEng [(F.ENG_CTRL_STATE 1 1, 1), (F.ENG_CTRL_LATCHED 1 1, 1)] {} []
def v32_12 := wEng [(F.ENG_CTRL_STATE 1 1, 1)] {} [qTh]
def v32_13 := wEng [(F.ENG_CTRL_STATE 1 1, 3)] {} []
def v32_14 := wEng [(F.ENG_CTRL_STATE 1 1, 3), (F.ENG_CTRL_LATCHED 1 1, 1), (F.ENG_CTRL_ENABLE 1 0, 1)] {} []
def v32_15 := wEng [(F.ENG_CTRL_STATE 1 1, 3), (F.ENG_CTRL_LATCHED 1 1, 1), (F.ENG_CTRL_ENABLE 1 1, 1), (F.ENG_CTRL_ENABLE 1 0, 0), (F.ENG_CTRL_ENABLE 1 2, 0), (F.ENG_CTRL_ENABLE 1 3, 0)] {} []
def v32_16 := wEng [(F.ENG_CTRL_STATE 1 1, 1), (F.ENG_CTRL_LATCHED 1 1, 1)] {} [qTh]
def v32_17 := wEng [] { rejoin := some 8900000 } [qTh]
def v32_18 := wEng [(F.ENG_CTRL_STATE 1 1, 3), (F.ENG_FAULT_RECOVERING 1, 2)] { recoverAt := some 8900000 } []


def node (n l j ofs adv mark dflt : Nat) : List (Nat × Word) :=
  [(A.NODE_0 n l j, BitVec.ofNat 32 (1 + 2 ^ 8 + 2 ^ 10 * 1 + 2 ^ 12 * adv + 2 ^ 21 * mark + 2 * ofs)), (A.NODE_1 n l j, BitVec.ofNat 32 dflt)]
/-- A parse graph on link 1.2 for IPv4 and UDP without options, that ends in context c. -/
def graph (c : Nat) : List (Nat × Word) := node 1 2 0 0 2 1 1 ++ node 1 2 1 0 20 2 2 ++ node 1 2 2 0 8 3 (256 + c)
def ctx1 (l : List (Nat × Word)) : List (Nat × Word) := l.map fun w => (A.CTX_LINE 1 0 (w.1 / 4), w.2)
def withFcs (f : List Byte) : List Byte := f ++ fcsOf f
def udpFrame (dport : Nat) (pay : List Byte) : List Byte :=
  withFcs (List.replicate 6 2 ++ List.replicate 6 4 ++ [8, 0] ++ ip4Header 0 (28 + pay.length) 7 false 64 17 [10, 0, 0, 1] [10, 0, 0, 2] ++ udpPacket false [10, 0, 0, 1] [10, 0, 0, 2] 1000 dport pay)
def ntpReq : List Byte := udpFrame 123 ([0x23] ++ zeros 47)
def wRx (l : List (Fld × Nat)) (w : List (Nat × Word)) (f : Dev → Dev := id) : State :=
  { dev := f ({ (warm ([(F.LINK_STATUS_LINK_UP 1 2, 1), (F.LINK_CTRL_STATE 1 2, 0), (F.LINK_CFG_MODE 1 2, 2)] ++ l)).dev with clk.raw := 900000, pos.hostKib := [128, 128, 128, 128], pcie.busMaster := true }.words (graph 1 ++ w)) }
def mii : Nat := 800000 * 65536
def wRxV : Dev := (wRx [] []).dev.regsAt (stampOf mii (((wRx [] []).dev.regsAt mii).dRx 1 2))
def v34_1 := wRx [] []
def rxL : List (Fld × Nat) := [(ringState (A.RXR_BASE 1 0), 0), (ringLog2 (A.RXR_BASE 1 0), 6), (F.RXR_CFG_BUF 1 0, 4), (ringTail (A.RXR_BASE 1 0), 3)]
def v34_2 := wRx rxL []
def ctxW : List (Nat × Word) := ctx1 [(0, 1 + 2 ^ 14), (0x04, 800), (0x10, 0xFFFFFFFF), (0x14, 0xFFFF), (0x44, 0x00010001), (0x48, 0x00010001), (0x4C, 1)]
def v34_3 := wRx rxL ctxW
def wServe : State := wRx rxL ctxW fun d => { d with md.serve := some (0, true) }


def img1 (l : List (Nat × Word)) : Img := (List.range 64).map fun w => ((l.find? fun p => p.1 = 4 * w).map (·.2)).getD 0
def qCl : Query := { id := 4, link := 2, ctx := 1, img := img1 [(0, 3), (0x18, 1000), (0x1C, 0x18000005)], bytes := ntpReq.take 90, stamp := 800000 * 65536, need := 0, l3 := 14, l4 := 34, ip := true, stage := .client }
def wQs (q : List Query) (l : List (Nat × Word)) (led : Mem := []) : State := { (warmAt 900000 [(F.LINK_STATUS_LINK_UP 1 2, 1)] fun d => (d.setDie 1 { d.die 1 with queries := q }).words l) with ledger := led }
def v36_1 := wQs [] []
def v36_2 := wQs [qCl] []
def clW : List (Nat × Word) := [(A.CT_SIZE 1 2, 1), (A.CT_BASE 1 2, 0x1000)]
def clA : Nat := tableSet 0x1000 8 0 ([0, 0] ++ qCl.clientKey)
def clLed : Mem := Mem.write [] clA (clientEntry qCl.clientKey false 0 0 (3 * reqUnit) (zeros 16) 5 6 7)
def sCl : State := wQs [qCl] clW clLed
def clR : Nat × Option Int := refill (leAt (sCl.ledger.read clA 64) 20 12) (Img.f qCl.img 0x1C 15 0 * reqUnit) (Img.f qCl.img 0x18 31 0) (some (recordTime (slice (sCl.ledger.read clA 64) 32 16))) (sCl.dev.dieTime 1 (Img.scale qCl.img) qCl.stamp)
def ptpReq : List Byte := [1, 2, 0, 44, 0, 0, 0, 0] ++ zeros 12 ++ [1, 2, 3, 4, 5, 6, 7, 8, 0, 1] ++ [0, 5, 1, 0x7F] ++ zeros 10
def qGr : Query := { qCl with img := img1 [(0, 3 + 2 ^ 17)], bytes := zeros 14 ++ ptpReq, l3 := 14, l4 := 0, pay := 14, ip := false, stage := .grant }
def sesE (f : Nat) : List Byte := [1, 2, 3, 4, 5, 6, 7, 8, 0, 1, byte f, 0] ++ zeros 28 ++ leBytes 4 50 ++ leBytes 4 50 ++ leBytes 4 50 ++ zeros 12
def gsW : List (Nat × Word) := [(A.ST_SIZE 1 2, 1), (A.ST_BASE 1 2, 0x1000)]
def gsLed : Mem := Mem.write [] (0x1000 + 64 * 48) (sesE 9)
def wGs : State := wQs [qGr] gsW gsLed
def qGr' : Query := { qGr with refused := false, stage := .done, cells := 0, outcome := some 0, reply := some (qGr.ptpFrame (qGr.ptpReplyMsg (wGs.dev.seenAt 1 qGr.stamp) 0)) }
def v36_3 := wQs [qGr] []
def v36_4 := { qGr with refused := true, stage := .done, cells := 0, outcome := some 4, reply := none }
def wSe (led : Mem) : State := { wGs with ledger := led, dev := wGs.dev.setLnk 1 2 { wGs.dev.lnk 1 2 with sessions := [1, 2, 3] } }
def seLed : Mem := Mem.write (Mem.write (Mem.write [] 0x1040 (sesE 9)) 0x1080 (patch (sesE 9) 48 (leBytes 4 0xFFFFFFF0))) 0x10C0 (patch (sesE 15) 44 (leBytes 4 0xFFFFFFF0))
def sSe : State := wSe seLed
def seGone (i : Nat) : List Nat := (List.range 3).filter fun g => sesGranted (sSe.ledger.read (sSe.dev.sesAddr 1 2 i) 64) g && !sesValid (sSe.ledger.read (sSe.dev.sesAddr 1 2 i) 64) g (sSe.dev.sesTime 1 (sSe.ledger.read (sSe.dev.sesAddr 1 2 i) 64) (ticks16 sSe.dev.raw))
def xSlot (u : Nat) (y : Lnk := {}) : Lnk := { y with cal := { n := 2000000, ws := 10, wl := 10, rsv := [(0, 1900000, true)], use := [u] } }
def wSl (x : Lnk) (l : List (Fld × Nat)) (w : List (Nat × Word)) (f : Dev → Dev := id) : State := warmAt 900000 ([(F.LINK_STATUS_LINK_UP 1 2, 1), (F.LINK_CTRL_STATE 1 2, 0), (F.LINK_CFG_MODE 1 2, 2)] ++ l) fun d => (f (d.setLnk 1 2 x)).words w
def nowOf (s : State) : Nat := (s.dev.lnk 1 2).granuleNow (s.dev.grid 1 2) s.dev.raw
def v36_5 := wSl {} [] []
def sSl (u : Nat) : State := wSl (xSlot u) [] []
def v36_6 := wSl (xSlot 0) [] []
def v36_7 := wSl (xSlot 0x103) [(F.LINK_STATUS_LINK_UP 1 2, 0)] []
def v36_8 := wSl (xSlot 0x103) [] []
def mastW : List (Nat × Word) := ctx1 [(0, 1 + 2 ^ 14 + 2 ^ 17), (0x40, 2 ^ 8), (0x44, 0x0100), (0x48, 6 + 16), (0x50, 0x04030201), (0x54, 0x08070605)]
def xAnn : Lnk := xSlot 0x103 { dues := [{ role := 3, ctx := 1, due := 0 }] }
def sAnn : State := wSl xAnn [] mastW
def annDue : Int := dueIndex (sAnn.dev.ptpTime (sAnn.dev.img 1 1) ((sAnn.dev.lnk 1 2).granuleAt (sAnn.dev.grid 1 2) 0)) 1 0
def xAnn' : Lnk := xSlot 0x103 { dues := [{ role := 3, ctx := 1, due := annDue - 1 }] }
def v36_9 := wSl xAnn' [] mastW
def sStr : State := wSl (xSlot 0x206) [(F.STR_CFG_LINK 2, 6), (F.STR_CFG_CONTEXT 2, 1), (F.STR_CFG_UNICAST 2, 1)] mastW fun d => { d with streams := [{}, {}, { sig := [zeros 44, zeros 64] }, {}, {}, {}, {}, {}] }
def annP (p1 : Nat) : List Byte := [0x0B, 2, 0, 64] ++ zeros 43 ++ [byte p1] ++ zeros 16
def imgS : List (Nat × Word) := [(A.CTX_LINE 1 1 0, 1 + 2 ^ 14 + 3 * 2 ^ 16), (A.CTX_LINE 1 1 16, 1)]
def sPas (p1 : Nat) : State := wSl { announces := [(2, annP p1)] } [] (mastW ++ [(A.CTX_LINE 1 0 18, 0x8016)] ++ imgS)
def v36_10 := sPas 0
def v36_11 := sPas 255
def wStr (x : Strm) (l : List (Fld × Nat)) : State := warmAt 900000 ([(F.STR_CFG_LINK 2, 6), (F.STR_CFG_CONTEXT 2, 1), (F.STR_CFG_UNICAST 2, 1)] ++ l) fun d => { d with streams := [{}, {}, x, {}, {}, {}, {}, {}] }
def syncP : List Byte := [0, 2, 0, 44] ++ zeros 30 ++ [0, 0, 0, 0, 0, 0, 0, 0, 0, 0]
def xIn (p : List Byte) : Strm := { inbox := [(800000 * 65536, p), (5, [])], exch := some (700000 * 65536, 560000 * 65536 + 3, 0), ds := [7] }
def v36_12 := wStr (xIn (zeros 44)) []
def v36_13 := wStr (xIn syncP) []
def xAn : Strm := { xIn (annP 128) with gm := some [1] }
def v36_14 := wStr xAn [(F.STR_STATUS_VALID 2, 1)]
def v36_15 := wStr {} []


def pcieOn : Dev → Dev := fun d => { (d.set F.PCIE_STATUS_MSIX_EN 1) with pcie.busMaster := true, pcie.linkUp := true, pcie.perstN := true }
def rRing (st head tail : Nat) (l : List (Fld × Nat)) : State := warmAt 900000 ([(ringState (A.RXR_BASE 1 3), st), (ringLog2 (A.RXR_BASE 1 3), 6), (F.RXR_CFG_BUF 1 3, 4), (ringHead (A.RXR_BASE 1 3), head), (ringTail (A.RXR_BASE 1 3), tail)] ++ l) pcieOn
def v40_30 := limd ⟨A.RXR_BASE 1 3 + 0x14, 0, 16, 60, 63⟩ (rRing 0 60 62 [])
def v40_1 := rRing 3 0 0 [(ringLatched (A.RXR_BASE 1 3), 1)]
def v40_2 := rRing 3 0 0 [(F.RXR_CFG_BUF 1 3, 0)]
def v40_3 := rRing 1 7 9 [(ringLatched (A.RXR_BASE 1 3), 1)]
def msixE : MsixEntry := { addr := 0x5000, data := 77, masked := false }
def wMsix (e : MsixEntry) (l : List (Fld × Nat)) : State := warmAt 900000 l fun d => { pcieOn d with pcie := { (pcieOn d).pcie with msix := setAt (List.replicate 64 {}) 9 e } }
def sHold : State := { wMsix msixE [(⟨A.RXR_BASE 1 3 + 0x18, 5, 0⟩, 9), (⟨A.RXR_BASE 1 3 + 0x18, 7, 7⟩, 1), (⟨A.RXR_BASE 1 3 + 0x18, 31, 16⟩, 2), (ringLog2 (A.RXR_BASE 1 3), 6)] with dev.pcie.rings := [(A.RXR_BASE 1 3, { unrep := 3, oldest := some 800000 })] }
def v40_4 := warmAt 9 [(F.EV_ROUTE_LOCKED 33, 1), (evStatus 34, 1), (F.EV_ROUTE_KIND 34, 1), (F.EV_ROUTE_VECTOR 34, 3)] pcieOn
def v40_31 := limd ⟨A.EV_ENABLE 1, 0, 8, 0, 3⟩ v40_4
def v40_32 := limd ⟨A.EV_STATUS 1, 0, 8, 9, 10⟩ v40_4
def v40_33 := limd ⟨A.EV_ROUTE 5, 8, 6, 0, 3⟩ v40_4
def v40_5 := warmAt 9 [(F.EV_ROUTE_LOCKED 33, 1), (evStatus 34, 1)] pcieOn
def v40_6 := warmAt 9 [(evStatus 34, 1), (evStatus 33, 1), (evStatus 32, 1)] pcieOn
def v40_7 := warmAt 9 [(evStatus 34, 1), (evStatus 9, 1), (F.OSC_STATUS_AON_RC, 1)] (fun d => { d with temps := [0, 841, 0, 0, 0, 0, 0] })
def v40_8 := warmAt 9 []
def v40_9 := warmAt 9 [(F.EV_ROUTE_LOCKED 33, 1)]
def v40_10 := wMsix { msixE with pending := true, masked := true } []
def v40_11 := { msixE with pending := true, masked := true }
def v40_12 := wMsix { msixE with pending := true } []
def v40_13 := rRing 0 60 62 [(F.PCIE_STATUS_D3, 1)]
def wBar (target : Nat) : State := { warmAt 9 [(F.BAR2_CTRL_TARGET, target)] (fun d => d.words [(A.BULK_BASE 0 0, 0x1000), (A.BULK_SIZE 0 0, 16), (A.LOG_BASE 0 0, 0x20000), (A.LOG_SIZE 0 0, 1)]) with ledger := Mem.write [] 0x10FF0 [1, 2, 3, 4] }
def v40_14 := wBar 0
def v40_15 := wBar 1
def cmdC (op : Nat) (input : List Byte) (outMax : Nat) (r : Nat := 900000) : CmdRun := { desc := 0x1000, opcode := op, tag := 7, input := input, outAddr := 0x8000, outMax := outMax, since := r }
def cmdHost (op : Nat) (input : List Byte) (outMax : Nat) : Mem := ((Mem.write [] 0x1000 (leBytes 2 op ++ leBytes 2 7 ++ leBytes 4 input.length ++ leBytes 8 0x4000 ++ leBytes 8 0x8000 ++ leBytes 4 outMax)).write 0x4000 input)
def cmdL : List (Fld × Nat) := [(ringState A.CMDR_BASE, 0), (ringLog2 A.CMDR_BASE, 6), (ringTail A.CMDR_BASE, 5), (⟨A.CMDR_BASE, 31, 0⟩, 0x1000)]
def wCmd (op : Nat) (input : List Byte) (outMax : Nat) (l : List (Fld × Nat)) (f : Dev → Dev := id) : State := { warmAt 900000 (cmdL ++ l) (fun d => f (pcieOn d)) with host := cmdHost op input outMax }
def v40_16 := wCmd 0 [] 0 []
def v40_17 := wCmd 0 [1] 0 []
def htIn : List Byte := leBytes 8 800000 ++ leBytes 2 5 ++ zeros 6 ++ leBytes 6 3 ++ leBytes 4 999999999 ++ leBytes 2 9 ++ leBytes 4 1 ++ leBytes 8 40
def v40_18 := wCmd 1 htIn 0 []
def v40_19 := wCmd 1 htIn 0 [(F.SLOT_CFG_TYPE 4, 8)]
def lcIn (t dir : Nat) (len ofs : Nat) : List Byte := [byte t, 0, byte dir, 0] ++ leBytes 4 len ++ leBytes 8 ofs ++ leBytes 8 0x1000
def wLc (t dir len ofs outMax : Nat) : State := { wCmd 2 (lcIn t dir len ofs) outMax [] (fun d => d.words [(A.BULK_BASE 0 0, 0x1000), (A.BULK_SIZE 0 0, 16), (A.LOG_BASE 0 0, 0x20000), (A.LOG_SIZE 0 0, 1)]) with ledger := Mem.write [] 0x1020 [1, 2, 3, 4] }
def v40_20 := wLc 0 0 8 0x20 8
def v40_21 := wLc 0 1 8 0x20 8
def v40_22 := wLc 0 1 0 0x20 8
def v40_23 := wLc 1 1 8 0x20 8
def cDone (code : Nat) : CmdRun := { cmdC 2 [] 8 with result := some (code, [1, 2, 3]) }
def v40_24 := wCmd 0 [] 0 [(ringTail A.CMDR_BASE, 0), (ringHead A.CMDR_BASE, 63)] (fun d => { d with pcie.cmds := [cDone 0], pcie.rings := [(A.CMDR_BASE, { fetched := 1 })] })
def cDone2 : CmdRun := { cDone 2 with desc := 0x1020 }
def v40_25 := wCmd 0 [] 0 [(ringTail A.CMDR_BASE, 63), (ringHead A.CMDR_BASE, 63)] (fun d => { d with pcie.cmds := [cDone 3, cDone2] })


def sNts (l : List (Fld × Nat)) (w : List (Nat × Word)) (f : Dev → Dev := id) : State := warmAt 900000 l fun d => f (d.words ([(A.NTS_ROLES, 0xE4)] ++ w))
def v50_1 := sNts [] [(A.NTS_ROT_EPOCH, 916384)]
def v50_2 := sNts [] [(A.NTS_ROT_EPOCH, 916383)]
def v50_3 := sNts [(F.NTS_STATUS_ROT_PENDING, 1)] [(A.NTS_ROT_EPOCH, 916384)]
def v50_4 := sNts [(F.NTS_STATUS_ROT_PENDING, 1)] [(A.NTS_ROT_EPOCH, 916383)]
def v50_5 := sNts [] []
def rotL : List (Fld × Nat) := [(F.NTS_STATUS_ROT_PENDING, 1), (F.NTS_KEY_1_VALID 0, 1), (F.NTS_KEY_1_VALID 1, 1), (F.NTS_ROT_PERIOD_S, 3), (F.NTS_OVERLAP_S, 2)]
def v50_6 := sNts ((F.NTS_KEY_1_VALID 2, 1) :: rotL) [(A.NTS_ROT_EPOCH, 900000)]
def v50_7 := sNts rotL [(A.NTS_ROT_EPOCH, 900000)]
def v50_8 := sNts rotL [(A.NTS_ROT_EPOCH, 900001)]
def ksOf (l : List (Nat × KeySlot)) : Dev → Dev := fun d => { d with keys.slots := l.foldl (fun a p => setAt a p.1 (some p.2)) (List.replicate 16 none) }
def mintKey : KeySlot := { ty := 1, policy := 8, material := zeros 32 }
def sWr : State := sNts rotL [(A.NTS_ROT_EPOCH, 900001), (A.NTS_KEY 0, 77)] fun d => ksOf [(5, mintKey)] { d with pcie.linkUp := true, bus.staged := [((.host, A.NTS_KEY 3), 99)] }
def v50_9 := { sWr with dev.bus.staged := [((.host, A.NTS_KEY 3), 77)] }
def v50_10 := { sWr with dev.bus.staged := [((.host, A.NTS_KEY 1), 99)] }
def mintIn : List Byte := [0, 15, 2, 0] ++ zeros 32 ++ (List.replicate 32 9)
def sMint : State := wCmd 0x40 mintIn 300 (rotL ++ [(F.BN_CTRL_STATE, 0), (F.NTS_KEY_1_SLOT 1, 5)]) fun d => ksOf [(5, mintKey)] (d.words [(A.NTS_ROT_EPOCH, 900001), (A.NTS_KEY 1, 88), (A.NTS_ROLES, 0xE4)])
def bnIn (len fl ks sa sb sc sm sr : Nat) : List Byte := leBytes 2 len ++ [byte fl, byte ks] ++ leBytes 2 sa ++ leBytes 2 sb ++ leBytes 2 sc ++ leBytes 2 sm ++ leBytes 2 sr ++ zeros 2
def wBn (op : Nat) (inp : List Byte) (outMax : Nat) (ops : List (Nat × Nat)) (l : List (Fld × Nat) := []) (f : Dev → Dev := id) : State :=
  wCmd op inp outMax ((F.BN_CTRL_STATE, 0) :: l) fun d => f (d.words (ops.flatMap fun p => (List.range 12).filterMap fun i =>
    if p.2 >>> (32 * i) % 2 ^ 32 = 0 then none else some (A.BN_WINDOW 0 + p.1 * (d.slotLen / 8) + 4 * i, BitVec.ofNat 32 (p.2 >>> (32 * i)))))
def addIn : List Byte := bnIn 256 0 0 1 2 0 3 4
def v50_11 := wBn 0x20 addIn 0 [(1, 5), (2, 2 ^ 200), (3, 2 ^ 200 + 1)]
def v50_12 := wBn 0x21 addIn 0 [(1, 5), (2, 2 ^ 200), (3, 2 ^ 200 + 1)]
def v50_13 := wBn 0x22 addIn 0 [(1, 5), (2, 2 ^ 200), (3, 2 ^ 200 + 1)]
def v50_14 := wBn 0x20 addIn 0 [(1, 5), (3, 1)]
def v50_15 := wBn 0x20 addIn 0 [(1, 5), (2, 2), (3, 1)]
def v50_16 := wBn 0x20 addIn 0 [(1, 5), (2, 2), (3, 5)]
def v50_17 := wBn 0x23 addIn 0 [(1, 5), (2, 20), (3, 2 ^ 200 + 1)]
def v50_18 := wBn 0x25 addIn 0 [(1, 5), (3, 27)]
def v50_19 := wBn 0x25 addIn 0 [(1, 5), (3, 25)]
def crtIn : List Byte := bnIn 256 0 0 1 3 4 5 7
def v50_20 := wBn 0x24 crtIn 0 [(1, 3), (2, 5), (3, 4), (4, 60), (5, 11), (6, 13)]
def ecIn : List Byte := bnIn 256 0 0 1 3 5 0 7
def v50_21 := wBn 0x26 ecIn 0 [(1, 3), (3, 5)]

def v50_22 := wBn 0x27 ecIn 0 [(1, p256.gx), (2, p256.gy), (3, 5), (5, 3), (6, 4)]
def v50_23 := wBn 0x2B ecIn 0 [(1, 9), (3, p256.gx), (4, p256.gy)]
def edIn : List Byte := bnIn 256 0 0 1 0 3 0 5 ++ [1, 2, 3]
def v50_24 := wBn 0x28 edIn 0 [(1, 77)]
def edB : Nat := 0x6666666666666666666666666666666666666666666666666666666666666658
def v50_25 := wBn 0x29 edIn 0 [(1, edB), (3, edB), (4, 9)]
def v50_26 := wBn 0x2C edIn 32 []
def v50_27 := wBn 0x2A ecIn 0 [(1, 77), (3, 9)]


def wJob (j : BnJob) (l : List (Fld × Nat)) (f : Dev → Dev := id) : State := wBn 0 [] 0 [(3, 55), (4, 66)] l fun d => f { d with bn := some j, pcie.cmds := [{ cmdC 0x20 [] 8 with desc := 0x1000 }] }
def jb (fx : KeyFx) (w : List (Nat × Nat)) : BnJob := { desc := 0x1000, opcode := 0x20, start := 800000, due := 900000, code := 3, out := [1, 2], writes := w, fx := fx }
def v51_1 := wJob (jb .none [(4, 2 ^ 300 + 7)]) []
def v51_2 := jb .none [(4, 2 ^ 300 + 7)]
def v51_3 := wJob (jb (.put 3 mintKey) []) []
def v51_4 := wJob (jb (.erase 5) []) [] (ksOf [(5, mintKey), (6, mintKey)])
def v51_5 := wJob (jb (.session [1] [2]) []) []
def v51_6 := wJob (jb (.challenge [1]) []) []
def v51_7 := wJob (jb .lock []) []
def v51_8 := wJob (jb .none []) []
def v51_9 := wJob { jb .none [] with due := 900001 } []
def v51_10 := { jb .none [] with due := 900001 }
def v51_11 := warmAt 9 [(F.BN_CTRL_STATE, 1)]
def v51_12 := warmAt 9 [(F.BN_CTRL_STATE, 1), (F.BN_CTRL_LATCHED, 1), (F.BN_OP_WIPING, 1)]
def v51_13 := warmAt 9 [(F.BN_CTRL_STATE, 3)]
def v51_14 := warmAt 9 [(F.BN_CTRL_STATE, 3), (F.BN_CTRL_LATCHED, 1)]
def wKs (r : Nat) (k : Keys → Keys) : State := { (warmAt r []) with dev.keys := k (warmAt r []).dev.keys }
def v51_15 := wKs (60 * 800000000 + 5) (fun k => { k with session := some ([1], [2], 5) })
def v51_16 := wKs (60 * 800000000 + 5) (fun k => { k with challenge := some ([1], 5) })
def v51_17 := wKs (60 * 800000000 + 4) (fun k => { k with challenge := some ([1], 5) })
def wKey (op : Nat) (inp : List Byte) (k : List (Nat × KeySlot)) (l : List (Fld × Nat) := []) (f : Dev → Dev := id) : State := wBn op inp 256 [] l fun d => f (ksOf k d)
def kgIn : List Byte := [3, 1, 8, 0]
def v51_18 := wKey 0x30 kgIn []
def v51_19 := wKey 0x30 kgIn [(3, mintKey)]
def v51_20 := wKey 0x30 [15, 4, 2, 0] []
def v51_21 := wKey 0x31 [] []
def impIn : List Byte := List.replicate 8 1 ++ [4, 1, 8, 0] ++ leBytes 32 9 ++ zeros 16 ++ zeros 32
def v51_22 := wKey 0x32 impIn []
def sImp (i : List Byte) : State := wKey 0x32 i [] [] fun d => { d with keys.session := some (List.replicate 8 1, leBytes 32 77, 3) }
def kekW : List Byte := importKek (List.replicate 8 1) (xPub (leBytes 32 77)) (leBytes 32 9) (leBytes 32 (Sys2Proof.Machine.x25519 (leBytes 32 77) 9))
def v51_23 := sImp impIn
def impOk : List Byte := List.replicate 8 1 ++ [4, 1, 8, 0] ++ leBytes 32 9 ++ (sivSeal kekW [[4, 1, 8]] (zeros 32)).1 ++ (sivSeal kekW [[4, 1, 8]] (zeros 32)).2
def v51_24 := sImp impOk
def expKey : KeySlot := { mintKey with policy := 24 }
def expIn : List Byte := [5, 0, 0, 0] ++ List.replicate 8 1 ++ leBytes 32 9
def v51_25 := wKey 0x33 expIn [(5, mintKey)]
def v51_26 := wKey 0x33 expIn [(6, mintKey)]
def v51_27 := wKey 0x34 [5, 0, 0, 0] [(5, mintKey)]
def v51_28 := wKey 0x34 [5, 0, 0, 0] [(5, mintKey)] [(F.NTS_KEY_1_SLOT 1, 5), (F.NTS_KEY_1_VALID 1, 1)]
def v51_29 := wKey 0x35 [5, 0, 0, 0] [(5, { mintKey with pub := [1] })]
def v51_30 := { mintKey with pub := [1] }
def v51_31 := wKey 0x35 [5, 0, 0, 0] []
def v51_32 := wKey 0x36 (zeros 48) [] [(F.FUSE_STATE_DEBUG_OPEN, 1)]
def v51_33 := wKey 0x38 [] []
def v51_34 := wKey 0x39 (zeros 280) []
def fuIn (t g : Nat) (n : Nat) : List Byte := [byte t, 0, 0, 0, 0x45, 0x53, 0x55, 0x46] ++ leBytes n g
def v51_35 := wKey 0x3A (zeros 8) []
def v51_36 := wKey 0x3A (fuIn 1 0 0) []
def v51_37 := wKey 0x3A (fuIn 2 3 4) [] [(⟨A.IMAGE_GEN, 31, 0⟩, 3)]
def v51_38 := wKey 0x3A (fuIn 2 3 4) [] [(F.MODE_STATUS_MODE, 5)]
def tlsIn (k t : Nat) : List Byte := [byte k, byte t, 3, 0, 7, 8, 9]
def edKey : KeySlot := { ty := 4, policy := 2, material := leBytes 32 77 }
def v51_39 := wKey 0x41 (tlsIn 5 2) []
def v51_40 := wKey 0x41 (tlsIn 5 2) [(5, mintKey)]
def v51_41 := wKey 0x41 (tlsIn 5 2) [(5, { edKey with policy := 1 })]
def v51_42 := { edKey with policy := 1 }
def v51_43 := wKey 0x41 (tlsIn 5 2) [(5, edKey)]
def v51_44 := wKey 0x33 expIn [(5, expKey)]


def hdrW : BootHdr := { seq := 3, banks := [{ state := 4, gen := 5, id := 9, size := 100, digest := List.replicate 48 1 }, {}], slots := [{ state := 4, gen := 5 }, {}] }
def wUpd (op : Nat) (inp : List Byte) (l : List (Fld × Nat)) (f : Dev → Dev := id) : State := wCmd op inp 64 l fun d => f { d with nv.hdrs := [some hdrW, none] }
def openIn (kind fwd gen size : Nat) (dig : List Byte) : List Byte := [byte kind, byte fwd, 0, 0] ++ leBytes 4 77 ++ leBytes 4 gen ++ leBytes 4 size ++ dig
def dig2 : List Byte := List.replicate 48 2
def dig1 : List Byte := List.replicate 48 1
def v53_1 := wUpd 0x50 (openIn 0 0 5 0 dig2) []
def v53_2 := wUpd 0x50 (openIn 0 0 5 200000 dig2) []
def v53_3 := wUpd 0x50 (openIn 0 0 4 200000 dig2) []
def v53_4 := wUpd 0x50 (openIn 0 0 5 200000 dig1) []
def v53_5 := wUpd 0x50 (openIn 0 1 5 200000 dig2) [(F.GR_PSTATUS_LINK_UP 1, 1)]
def v53_6 := wUpd 0x50 (openIn 0 2 5 200000 dig2) [(F.GR_PSTATUS_LINK_UP 0, 1)]
def uOpen (size : Nat) : Upd := { source := 0, kind := 0, id := 77, gen := 5, size := size, digest := dig2, origin := zeros 8, seq := 4, target := 1, last := 5 }
def blk : List Byte := [1, 2, 3, 4, 5]
def blkIn (i crc : Nat) : List Byte := leBytes 4 i ++ leBytes 4 crc ++ blk
def wBlk (u : Upd) (i crc : Nat) : State := wUpd 0x51 (blkIn i crc) [] fun d => { d with upd := some u }
def v53_7 := wBlk (uOpen 5) 0 (crc32c blk)
def v53_8 := wBlk (uOpen 65541) 1 (crc32c blk)
def v53_9 := wBlk (uOpen 5) 0 7
def v53_10 := wBlk (uOpen 5) 1 (crc32c blk)
def v53_11 := wBlk { uOpen 5 with stored := [0] } 0 (crc32c blk)
def v53_12 := { uOpen 5 with stored := [0] }
def v53_13 := wUpd 0x51 (blkIn 0 7) []
def wCl (op : Nat) (u : Upd) : State := { wUpd op [] [] (fun d => { d with upd := some u }) with flash := Mem.write [] (0x1000000 + 0x1800000) blk }
def v53_14 := wCl 0x52 (uOpen 5)
def uFull : Upd := { uOpen 5 with stored := [0] }
def uGood : Upd := { uOpen 5 with stored := [0], digest := sha384 blk }
def v53_15 := wCl 0x52 uFull
def v53_16 := wCl 0x52 uGood
def v53_17 := wCl 0x53 (uOpen 5)
def v53_18 := wUpd 0x58 [1, 0, 0, 0] []
def setW : Dev → Dev := fun d => { d with nv.sets := [[some { format := 1, seq := 3, recs := [((0x20, 0), [7])] }, none], [none, none]] }
def v53_19 := wUpd 0x58 [0x20, 0, 0, 0] [] setW
def v53_20 := wUpd 0x58 [3, 0, 0, 0] []
def v53_21 := wUpd 0x59 [2, 0, 1, 0, 9] [] setW
def v53_22 := wUpd 0x59 [3, 0, 1, 0, 9] [] setW
def orgA : List Byte := [1, 1, 1, 1, 1, 1, 1, 1]
def mOf (ty hops : Nat) (pay : List Byte) : Msg := { ty := ty, hops := hops, reply := false, origin := orgA, seq := 5, payload := pay }
def wRing (p : Nat) (l : List (Fld × Nat)) (f : Dev → Dev := id) : State := warmAt 900000 ((F.GR_PSTATUS_LINK_UP p, 1) :: l) fun d => f (pcieOn { d with nv.hdrs := [some hdrW, none] })
def opP (size : Nat) : List Byte := [0, 0, 0, 0] ++ beBytes 4 77 ++ beBytes 4 5 ++ beBytes 4 size ++ dig2
def mOwn : Msg := { mOf 0x10 3 (opP 200000) with origin := selfId }
def v53_23 := wRing 1 []
def mOp : Msg := { mOf 0x10 15 (opP 200000) with origin := otherId }
def v53_24 := wRing 1 [] fun d => { d with upd := some (uOpen 5) }
def uRing : Upd := { uOpen 5 with source := 2, origin := orgA, seq := 5, last := 800000 }
def wUr (u : Upd) : State := { wRing 1 [] (fun d => { d with upd := some u }) with flash := Mem.write [] (0x1000000 + 0x1800000) blk }
def mBlk : Msg := mOf 0x11 2 (beBytes 4 0 ++ beBytes 4 (crc32c blk) ++ beBytes 2 1 ++ zeros 2 ++ blk)
def v53_25 := wUr uRing
def mCl : Msg := mOf 0x12 2 []
def uRf : Upd := { uRing with stored := [0], digest := sha384 blk }
def v53_26 := wUr uRf
def mAb : Msg := mOf 0x13 2 []
def v53_27 := { wUr uRing with dev.clk.raw := 8000800000 }
def v53_28 := { wUr uRing with dev.clk.raw := 8000799999 }
def fwW : Fwd := { port := 1, hops := 0, sent := [{ index := 0, at' := 5, tries := 3 }] }
def uFw : Upd := { uRing with fwd := some fwW, keep := [(0, blk)] }
def mRep (ty code i : Nat) : Msg := replyMsg orgA 5 ty code i
def v53_29 := wUr uFw
def v53_30 := { wUr uFw with dev.clk.raw := 1600000005 }
def hdrT : BootHdr := { hdrW with banks := [{ state := 4 }, { state := 3, gen := 6 }], active := 1 }
def wTrial (op : Nat) (mode remain : Nat) : State := wUpd op [] [(F.MODE_STATUS_ON_TRIAL, 1), (F.MODE_STATUS_MODE, mode), (F.TRIAL_HOLD_S, 9), (F.TRIAL_REMAIN_S, remain)] fun d => { d with nv.hdrs := [some hdrT, none] }
def v53_31 := wTrial 0x54 5 3
def v53_32 := wTrial 0 5 0
def v53_33 := wTrial 0x55 5 3
def v53_34 := wUpd 0x55 [] []
def v53_35 := wUpd 0x54 [] []


def v54_1 := warmAt 900000 [(F.GR_PCFG_ENABLE 1, 1)]
def xRp : RPort := { sent := [(5, 800000 * 65536)], thA := [100], thB := [4], pairs := 3, lastPair := some 4, rx := some (4, 700000 * 65536), origin := some orgA }
def wRp (r : Nat) (x : RPort) (l : List (Fld × Nat)) (f : Dev → Dev := id) : State := warmAt r ((F.GR_PSTATUS_LINK_UP 1, 1) :: (F.GR_PCFG_CMP_EN 1, 1) :: l) fun d => f { d with ring.ports := [{}, x] }
def v54_2 := wRp 900000 xRp [(F.SLOT_CFG_TYPE 3, 7), (F.SLOT_CFG_BIND 3, 1), (F.SLOT_CFG_TYPE 4, 7), (F.SLOT_STATE_SIG_VALID 3, 1)] (fun d => { d with refs.srcs := (List.range 12).map fun i => { has := true, hist := [(i, 5)] } })
def v54_3 := wRp 1200000 xRp []
def v54_4 := wRp 1200001 xRp []
def mCmp : Msg := mOf 1 0 (leBytes 6 0 ++ leBytes 4 1000100 ++ leBytes 2 3 ++ zeros 4 ++ leBytes 6 0 ++ leBytes 4 1000700 ++ leBytes 2 9 ++ zeros 4 ++ beBytes 4 5 ++ zeros 4 ++ [2] ++ zeros 23)
def cmpB2 : Nat := ((5 * ((900100 * 65536 : Nat) : Int) - 4 * (40 * 65536 + toSigned 32 ((wRp 900000 xRp []).dev.get (F.GR_RX_ASYM_ASYM 1)))) / 5).toNat
def v54_5 := wRp 900000 xRp []
def evIn : List Byte := [1, 0, 0, 0] ++ List.replicate 16 8
def wEvq (op : Nat) (inp : List Byte) (l : List (Fld × Nat)) : State := wCmd op inp 4096 l
def v54_6 := wEvq 0x57 evIn [(F.GR_PSTATUS_LINK_UP 1, 1)]
def v54_7 := wEvq 0x57 evIn []
def mEv (hops : Nat) : Msg := { mOf 2 hops (List.replicate 16 7) with origin := otherId }
def mEvOwn : Msg := { mEv 3 with origin := selfId }
def v54_8 := wRp 900000 xRp [(F.GR_PSTATUS_LINK_UP 0, 1)] (fun d => { d with ring.evq := List.replicate 32 [] })
def v54_9 := wEvq 0x56 [2, 0, 0, 0] []
def v54_10 := wEvq 0x56 [1, 0, 16, 0] []
def v54_11 := wEvq 0x56 [1, 1, 15, 0] []
def v54_12 := wEvq 0x56 [1, 1, 15, 0] [(F.GR_PSTATUS_LINK_UP 1, 1)]
def mQ (kind tgt hops : Nat) : Msg := { mOf 4 hops [byte kind, byte tgt, 0, 0] with origin := otherId }
def hdrS : BootHdr := { hdrW with banks := [{ state := 4, gen := 5, digest := dig1 }, { state := 2, digest := dig2 }] }
def wQy : State := wRp 900000 xRp [(F.GR_PSTATUS_LINK_UP 0, 1)] fun d => { d with nv.hdrs := [some hdrS, none] }
def qyRec : List Byte := selfId ++ [byte (wQy.dev.get F.MODE_STATUS_MODE), byte (wQy.dev.get F.MODE_STATUS_ON_TRIAL + 0 + 4 * wQy.dev.get F.BOOT_STATUS_IMAGE_BANK), byte ((wQy.dev.reg A.UPD_SESSION).toNat % 16), byte (wQy.dev.get F.UPD_SESSION_LAST_CODE)] ++ beBytes 4 5 ++ slice dig1 0 8 ++ slice dig2 0 8
def qOut (kind : Nat) (recs : List (List Byte)) : RingQ := { desc := 0x1000, kind := kind, seq := 5, since := 5, recs := recs }
def wQo (q : RingQ) (r : Nat := 900000) : State := wRp r xRp [] fun d => { d with ring.query := some q, pcie.cmds := [cmdC 0x56 [] 4096] }
def mQOwn : Msg := { mQ 0 0 3 with origin := selfId, payload := [0, 0, 0, 0, 1, 2, 3] }
def v54_13 := wQo (qOut 0 [])
def mQr : Msg := { mQOwn with ty := 5, payload := [1, 4, 0, 0, 7, 7] }
def v54_14 := wQo (qOut 1 [[1], [2], [3]])
def v54_15 := wQo (qOut 1 [[1]]) 40000005
def v54_16 := wQo (qOut 1 [[1], [2]])
def mQo : Msg := { mOf 5 3 [1, 4, 0, 0, 7, 7] with origin := otherId }


def wSum (l : List (Fld × Nat)) (x : Sums) (f : Dev → Dev := id) : State := warmAt 900000 l fun d => f { pcieOn d with sums := x }
def v55_1 := wSum [(⟨A.SUMMARY_ADDR, 31, 0⟩, 0x7FF)] {}
def v55_2 := wSum [] { host := some { s := 5 } }
def v55_3 := wSum [(F.PCIE_STATUS_D3, 1)] {}
def v55_4 := wSum [(F.MODE_STATUS_MODE, 1)] {}
def v55_5 := wSum [] { host := some { s := 900000 } }
def v55_6 := wSum [] { smb := some { s := 900000 } }
def rsW : RingSum := { port := 1, origin := orgA, seq := 7, hops := 3, s := 900000 }
def v55_7 := wSum [(F.GR_PSTATUS_LINK_UP 1, 1)] {} fun d => { d with ring.sums := [rsW, rsW] }
def v55_8 := wSum [] { host := some { s := 900001 } }
def v55_9 := wSum [] { smb := some { s := 900001 } }
def v55_10 := wSum [] {} fun d => { d with ring.sums := [{ rsW with s := 900001 }] }
def srW : SumRun := { s := 5, addr := 0x2000, data := some [1, 2, 3] }
def v55_11 := wSum [] { host := some srW }
def wSmb : State := wSum [] { smbBuf := some (List.replicate 4064 1 ++ List.replicate 32 2), smbPtr := 4064 }
def v55_12 := st0 2 []


def wSn (l : List (Fld × Nat)) (w : List (Nat × Word)) (f : Dev → Dev := id) : State := warmAt 900000 l fun d => f ((pcieOn d).words w)
def v56_1 := wSn [] []
def snL : List (Fld × Nat) := [(F.STAT_SNAP_CTRL_AT_TIME, 1), (F.STAT_SNAP_CTRL_SCALE, 3)]
def v56_2 := wSn snL [(A.STAT_SNAP_RAW, 916383)]
def v56_3 := wSn ((F.STAT_SNAP_CTRL_RING, 1) :: snL) [(A.STAT_SNAP_RAW, 916384)]
def snT : Int := 2000000 * 65536
def snR : List (Fld × Nat) := [(F.STAT_SNAP_CTRL_AT_TIME, 1), (F.STAT_SNAP_CTRL_SCALE, 0), (F.STAT_SNAP_CTRL_RING, 1), (F.GR_PSTATUS_LINK_UP 1, 1), (F.SC_STATUS_INIT 0, 1)]
def wSnT : State := { wSn snR [] with dev := (wSn snR []).dev.setTime A.STAT_SNAP_TIME snT }
def runR (v : Nat) : StatRun := { value := v, seq := 4 }
def wRun (r : StatRun) (l : List (Fld × Nat) := []) (w : List (Nat × Word) := []) : State := wSn l w fun d => { d with statRun := some r }
def v56_4 := wRun (runR 916383)
def v56_5 := wRun (runR 916384)
def v56_6 := wRun (runR 900000) [(F.STAT_SNAP_STATUS_PENDING, 1)] [(A.STAT_LIVE 1 2 0 + 8, 7), (A.CTX_CNT 1 3 0, 9), (A.D_CNT 2 3, 11), (A.K_CNT 1, 12), (A.K_CYCLE, 13), (A.D_CYCLE 3, 14), (A.STAT_LIVE 1 2 0 + 0x210, 99)]
def runL : StatRun := { runR 5 with latched := some 5 }
def v56_30 := wRun { runR 5 with latched := some 5 } [(F.STAT_SNAP_STATUS_PENDING, 1)]
def v56_7 := wRun (runR 900001)
def v56_8 := wRun { runR 5 with latched := some 5 } [(F.STAT_SNAP_STATUS_LATCHING, 1)]
def v56_9 := { runR 5 with latched := some 5 }
def mSnap (hops : Nat) (t : Int) : Msg := { mOf 3 hops (beBytes 4 9 ++ [0, 0, 0, 0] ++ timeRecord t 0 0) with origin := otherId }
def wSnR : State := wSn [(F.SC_STATUS_INIT 0, 1), (F.GR_PSTATUS_LINK_UP 0, 1), (F.GR_PSTATUS_LINK_UP 1, 1)] []
def v56_10 := { wSnR with dev.statRun := some (runR 5) }
def v56_11 := wSn [(F.EU_CTRL_KIND, 1)] [(A.EU_EPOCH, 916383)]
def v56_12 := wSn [(F.EU_CTRL_KIND, 1), (F.EU_LEN_LEN, 16)] [(A.EU_EPOCH, 916384), (A.EU_ADDR, 0x2047)]
def wBat (e : Nat) (es : List (Nat × Word)) (l : List (Fld × Nat) := []) : State := wSn l [] fun d => { d with eu.batch := some (e, es) }
def v56_13 := wBat 916383 [] [(F.EU_CTRL_KIND, 1)]
def v56_14 := wBat 916384 [] [(F.EU_CTRL_KIND, 1)]
def v56_15 := wBat 916384 []
def reqW (len : Nat) : EuReq := { addr := 0x2000, len := len, epoch := 916384 }
def wChk (k : Fin 2) (len : Nat) (b : List Byte) : State := { wSn [] [] (fun d => { d with eu := d.eu.setReq k (some (reqW len)) }) with host := Mem.write [] 0x2000 b }
def entB (a v : Nat) : List Byte := leBytes 4 a ++ leBytes 4 v
def v56_16 := wChk 1 12 (entB (A.SLOT_WTR 3) 60)
def v56_17 := wChk 0 400 []
def v56_18 := wChk 1 16 (entB (A.SLOT_WTR 3) 60 ++ entB (A.SLOT_WTR 4) 61)
def v56_19 := wChk 1 8 (entB 0x7F000 60)
def v56_20 := wBat 900000 [(A.SLOT_WTR 3, 60)]
def patW : Patch := { epoch := 900000, id := 77, regs := [(A.SLOT_WTR 3, 60)], limits := some [] }
def v56_21 := wSn [] [] fun d => { d with eu.patch := some patW }
def v56_22 := wBat 900001 [(A.SLOT_WTR 3, 60)]


def wDie (r : Nat) (x : Die) (l : List (Fld × Nat)) (f : Dev → Dev := id) : State := warmAt r ((F.PORT_MODE_PRESENT 1, 15) :: l) fun d => f (d.setDie 1 x)
def v60_1 := wDie 9000 {} []
def v60_2 := wDie 9000 { pairsLost := 2 } []
def v60_3 := wDie 16384 { fwds := [10, 15] } []
def v60_4 := wDie 16385 { fwds := [10, 15] } []
def v60_5 := wDie 16385 { fwds := [10, 15] } [(⟨A.FUSE_LINKCAL 1, 31, 0⟩, 100)]
def xSy : Die := { sync := some (16384, 100), replica := some (8297, 8192), goodSync := 2 }
def v60_6 := wDie 16400 xSy []
def v60_7 := wDie 16400 { xSy with replica := none } []
def v60_8 := wDie 16400 { xSy with replica := some (58192, 8192) } []
def v60_9 := wDie 8200 { xSy with lastSync := 8 } []
def v60_10 := wDie 8199 { xSy with lastSync := 8 } []
def v60_11 := wDie 9000 { badSync := 4, everAligned := true } [(F.REPLICA_STATUS_ALIGNED 1, 1)]
def v60_12 := wDie 9000 { goodSync := 4 } [] fun d => { d with openFaults := [{ fr := { code := 4, die := 1, index := 0 } }] }
def v60_13 := wDie 9000 {} [(⟨A.LINK_STATUS_DL 2, 1, 1⟩, 1)]
def v60_14 := wDie 9000 {} [(⟨A.LMC_LINK 3, 1, 1⟩, 1)]
def v60_15 := wDie 9000 {} [(⟨A.LINK_STATUS_DL 2, 1, 1⟩, 1)] fun d => { d with openFaults := [{ fr := { code := 2, die := 2, index := 2 } }] }
def dieL : List (Fld × Nat) := [(⟨A.LOG_WR 1 2, 31, 0⟩, 7), (⟨A.LOG_RD 1 2, 31, 0⟩, 5), (F.LINK_CTRL_ENABLE 1 2, 1), (F.LINK_CTRL_STATE 1 2, 0), (⟨A.CT_SIZE 1 2, 31, 0⟩, 1)]
def v60_16 := { wDie 9000 { resets := [5], queries := [qDone] } dieL with dev := (wDie 9000 { resets := [5], queries := [qDone] } dieL).dev.setDieSt 1 1 }
def v60_17 := { wDie 9000 { resets := [5] } ([(F.REPLICA_STATUS_ALIGNED 1, 1), (pllLocked 5, 1), (pllLocked 9, 1)] ++ dieL) with dev := (wDie 9000 { resets := [5] } ([(F.REPLICA_STATUS_ALIGNED 1, 1), (pllLocked 5, 1), (pllLocked 9, 1)] ++ dieL)).dev.setDieSt 1 3, ledger := Mem.write [] 20 [1, 2] }
def v60_18 := wDie 9000 { resets := [5, 6], queries := [qDone] } dieL
def v60_19 := wDie 9000 { resets := [], queries := [qDone] } dieL
def v60_21 := { v60_19 with dev := v60_19.dev.setDieSt 1 1 }
def v60_20 := wDie 9000 {} [(F.LMC_STATUS_TRAINED, 2)]


def wFa (fs : List OpenFault) (l : List (Fld × Nat) := []) (f : Dev → Dev := id) : State := warmAt 900000 l fun d => f { d with openFaults := fs }
def fDone : OpenFault := { fr := { code := 6, die := 1, index := 2, tick := 100 }, ended := some 900 }
def v62_1 := wFa [fDone, fOsc]
def fQuiet : OpenFault := { fr := { code := 4, die := 1, index := 0, tick := 100 } }
def v62_2 := wFa [fQuiet]
def fLate : OpenFault := { fr := { code := 0x31, die := 255, index := 0, tick := 100 }, afterLoad := true }
def v62_3 := wFa [fLate, fOsc]
def v62_4 := wFa [{ fDone with ended := none }]
def v62_5 := { fDone with ended := none }
def v62_6 := wFa [] [] fun d => { d with md.coresUp := some 5 }
def v62_7 := wFa [{ fr := { code := 13, die := 255, index := 0 } }] [] fun d => { d with md.coresDown := some 5 }
def v62_8 := wFa []
def v62_9 := wFa [] [] (ksOf [(5, mintKey), (6, { mintKey with policy := 32 })])
def cntL (b : Nat) : List (Nat × Word) := [(b, 0xFFFFFFFF), (b + 4, 0xFFFF)]
def v62_10 := wFa [] [(⟨A.D_CNT_CFG 1 3, 12, 12⟩, 1), (⟨A.D_CNT_CFG 1 3, 13, 13⟩, 1), (⟨A.D_CNT_CFG 1 3, 7, 0⟩, 0xF0)] (fun d => d.words (cntL (A.D_CNT 1 3)))
def v62_11 := wFa [] [] (fun d => d.words [(A.K_CYCLE, 0xFFFFFFFF), (A.K_CYCLE + 4, 0xFFFFFFFF)])
def v62_12 := wFa [] [(⟨A.K_CNT_CFG 3, 12, 12⟩, 1), (⟨A.K_CNT_CFG 3, 13, 13⟩, 1), (⟨A.K_CNT_CFG 3, 7, 0⟩, 5)] (fun d => d.words (cntL (A.K_CNT 3)))


def rq (m : Nat) (tb : Bool := false) (ue : Bool := false) (e : Nat := 0) : ModeReq := { mode := m, standbyTb := tb, useEpoch := ue, epoch := e }
def wMd (mode req : Nat) (l : List (Fld × Nat) := []) (f : Dev → Dev := id) : State := let s := st0 mode ((F.MODE_CTRL_REQ_MODE, req) :: (F.MODE_CTRL_STANDBY_TB, 0) :: (F.DIE_STATE_STATE, 0) :: l); { s with dev := f s.dev }
def v64_1 := wMd 3 2 [(F.MODE_CTRL_STANDBY_TB, 1)]
def v64_2 := wMd 2 3
def v64_3 := wMd 2 3 [(F.MODE_STATUS_TB_OFF, 1)]
def v64_4 := wMd 2 4
def v64_5 := wMd 2 2
def v64_6 := wMd 2 2 [(F.MODE_STATUS_TB_OFF, 1)]
def v64_7 := wMd 3 4 [(F.DIE_CTRL_ENABLE, 0)]
def v64_8 := wMd 4 3 [(F.MODE_CTRL_USE_EPOCH, 1)] (fun d => d.words [(A.MODE_EPOCH, 116383)])
def v64_9 := wMd 4 3 [(F.MODE_CTRL_USE_EPOCH, 1)] (fun d => d.words [(A.MODE_EPOCH, 116384)])
def v64_10 := wMd 6 6
def v64_11 := wMd 4 6
def runW : ModeRun := { target := 5 }
def v64_12 := wMd 3 4 [] fun d => { d with md.run := some runW }
def v64_13 := wMd 3 2 [] fun d => { d with md.run := some runW }
def runE (t : Nat) (p : Bool) : ModeRun := { target := t, epoch := some 100000, passed := p }
def v64_14 := wMd 3 2 [] fun d => { d with md.run := some (runE 4 false) }
def v64_15 := wMd 3 2 [] fun d => { d with md.run := some (runE 4 false), clk.raw := 99999 }
def v64_16 := wMd 3 2 [] fun d => { d with md.run := some (runE 3 true) }
def v64_17 := wMd 3 2 [] fun d => { d with md.run := some { target := 6 } }
def v64_18 := wMd 6 2 [(⟨A.LINK_TEST 1 2, 0, 0⟩, 1)] fun d => { d with md.run := some { target := 3 } }
def v64_19 := wMd 3 2 [(F.SLOT_CFG_TYPE 4, 5)] fun d => { d with md.run := some { target := 2 } }
def sUp : State := wMd 2 3 [(F.DIE_CTRL_ENABLE, 5), (F.DIE_STATE_STATE, 0xAA)] fun d => { d with md.run := some { target := 3 }, pos.present := 15 }
def v64_20 := wMd 2 3 [(F.MODE_STATUS_TB_OFF, 1), (pllLocked 0, 1), (F.IN_CTRL_STATE 2, 0)] fun d => { d with md.restart := some 5 }
def sDeb : State := wMd 4 0 [(F.FUSE_STATE_DEBUG_OPEN, 1), (F.FUSE_STATE_MIN_GEN, 7)] pcieOn
def v64_21 := wMd 4 0 [] fun d => { d with md.resetDue := true }
def v64_22 := wMd 4 0
def sArm (t since : Nat) : State := wMd 4 0 [] fun d => { d with bus.arms := [(A.GUARD, { req := .host, target := t, since := since })] }
def v64_23 := sArm A.RESET_CTRL 92001
def v64_24 := sArm A.RESET_CTRL 92000
def sByp (f : Md → Md) : State := wMd 0 0 [] fun d => { d with md := f d.md }
def v64_25 := sByp (fun m => { m with resetLow := true })
def v64_26 := sByp (fun m => { m with pulse := true, age := 800000 })
def sLd (f : Md → Md) : State := wMd 1 0 [] fun d => { d with md := f d.md }
def v64_27 := sLd (fun m => { m with age := 4000 })
def v64_28 := sLd (fun m => { m with age := 3999 })
def v64_29 := sLd id
def v64_30 := sLd (fun m => { m with load := 1 })
def v64_31 := sLd (fun m => { m with load := 2, safePin := some true })
def v64_32 := sLd (fun m => { m with load := 2 })
def sBt : State := wMd 1 0 [] fun d => { d with md.load := 2, nv.hdrs := [some { hdrW with slots := [{ state := 4 }, {}] }, none] }
def v64_33 := { hdrW with slots := [{ state := 4 }, {}] }



/-! ## Ill-formed commands, one for each check of WellFormed -/

theorem test_wf_write_size : Instr.wf (.registerWrite .host 0 3 0) = false := by decide
theorem test_wf_write_value : Instr.wf (.registerWrite .host 0 4 (2 ^ 32)) = false := by decide
theorem test_wf_read_size : Instr.wf (.multiwordLatchRead .host 0 3) = false := by decide
theorem test_wf_bar2 : Instr.wf (.bar2Access (2 ^ 26) (.inr 4) []) = false := by decide
theorem test_wf_dies : Instr.wf (.parameterSetPublish 16) = false := by decide
theorem test_wf_hits : Instr.wf (.calibrationComplete 0 (List.replicate 513 1)) = false := by decide +kernel
theorem test_wf_rms : Instr.wf (.agcUpdate 0 (2 ^ 16)) = false := by decide
theorem test_wf_lines : Instr.wf (.spectrum 0 [(1024, 0, 0)]) = false := by decide
theorem test_wf_satellite : Instr.wf (.acquisitionSearch false [(0, 256, 0, 0)]) = false := by decide
theorem test_wf_signal : Instr.wf (.acquisitionSearch false [(6, 0, 0, 0)]) = false := by decide
theorem test_wf_channel : Instr.wf (.measurementEpoch 0 0 0 0 [(96, 0, false, 0, 0)] none []) = false := by decide
theorem test_wf_solution : Instr.wf (.solutionPublish (some { sysTime := 0, drift := 0, sigmaPs := 0, nsat := 97 })) = false := by decide
theorem test_wf_stamps : Instr.wf (.measurementEpoch 0 0 1 0 [] none []) = false := by decide
theorem test_wf_system : Instr.wf (.measurementEpoch 0 0 0 0 [] none [(3, 0, 18, none)]) = false := by decide
theorem test_wf_clocks : Instr.wf (.selectorEvaluation [(16, 0)]) = false := by decide
theorem test_wf_pointer : Instr.wf (.sumPtr (2 ^ 16) true) = false := by decide
theorem test_wf_reset : Instr.wf (.resetReq (2 ^ 16) true) = false := by decide
theorem test_wf_sensors : Instr.wf (.thermalRecovery []) = false := by decide

/-! ## Worked examples of the manual -/

/-- The stamp record under R460 (00_scope). -/
theorem test_stamp_record : timeRecord (joinTime 1780000037 250000000 0x8000) 1 4 =
    [0x25, 0xA5, 0x18, 0x6A, 0, 0, 0x80, 0xB2, 0xE6, 0x0E, 0, 0x80, 1, 4, 0, 0] := by decide +kernel

/-- The echo to answer die 1 under R28 (01_architecture): 9,875.40 ps round trip, 2,500 ps turn, +3.10 ps asymmetry. -/
theorem test_forward_delay :
    ((((dev0 3 [(F.DIE_STATE_STATE, 0)]).words [(A.FUSE_LINKCAL 1, 131072), (A.FUSE_LINKCAL_1 1, 163)]).echo 1 517756).die 1).fwds = [193423] := by
  decide +kernel

/-- The parking of an engine under R50 (01_architecture): a park request clears the unpark latched. -/
theorem test_park_clears_latch :
    (match exec (.engCtrlEnable 0 2 false) (warm [(F.ENG_CTRL_STATE 0 2, 1), (F.ENG_CTRL_LATCHED 0 2, 1), (F.ENG_CTRL_ENABLE 0 2, 1)]) with
      | .next t => some (t.dev.get (F.ENG_CTRL_LATCHED 0 2), t.dev.get (F.ENG_CTRL_STATE 0 2))
      | _ => none) = some (0, 1) := by decide +kernel

/-- The conversion under R108 (04_time_scales). -/
theorem test_scale_time : let p : PSet := ⟨1, 1000000000, 1780000000 * sec72, nominalIncr + 225179981, 0, none, none, 0⟩
    splitTime (floor16 (p.eval (1800000000 * 65536 + 0x8000))) = (1780000001, 3, 0x1FFF) := by decide +kernel

/-- The slew under R112 (04_time_scales): 500 ns at 10,000 ppb takes 40,000,001 ticks. -/
theorem test_slew_length : (slewOf 0 nominalIncr (500 * 2 ^ 72) 10000).map (fun f => (f.endEpoch, f.delta)) = some (40000001, 900719925474) := by
  decide +kernel

/-- The holdover under R143 (05_references_and_holdover): HOLD_REMAIN is 6,517 s at entry. -/
theorem test_hold_remain : let d := State.reset.dev.fields [(F.OSC_TEMP_BAND_T_B, 100), (F.OSC_AGE_UNC_A_U, 10)]
    ({ d with refs.selA := { e0 := 20000, fPpt := 50, committed := true } } : Dev).tauLimit 0 1000000 = some 6517 := by decide +kernel

/-- The calibrated tap under R154 (06_time_interval_measurement). -/
theorem test_tap_position : tapPos (some (List.replicate 200 2045 ++ [2100])) 200 = 25628 := by decide +kernel

/-- The IRIG frame of chapter 8: the cells that carry 1. -/
theorem test_irig_cells :
    ((irigFrame true (irigCells 4 true false false false 2 0 0 1 29 7 15 64 27 54449 false false)).zipIdx.filter (·.1 = 1)).map (·.2) =
      [1, 4, 7, 10, 11, 12, 20, 22, 25, 32, 36, 37, 50, 51, 52, 56, 65, 75, 76, 80, 84, 85, 87, 91, 93, 95, 96] := by decide +kernel

/-- Back-to-back replies under R232 (09_line_ports): 14, 14, 14 and 15 granules. -/
theorem test_occupancy : [0, 2, 4, 6].map (occupancy 94) = [(14, 2), (14, 4), (14, 6), (15, 0)] := by decide

/-- The stamp under R238 (09_line_ports): D_RX is 107.76 ns. -/
theorem test_arrival_stamp : stampOf (9000000000 * 65536 + 0x4000) (104 * 65536 + 246415) = 8999999914 * 65536 + 2752 := by decide +kernel

/-- The launch under R241 (09_line_ports): the first granule 214.18 ns after the stamp. -/
theorem test_launch_granule : let gr : Grid := ⟨64, some (20, 327680), false⟩
    let x : Lnk := { gridT := 8999000000 * 65536 * 125 }
    let g := x.firstGranule gr ((8999999914 * 65536 + 2752) * 625 + 500 * 14036500)
    (g, x.granuleAt gr g) = (1953292, 9000000085 * 65536 + 33030) := by decide +kernel

/-- The rotation under R302 (11_ntp_and_nts): CURRENT, NEXT and SPARE move on, the old PREVIOUS is cleared, acceptance ends after 3,600 s. -/
theorem test_rotation : let d := (State.reset.dev.words [(A.NTS_ROLES, 0xE4), (A.NTS_OVERLAP, 3600)]).rotateRoles 1000
    (d.reg A.NTS_ROLES, d.get64 A.NTS_PREV_UNTIL) = (0x39, 1000 + 3600 * 800000000) := by decide +kernel

/-- The variance under R319 (12_ptp_service): 20 ns gives 0x49AE. -/
theorem test_variance : varianceOf (some 20) = 0x49AE := by decide +kernel

/-! ## Hypotheses of the statements are met -/

theorem witness_IdleStepIsOneTick :
    v10_1.Safe ∧ v10_1.pending = [] ∧ v10_1.dev.clk.running = true :=
  ⟨State.safe_of (by decide +kernel), by decide +kernel⟩

theorem witness_SafeKept :
    wScale.Safe :=
  State.safe_of (by decide +kernel)

theorem witness_CaptureAtOneTick :
    wScale.Safe ∧ wScale.dev.loaded = true :=
  ⟨State.safe_of (by decide +kernel), by decide +kernel⟩

theorem witness_ConvertHeldOrRefused :
    wScale.Safe ∧ wScale.dev.loaded = true :=
  ⟨State.safe_of (by decide +kernel), by decide +kernel⟩

theorem witness_ApplyFormsPendingSet :
    (wScale.Safe ∧ (∀ (st : Staged), (wScale.dev.scale 0).staged = some st → st.amount.natAbs ≤ sec16 ∧ st.amount ≠ 0 ∧ st.ppb ≤ 1000000000 ∧ wScale.dev.incr0 0 * st.ppb / 1000000000 ≠ 0) ∧ wScale.dev.loaded = true ∧ 1 ≠ 0 ∧ wScale.dev.flag (F.SC_CTRL_DISCIPLINE 0) = true ∧ (wScale.dev.scale 0).pend = none ∧ (wScale.dev.raw + 16384 ≤ if wScale.dev.flag (F.SC_CTRL_USE_EPOCH 0) = true then wScale.dev.get64 (A.APPLY_EPOCH 0) else wScale.dev.raw + 16384) ∧ ((if wScale.dev.flag (F.SC_CTRL_USE_EPOCH 0) = true then wScale.dev.get64 (A.APPLY_EPOCH 0) else wScale.dev.raw + 16384) ≤ wScale.dev.raw + 2 ^ 40) ∧ ((wScale.dev.scale 0).setAt (ticks16 (if wScale.dev.flag (F.SC_CTRL_USE_EPOCH 0) = true then wScale.dev.get64 (A.APPLY_EPOCH 0) else wScale.dev.raw + 16384)) = some (wSet)) ∧ ((wSet).epoch < if wScale.dev.flag (F.SC_CTRL_USE_EPOCH 0) = true then wScale.dev.get64 (A.APPLY_EPOCH 0) else wScale.dev.raw + 16384) ∧ (wSet).slew = none ∧ (∀ (x : PSet), x ∈ (wScale.dev.scale 0).ends → x.epoch < if wScale.dev.flag (F.SC_CTRL_USE_EPOCH 0) = true then wScale.dev.get64 (A.APPLY_EPOCH 0) else wScale.dev.raw + 16384)) ∧
    (wStaged.Safe ∧ (∀ (st : Staged), (wStaged.dev.scale 0).staged = some st → st.amount.natAbs ≤ sec16 ∧ st.amount ≠ 0 ∧ st.ppb ≤ 1000000000 ∧ wStaged.dev.incr0 0 * st.ppb / 1000000000 ≠ 0) ∧ wStaged.dev.loaded = true ∧ 1 ≠ 0 ∧ wStaged.dev.flag (F.SC_CTRL_DISCIPLINE 0) = true ∧ (wStaged.dev.scale 0).pend = none ∧ (wStaged.dev.raw + 16384 ≤ if wStaged.dev.flag (F.SC_CTRL_USE_EPOCH 0) = true then wStaged.dev.get64 (A.APPLY_EPOCH 0) else wStaged.dev.raw + 16384) ∧ ((if wStaged.dev.flag (F.SC_CTRL_USE_EPOCH 0) = true then wStaged.dev.get64 (A.APPLY_EPOCH 0) else wStaged.dev.raw + 16384) ≤ wStaged.dev.raw + 2 ^ 40) ∧ ((wStaged.dev.scale 0).setAt (ticks16 (if wStaged.dev.flag (F.SC_CTRL_USE_EPOCH 0) = true then wStaged.dev.get64 (A.APPLY_EPOCH 0) else wStaged.dev.raw + 16384)) = some (wSet)) ∧ ((wSet).epoch < if wStaged.dev.flag (F.SC_CTRL_USE_EPOCH 0) = true then wStaged.dev.get64 (A.APPLY_EPOCH 0) else wStaged.dev.raw + 16384) ∧ (wSet).slew = none ∧ (∀ (x : PSet), x ∈ (wStaged.dev.scale 0).ends → x.epoch < if wStaged.dev.flag (F.SC_CTRL_USE_EPOCH 0) = true then wStaged.dev.get64 (A.APPLY_EPOCH 0) else wStaged.dev.raw + 16384)) :=
  ⟨⟨State.safe_of (by decide +kernel), all_some (by decide +kernel), by decide +kernel⟩,
    ⟨State.safe_of (by decide +kernel), all_some (by decide +kernel), by decide +kernel⟩⟩

theorem witness_SlewStagedByItsOwner :
    wScale.Safe ∧ wScale.dev.loaded = true :=
  ⟨State.safe_of (by decide +kernel), by decide +kernel⟩

theorem witness_SetsPublishedAndApplied :
    (wPend.Safe) ∧
    (wPend.Safe ∧ 1 ≠ 0 ∧ (wPend.dev.scale 0).pend = some { seq := 2, epoch := 90000, ofs := 5, incr := 1, cause := 41 } ∧ 90000 ≤ wPend.dev.raw ∧ (∀ (x : PSet), x ∈ (wPend.dev.scale 0).ends → wPend.dev.raw < x.epoch)) :=
  ⟨State.safe_of (by decide +kernel),
    ⟨State.safe_of (by decide +kernel), by decide +kernel⟩⟩

theorem witness_CastlingRequestedAndCancelled :
    (wScale.Safe ∧ wScale.dev.loaded = true) ∧
    (v10_2.Safe ∧ v10_2.dev.loaded = true) ∧
    (v10_3.Safe ∧ v10_3.dev.loaded = true) :=
  ⟨⟨State.safe_of (by decide +kernel), by decide +kernel⟩,
    ⟨State.safe_of (by decide +kernel), by decide +kernel⟩,
    ⟨State.safe_of (by decide +kernel), by decide +kernel⟩⟩

theorem witness_CastlingDecidedSwitchedCompleted :
    (v10_2.Safe ∧ v10_2.dev.ts.castle = some { s := 110000, target := 1, force := false } ∧ 110000 ≤ v10_2.dev.raw + 16384 ∧ v10_2.dev.ts.served72 (ticks16 110000) = some ((wScale.dev.ts.served72 (ticks16 110000)).getD 0) ∧ (v10_2.dev.scale 1).time72 (ticks16 110000) = some ((wScale.dev.ts.b.time72 (ticks16 110000)).getD 0)) ∧
    (v10_4.Safe ∧ v10_4.dev.ts.castle = some { s := 90000, target := 1, force := false, decided := some 0, switch := some { s := 90000, target := 1, d := 7, delta := 1, n := 5 } } ∧ 0 < 16 ∧ 90000 ≤ v10_4.dev.raw) ∧
    (wBridge.Safe ∧ wBridge.dev.ts.switchAt (ticks16 wBridge.dev.raw) = some { s := 90000, target := 1, d := 7, delta := 1, n := 5 } ∧ wBridge.dev.ts.bridgeOpen = true ∧ 90000 + 5 ≤ wBridge.dev.raw) :=
  ⟨⟨State.safe_of (by decide +kernel), by decide +kernel⟩,
    ⟨State.safe_of (by decide +kernel), by decide +kernel⟩,
    ⟨State.safe_of (by decide +kernel), by decide +kernel⟩⟩

theorem witness_LeapTableKept :
    (wLeapNew.Safe ∧ (∀ (x : Nat × Bool), none = some x → x = (86400 * 3 + 37, false) ∧ wLeapNew.dev.flag F.LEAP_CTRL_SRC = false) ∧ wLeapNew.dev.loaded = true ∧ (86400 * 3 + 37 = wLeapNew.dev.get64 A.LEAP_NEW_SEC % 2 ^ 48 ∧ false = wLeapNew.dev.flag F.LEAP_CTRL_DIR ∧ wLeapNew.dev.flag F.LEAP_CTRL_SRC = true) ∧ (∀ (k : Fin 2), wLeapNew.dev.now16 ↑k + 2 * ↑sec16 ≤ ↑((86400 * 3 + 37) * sec16)) ∧ (↑(86400 * 3 + 37) - wLeapNew.dev.offsetBefore (86400 * 3 + 37)) % 86400 = 0 ∧ wLeapNew.dev.ts.leaps.length < 8 ∧ (∀ (l : Leap), l ∈ wLeapNew.dev.ts.leaps → l.sec ≠ 86400 * 3 + 37)) ∧
    (wLeap.Safe ∧ (∀ (x : Nat × Bool), some (86400 * 3 + 37, true) = some x → x = (86400 * 3 + 37, true) ∧ wLeap.dev.flag F.LEAP_CTRL_SRC = false) ∧ wLeap.dev.loaded = true ∧ (some (86400 * 3 + 37, true) = none → 86400 * 3 + 37 = wLeap.dev.get64 A.LEAP_NEW_SEC % 2 ^ 48 ∧ true = wLeap.dev.flag F.LEAP_CTRL_DIR ∧ wLeap.dev.flag F.LEAP_CTRL_SRC = true) ∧ (∀ (k : Fin 2), wLeap.dev.now16 ↑k + 2 * ↑sec16 ≤ ↑((86400 * 3 + 37) * sec16)) ∧ (↑(86400 * 3 + 37) - wLeap.dev.offsetBefore (86400 * 3 + 37)) % 86400 = 0 ∧ wLeap.dev.ts.leaps.length < 8 ∧ (∀ (l : Leap), l ∈ wLeap.dev.ts.leaps → l.sec ≠ 86400 * 3 + 37)) ∧
    (wLeap2.Safe ∧ (∀ (x : Nat), some 500 = some x → x = 500 ∧ wLeap2.dev.flag F.LEAP_CTRL_SRC = false) ∧ wLeap2.dev.loaded = true ∧ (some 500 = none → 500 = wLeap2.dev.get64 A.LEAP_NEW_SEC % 2 ^ 48 ∧ wLeap2.dev.flag F.LEAP_CTRL_SRC = true) ∧ (∀ (k : Fin 2), wLeap2.dev.now16 ↑k + 2 * ↑sec16 ≤ ↑(500 * sec16)) ∧ List.find? (fun (x : Leap) => decide (x.sec = 500)) wLeap2.dev.ts.leaps = some { sec := 500, offset := 38 }) ∧
    (wLeap.Safe ∧ wLeap.dev.ts.leaps = [] ++ [{ sec := 0, offset := 37 }] ∧ ↑(0 * sec16) ≤ wLeap.dev.now16 0 ∧ (∀ (x : Leap), x ∈ [] → x.applied = true ∨ wLeap.dev.now16 0 < ↑(x.sec * sec16))) ∧
    (wLeap.Safe ∧ wLeap.dev.loaded = true) ∧
    (v10_5.Safe ∧ v10_5.dev.loaded = true) :=
  ⟨⟨State.safe_of (by decide +kernel), all_some (by decide +kernel), by decide +kernel⟩,
    ⟨State.safe_of (by decide +kernel), all_some (by decide +kernel), by decide +kernel⟩,
    ⟨State.safe_of (by decide +kernel), all_some (by decide +kernel), by decide +kernel⟩,
    ⟨State.safe_of (by decide +kernel), by decide +kernel⟩,
    ⟨State.safe_of (by decide +kernel), by decide +kernel⟩,
    ⟨State.safe_of (by decide +kernel), by decide +kernel⟩⟩

theorem witness_WritesByAccessCode :
    (warm.Safe ∧ warm.dev.loaded = true ∧ warm.dev.onBus Req.host = true ∧ 3600 < 2 ^ 32 ∧ 3600 % 4096 ≤ 3600) ∧
    (v14_6.Safe ∧ v14_6.dev.loaded = true ∧ v14_6.dev.onBus Req.host = true ∧ 3600 < 2 ^ 32 ∧ 3600 % 4096 ≤ 3600) ∧
    (warm.Safe ∧ warm.dev.loaded = true ∧ warm.dev.onBus Req.host = true ∧ 3601 < 2 ^ 32 ∧ 3600 < 3601 % 4096) ∧
    (v14_1.Safe ∧ v14_1.dev.loaded = true ∧ v14_1.dev.onBus Req.host = true ∧ 15 < 2 ^ 32 ∧ (∀ (x : Limit), x ∈ v14_1.dev.pos.limits → x.addr ≠ A.GBL_STATUS) ∧ v14_1.dev.armOf Req.host A.GUARD = none) ∧
    (warm.Safe ∧ warm.dev.loaded = true ∧ warm.dev.onBus Req.host = true ∧ 15 < 2 ^ 32) ∧
    (v14_3.Safe ∧ v14_3.dev.loaded = true ∧ v14_3.dev.onBus Req.host = true ∧ 15 < 2 ^ 32) ∧
    (warm.Safe ∧ warm.dev.loaded = true ∧ warm.dev.onBus Req.cores = true ∧ 15 < 2 ^ 32 ∧ warm.dev.armOf Req.cores A.TS_GUARD = none) ∧
    (v14_7.Safe ∧ v14_7.dev.loaded = true ∧ v14_7.dev.onBus Req.cores = true ∧ 15 < 2 ^ 32 ∧ v14_7.dev.armOf Req.cores A.TS_GUARD = none) ∧
    (warm.Safe ∧ (∀ (g : Nat), guardOf 1048572 = some g → warm.dev.armOf Req.cores g = none) ∧ warm.dev.loaded = true ∧ warm.dev.onBus Req.cores = true ∧ 1048572 % 4 = 0 ∧ 1048572 < 1048576 ∧ lookup 1048572 = none) ∧
    (warm.Safe ∧ warm.dev.loaded = true ∧ warm.dev.onBus Req.cores = true ∧ 4098 % 4 ≠ 0 ∧ 4 ≠ 8) ∧
    (warm.Safe ∧ warm.dev.loaded = true ∧ warm.dev.onBus Req.cores = true ∧ 8 ≠ 4 ∧ 4100 % 8 ≠ 0) ∧
    (warm.Safe ∧ warm.dev.loaded = true ∧ warm.dev.onBus Req.cores = true ∧ 2 ≠ 4 ∧ 2 ≠ 8) :=
  ⟨⟨State.safe_of (by decide +kernel), by decide +kernel⟩,
    ⟨State.safe_of (by decide +kernel), by decide +kernel⟩,
    ⟨State.safe_of (by decide +kernel), by decide +kernel⟩,
    ⟨State.safe_of (by decide +kernel), by decide +kernel⟩,
    ⟨State.safe_of (by decide +kernel), by decide +kernel⟩,
    ⟨State.safe_of (by decide +kernel), by decide +kernel⟩,
    ⟨State.safe_of (by decide +kernel), by decide +kernel⟩,
    ⟨State.safe_of (by decide +kernel), by decide +kernel⟩,
    ⟨State.safe_of (by decide +kernel), all_some (by decide +kernel), by decide +kernel⟩,
    ⟨State.safe_of (by decide +kernel), by decide +kernel⟩,
    ⟨State.safe_of (by decide +kernel), by decide +kernel⟩,
    ⟨State.safe_of (by decide +kernel), by decide +kernel⟩⟩

theorem witness_LatchServesHigherWords :
    (warm.Safe ∧ warm.dev.loaded = true ∧ warm.dev.onBus Req.host = true ∧ A.SLEW_AMOUNT 0 ∈ [A.SLEW_AMOUNT 0, A.FREQ_ADJ 0, A.INCR 0, A.CASTLE_EPOCH]) ∧
    (warm.Safe ∧ warm.dev.loaded = true ∧ warm.dev.onBus Req.host = true ∧ A.INCR 1 ∈ [A.SLEW_AMOUNT 1, A.FREQ_ADJ 1, A.INCR 1, A.CASTLE_EPOCH]) ∧
    (warm.Safe ∧ warm.dev.loaded = true ∧ warm.dev.onBus Req.host = true ∧ A.CASTLE_EPOCH ∈ [A.SLEW_AMOUNT 0, A.FREQ_ADJ 0, A.INCR 0, A.CASTLE_EPOCH]) :=
  ⟨⟨State.safe_of (by decide +kernel), by decide +kernel⟩,
    ⟨State.safe_of (by decide +kernel), by decide +kernel⟩,
    ⟨State.safe_of (by decide +kernel), by decide +kernel⟩⟩

theorem witness_FifoReadsPop :
    (wFifo2.Safe ∧ wFifo2.dev.loaded = true ∧ wFifo2.dev.onBus Req.host = true ∧ 2 < wFifo2.dev.tin.length ∧ (wFifo2.dev.tim 2).stamps.length ≤ 1024) ∧
    (wFifo2.Safe ∧ wFifo2.dev.loaded = true ∧ wFifo2.dev.onBus Req.host = true ∧ 2 < wFifo2.dev.tin.length ∧ (wFifo2.dev.tim 2).results.length ≤ 16) ∧
    (wFifo2.Safe ∧ wFifo2.dev.loaded = true ∧ wFifo2.dev.onBus Req.host = true ∧ wFifo2.dev.diePowered 1 = true ∧ wFifo2.dev.dies.length = 4 ∧ (wFifo2.dev.die 1).links.length = 4 ∧ (wFifo2.dev.lnk 1 2).tsq.length ≤ 64) ∧
    (wFifo2.Safe ∧ wFifo2.dev.loaded = true ∧ wFifo2.dev.onBus Req.host = true ∧ wFifo2.dev.ring.evq.length ≤ 32) ∧
    (wFifo2.Safe ∧ wFifo2.dev.loaded = true ∧ wFifo2.dev.onBus Req.host = true ∧ wFifo2.dev.diePowered 3 = true ∧ (589828 : Word).toNat = wFifo2.dev.get (F.DISPATCH_STATUS_LEVEL 3) + 2 ^ 16 * wFifo2.dev.get (F.DISPATCH_STATUS_PEAK 3)) ∧
    (wFifo2.Safe ∧ wFifo2.dev.loaded = true ∧ wFifo2.dev.onBus Req.host = true ∧ wFifo2.dev.diePowered 0 = true ∧ (524288 : Word).toNat = wFifo2.dev.get (F.CAL_STATE_COMMITTED 0 3) + 2 ^ 16 * wFifo2.dev.get (F.CAL_STATE_PEAK 0 3)) ∧
    (warm.Safe ∧ warm.dev.loaded = true ∧ warm.dev.onBus Req.host = true ∧ 2 < warm.dev.tin.length ∧ (warm.dev.tim 2).stamps.length ≤ 1024) :=
  ⟨⟨State.safe_of (by decide +kernel), by decide +kernel⟩,
    ⟨State.safe_of (by decide +kernel), by decide +kernel⟩,
    ⟨State.safe_of (by decide +kernel), by decide +kernel⟩,
    ⟨State.safe_of (by decide +kernel), by decide +kernel⟩,
    ⟨State.safe_of (by decide +kernel), by decide +kernel⟩,
    ⟨State.safe_of (by decide +kernel), by decide +kernel⟩,
    ⟨State.safe_of (by decide +kernel), by decide +kernel⟩⟩

theorem witness_GuardedStepsNeedArming :
    (warm.Safe ∧ warm.dev.loaded = true ∧ warm.dev.onBus Req.host = true ∧ (A.GUARD, [528]) = [(A.GUARD, [528]), (A.TS_GUARD, [4180, 8276, 4204, 8300]), (A.CK_GUARD, [776, 840])].getD 0 (0, [])) ∧
    (warm.Safe ∧ warm.dev.loaded = true ∧ warm.dev.onBus Req.host = true ∧ (A.TS_GUARD, [4180, 8276, 4204, 8300]) = [(A.GUARD, [528]), (A.TS_GUARD, [4180, 8276, 4204, 8300]), (A.CK_GUARD, [776, 840])].getD 1 (0, [])) ∧
    (warm.Safe ∧ warm.dev.loaded = true ∧ warm.dev.onBus Req.host = true ∧ (A.CK_GUARD, [776, 840]) = [(A.GUARD, [528]), (A.TS_GUARD, [4180, 8276, 4204, 8300]), (A.CK_GUARD, [776, 840])].getD 2 (0, [])) ∧
    (v14_2.Safe ∧ v14_2.dev.loaded = true ∧ v14_2.dev.onBus Req.host = true ∧ (A.TS_GUARD, [4180, 8276, 4204, 8300]) = [(A.GUARD, [528]), (A.TS_GUARD, [4180, 8276, 4204, 8300]), (A.CK_GUARD, [776, 840])].getD 1 (0, [])) ∧
    (warm.Safe ∧ (Instr.stepRel Req.host 0 5, A.STEP_REL_HI 0, A.TS_GUARD, A.TS_STATUS) ∈ [(Instr.stepRel Req.host 0 5, A.STEP_REL_HI 0, A.TS_GUARD, A.TS_STATUS), (Instr.stepAbs Req.host 0 5, A.STEP_ABS_SEC_HI 0, A.TS_GUARD, A.TS_STATUS), (Instr.opllPstep Req.host 0 5, A.OPLL_PSTEP 0, A.CK_GUARD, A.CK_STATUS)] ∧ ¬warm.dev.Armed Req.host A.TS_GUARD (A.STEP_REL_HI 0) ∧ warm.dev.loaded = true ∧ warm.dev.onBus Req.host = true) ∧
    (warm.Safe ∧ (Instr.stepAbs Req.host 0 5, A.STEP_ABS_SEC_HI 0, A.TS_GUARD, A.TS_STATUS) ∈ [(Instr.stepRel Req.host 0 5, A.STEP_REL_HI 0, A.TS_GUARD, A.TS_STATUS), (Instr.stepAbs Req.host 0 5, A.STEP_ABS_SEC_HI 0, A.TS_GUARD, A.TS_STATUS), (Instr.opllPstep Req.host 0 5, A.OPLL_PSTEP 0, A.CK_GUARD, A.CK_STATUS)] ∧ ¬warm.dev.Armed Req.host A.TS_GUARD (A.STEP_ABS_SEC_HI 0) ∧ warm.dev.loaded = true ∧ warm.dev.onBus Req.host = true) ∧
    (warm.Safe ∧ (Instr.opllPstep Req.host 0 5, A.OPLL_PSTEP 0, A.CK_GUARD, A.CK_STATUS) ∈ [(Instr.stepRel Req.host 0 5, A.STEP_REL_HI 0, A.TS_GUARD, A.TS_STATUS), (Instr.stepAbs Req.host 0 5, A.STEP_ABS_SEC_HI 0, A.TS_GUARD, A.TS_STATUS), (Instr.opllPstep Req.host 0 5, A.OPLL_PSTEP 0, A.CK_GUARD, A.CK_STATUS)] ∧ ¬warm.dev.Armed Req.host A.CK_GUARD (A.OPLL_PSTEP 0) ∧ warm.dev.loaded = true ∧ warm.dev.onBus Req.host = true) ∧
    (v14_3.Safe ∧ v14_3.dev.Armed Req.host A.TS_GUARD (A.STEP_REL_HI 1) ∧ v14_3.dev.loaded = true ∧ v14_3.dev.onBus Req.host = true) ∧
    (v14_8.Safe ∧ v14_8.dev.Armed Req.host A.TS_GUARD (A.STEP_REL_HI 1) ∧ v14_8.dev.loaded = true ∧ v14_8.dev.onBus Req.host = true) ∧
    (v14_9.Safe ∧ v14_9.dev.Armed Req.host A.TS_GUARD (A.STEP_REL_HI 1) ∧ v14_9.dev.loaded = true ∧ v14_9.dev.onBus Req.host = true) ∧
    (v14_10.Safe ∧ v14_10.dev.Armed Req.host A.TS_GUARD (A.STEP_REL_HI 1) ∧ v14_10.dev.loaded = true ∧ v14_10.dev.onBus Req.host = true) ∧
    (v14_4.Safe ∧ v14_4.dev.Armed Req.host A.TS_GUARD (A.STEP_ABS_SEC_HI 1) ∧ v14_4.dev.loaded = true ∧ v14_4.dev.onBus Req.host = true) ∧
    (v14_11.Safe ∧ v14_11.dev.Armed Req.host A.TS_GUARD (A.STEP_ABS_SEC_HI 1) ∧ v14_11.dev.loaded = true ∧ v14_11.dev.onBus Req.host = true) ∧
    (v14_12.Safe ∧ v14_12.dev.Armed Req.host A.TS_GUARD (A.STEP_ABS_SEC_HI 1) ∧ v14_12.dev.loaded = true ∧ v14_12.dev.onBus Req.host = true) ∧
    (v14_13.Safe ∧ v14_13.dev.Armed Req.host A.TS_GUARD (A.STEP_ABS_SEC_HI 1) ∧ v14_13.dev.loaded = true ∧ v14_13.dev.onBus Req.host = true) ∧
    (v14_5.Safe ∧ v14_5.dev.Armed Req.host A.CK_GUARD (A.OPLL_PSTEP 1) ∧ v14_5.dev.loaded = true ∧ v14_5.dev.onBus Req.host = true ∧ v14_5.dev.cks.oplls.length = 2) ∧
    (v14_14.Safe ∧ v14_14.dev.Armed Req.host A.CK_GUARD (A.OPLL_PSTEP 1) ∧ v14_14.dev.loaded = true ∧ v14_14.dev.onBus Req.host = true ∧ v14_14.dev.cks.oplls.length = 2) ∧
    (v14_15.Safe ∧ v14_15.dev.Armed Req.host A.CK_GUARD (A.OPLL_PSTEP 1) ∧ v14_15.dev.loaded = true ∧ v14_15.dev.onBus Req.host = true ∧ v14_15.dev.cks.oplls.length = 2) :=
  ⟨⟨State.safe_of (by decide +kernel), by decide +kernel⟩,
    ⟨State.safe_of (by decide +kernel), by decide +kernel⟩,
    ⟨State.safe_of (by decide +kernel), by decide +kernel⟩,
    ⟨State.safe_of (by decide +kernel), by decide +kernel⟩,
    ⟨State.safe_of (by decide +kernel), .head _, by rw [Dev.armed_iff]; decide +kernel, by decide +kernel⟩,
    ⟨State.safe_of (by decide +kernel), .tail _ (.head _), by rw [Dev.armed_iff]; decide +kernel, by decide +kernel⟩,
    ⟨State.safe_of (by decide +kernel), .tail _ (.tail _ (.head _)), by rw [Dev.armed_iff]; decide +kernel, by decide +kernel⟩,
    ⟨State.safe_of (by decide +kernel), by rw [Dev.armed_iff]; decide +kernel, by decide +kernel⟩,
    ⟨State.safe_of (by decide +kernel), by rw [Dev.armed_iff]; decide +kernel, by decide +kernel⟩,
    ⟨State.safe_of (by decide +kernel), by rw [Dev.armed_iff]; decide +kernel, by decide +kernel⟩,
    ⟨State.safe_of (by decide +kernel), by rw [Dev.armed_iff]; decide +kernel, by decide +kernel⟩,
    ⟨State.safe_of (by decide +kernel), by rw [Dev.armed_iff]; decide +kernel, by decide +kernel⟩,
    ⟨State.safe_of (by decide +kernel), by rw [Dev.armed_iff]; decide +kernel, by decide +kernel⟩,
    ⟨State.safe_of (by decide +kernel), by rw [Dev.armed_iff]; decide +kernel, by decide +kernel⟩,
    ⟨State.safe_of (by decide +kernel), by rw [Dev.armed_iff]; decide +kernel, by decide +kernel⟩,
    ⟨State.safe_of (by decide +kernel), by rw [Dev.armed_iff]; decide +kernel, by decide +kernel⟩,
    ⟨State.safe_of (by decide +kernel), by rw [Dev.armed_iff]; decide +kernel, by decide +kernel⟩,
    ⟨State.safe_of (by decide +kernel), by rw [Dev.armed_iff]; decide +kernel, by decide +kernel⟩⟩

theorem witness_EnableRequestsLatch :
    (wOff.Safe ∧ wOff.Shaped ∧ wOff.dev.loaded = true ∧ wOff.dev.limitOk [(A.IN_CTRL 1, wOff.dev.bit0 (A.IN_CTRL 1) true)] = true) ∧
    (wOn.Safe ∧ wOn.Shaped ∧ wOn.dev.loaded = true ∧ wOn.dev.limitOk [(A.IN_CTRL 1, wOn.dev.bit0 (A.IN_CTRL 1) false)] = true) ∧
    (wTrans.Safe ∧ wTrans.Shaped ∧ wTrans.dev.loaded = true ∧ wTrans.dev.limitOk [(A.IN_CTRL 1, wTrans.dev.bit0 (A.IN_CTRL 1) false)] = true) ∧
    (wTrans.Safe ∧ wTrans.Shaped ∧ wTrans.dev.loaded = true ∧ wTrans.dev.limitOk [(A.IN_CTRL 1, wTrans.dev.bit0 (A.IN_CTRL 1) true)] = true) ∧
    (wOff.Safe ∧ wOff.Shaped ∧ wOff.dev.loaded = true ∧ wOff.dev.limitOk [(A.GN_CTRL, wOff.dev.bit0 A.GN_CTRL true)] = true) ∧
    (wTrans.Safe ∧ wTrans.Shaped ∧ wTrans.dev.loaded = true ∧ wTrans.dev.limitOk [(A.GN_CTRL, wTrans.dev.bit0 A.GN_CTRL true)] = true) ∧
    (wTrans.Safe ∧ wTrans.Shaped ∧ wTrans.dev.loaded = true ∧ wTrans.dev.limitOk [(A.GN_CTRL, wTrans.dev.bit0 A.GN_CTRL false)] = true) ∧
    (wOn.Safe ∧ wOn.Shaped ∧ wOn.dev.loaded = true ∧ wOn.dev.limitOk [(A.GN_CTRL, wOn.dev.bit0 A.GN_CTRL false)] = true) ∧
    (wOff.Safe ∧ wOff.Shaped ∧ wOff.dev.loaded = true ∧ wOff.dev.limitOk [(A.OUT_CTRL 1, wOff.dev.bit0 (A.OUT_CTRL 1) true)] = true) ∧
    (wTrans.Safe ∧ wTrans.Shaped ∧ wTrans.dev.loaded = true ∧ wTrans.dev.limitOk [(A.OUT_CTRL 1, wTrans.dev.bit0 (A.OUT_CTRL 1) true)] = true) ∧
    (wOn.Safe ∧ wOn.Shaped ∧ wOn.dev.loaded = true ∧ wOn.dev.limitOk [(A.OUT_CTRL 1, wOn.dev.bit0 (A.OUT_CTRL 1) false)] = true) ∧
    (wOff.Safe ∧ wOff.Shaped ∧ wOff.dev.loaded = true ∧ wOff.dev.diePowered 1 = true ∧ wOff.dev.limitOk [(A.LINK_CTRL 1 1, wOff.dev.bit0 (A.LINK_CTRL 1 1) true)] = true) ∧
    (wTrans.Safe ∧ wTrans.Shaped ∧ wTrans.dev.loaded = true ∧ wTrans.dev.diePowered 1 = true ∧ wTrans.dev.limitOk [(A.LINK_CTRL 1 1, wTrans.dev.bit0 (A.LINK_CTRL 1 1) false)] = true) ∧
    (wOn.Safe ∧ wOn.Shaped ∧ wOn.dev.loaded = true ∧ wOn.dev.diePowered 1 = true ∧ wOn.dev.limitOk [(A.LINK_CTRL 1 1, wOn.dev.bit0 (A.LINK_CTRL 1 1) false)] = true) ∧
    (wOff.Safe ∧ wOff.Shaped ∧ wOff.dev.loaded = true ∧ wOff.dev.limitOk [(A.BN_CTRL, wOff.dev.bit0 A.BN_CTRL true)] = true) ∧
    (wTrans.Safe ∧ wTrans.Shaped ∧ wTrans.dev.loaded = true ∧ wTrans.dev.limitOk [(A.BN_CTRL, wTrans.dev.bit0 A.BN_CTRL false)] = true) ∧
    (wOn.Safe ∧ wOn.Shaped ∧ wOn.dev.loaded = true ∧ wOn.dev.limitOk [(A.BN_CTRL, wOn.dev.bit0 A.BN_CTRL false)] = true) ∧
    (wOn.Safe ∧ wOn.Shaped ∧ wOn.dev.ringReach RingId.ev = true ∧ wOn.dev.limitOk [(ringBank RingId.ev + 12, wOn.dev.bit0 (ringBank RingId.ev + 12) true)] = true) ∧
    (wOn.Safe ∧ wOn.Shaped ∧ wOn.dev.ringReach (RingId.rx 1 2) = true ∧ wOn.dev.limitOk [(ringBank (RingId.rx 1 2) + 12, wOn.dev.bit0 (ringBank (RingId.rx 1 2) + 12) true)] = true) ∧
    (wOn.Safe ∧ wOn.Shaped ∧ wOn.dev.ringReach (RingId.tx 1 2) = true ∧ wOn.dev.limitOk [(ringBank (RingId.tx 1 2) + 12, wOn.dev.bit0 (ringBank (RingId.tx 1 2) + 12) false)] = true) ∧
    (wOff.Safe ∧ wOff.Shaped ∧ wOff.dev.loaded = true ∧ wOff.dev.diePowered 1 = true ∧ wOff.dev.limitOk [(A.ENG_CTRL 1 1, wOff.dev.bit0 (A.ENG_CTRL 1 1) true)] = true ∧ wOff.dev.parkRefusal (1) (1) true (wOff.dev.flag (F.ENG_CTRL_ENABLE 1 1)) = none) ∧
    (wTrans.Safe ∧ wTrans.Shaped ∧ wTrans.dev.loaded = true ∧ wTrans.dev.diePowered 1 = true ∧ wTrans.dev.limitOk [(A.ENG_CTRL 1 1, wTrans.dev.bit0 (A.ENG_CTRL 1 1) false)] = true ∧ wTrans.dev.parkRefusal (1) (1) false (wTrans.dev.flag (F.ENG_CTRL_ENABLE 1 1)) = none) ∧
    (wOn.Safe ∧ wOn.Shaped ∧ wOn.dev.loaded = true ∧ wOn.dev.diePowered 1 = true ∧ wOn.dev.limitOk [(A.ENG_CTRL 1 1, wOn.dev.bit0 (A.ENG_CTRL 1 1) true)] = true ∧ bit (wOn.dev.get (F.DIE_INFO_ENG_MASK 1)) 1 = false) ∧
    (wOn.Safe ∧ wOn.Shaped ∧ wOn.dev.loaded = true ∧ wOn.dev.diePowered 1 = true ∧ wOn.dev.limitOk [(A.ENG_CTRL 1 2, wOn.dev.bit0 (A.ENG_CTRL 1 2) false)] = true ∧ wOn.dev.flag (F.ENG_CTRL_ENABLE 1 2) = true ∧ wOn.dev.unparkedBut 1 2 < wOn.dev.get (F.DIE_INFO_E_MIN 1)) ∧
    (v16_1.Safe ∧ v16_1.Shaped ∧ v16_1.dev.limitOk [(A.DIE_CTRL, putBits 3 0 (v16_1.dev.reg A.DIE_CTRL) 7)] = true) ∧
    (v16_2.Safe ∧ v16_2.Shaped ∧ v16_2.dev.limitOk [(A.DIE_CTRL, putBits 3 0 (v16_2.dev.reg A.DIE_CTRL) 5)] = true) ∧
    (v16_3.Safe ∧ v16_3.Shaped ∧ v16_3.dev.limitOk [(A.DIE_CTRL, putBits 3 0 (v16_3.dev.reg A.DIE_CTRL) 5)] = true) ∧
    (v16_4.Safe ∧ v16_4.Shaped ∧ v16_4.dev.limitOk [(A.DIE_CTRL, putBits 3 0 (v16_4.dev.reg A.DIE_CTRL) 5)] = true) ∧
    (v16_5.Safe ∧ v16_5.Shaped ∧ v16_5.dev.loaded = true) ∧
    (v16_6.Safe ∧ v16_6.Shaped ∧ v16_6.dev.loaded = true) ∧
    (v16_7.Safe ∧ v16_7.Shaped ∧ v16_7.dev.loaded = true) ∧
    (v16_8.Safe ∧ v16_8.Shaped ∧ v16_8.dev.loaded = true ∧ v16_8.dev.diePowered 1 = true) ∧
    (v16_9.Safe ∧ v16_9.Shaped ∧ v16_9.dev.loaded = true) ∧
    (v16_10.Safe ∧ v16_10.Shaped ∧ v16_10.dev.loaded = true ∧ v16_10.dev.diePowered 1 = true) ∧
    (v16_11.Safe ∧ v16_11.Shaped ∧ v16_11.dev.ringReach RingId.ev = true) ∧
    (v16_12.Safe ∧ v16_12.Shaped) :=
  ⟨⟨State.safe_of (by decide +kernel), State.shaped_of (by decide +kernel), by decide +kernel⟩,
    ⟨State.safe_of (by decide +kernel), State.shaped_of (by decide +kernel), by decide +kernel⟩,
    ⟨State.safe_of (by decide +kernel), State.shaped_of (by decide +kernel), by decide +kernel⟩,
    ⟨State.safe_of (by decide +kernel), State.shaped_of (by decide +kernel), by decide +kernel⟩,
    ⟨State.safe_of (by decide +kernel), State.shaped_of (by decide +kernel), by decide +kernel⟩,
    ⟨State.safe_of (by decide +kernel), State.shaped_of (by decide +kernel), by decide +kernel⟩,
    ⟨State.safe_of (by decide +kernel), State.shaped_of (by decide +kernel), by decide +kernel⟩,
    ⟨State.safe_of (by decide +kernel), State.shaped_of (by decide +kernel), by decide +kernel⟩,
    ⟨State.safe_of (by decide +kernel), State.shaped_of (by decide +kernel), by decide +kernel⟩,
    ⟨State.safe_of (by decide +kernel), State.shaped_of (by decide +kernel), by decide +kernel⟩,
    ⟨State.safe_of (by decide +kernel), State.shaped_of (by decide +kernel), by decide +kernel⟩,
    ⟨State.safe_of (by decide +kernel), State.shaped_of (by decide +kernel), by decide +kernel⟩,
    ⟨State.safe_of (by decide +kernel), State.shaped_of (by decide +kernel), by decide +kernel⟩,
    ⟨State.safe_of (by decide +kernel), State.shaped_of (by decide +kernel), by decide +kernel⟩,
    ⟨State.safe_of (by decide +kernel), State.shaped_of (by decide +kernel), by decide +kernel⟩,
    ⟨State.safe_of (by decide +kernel), State.shaped_of (by decide +kernel), by decide +kernel⟩,
    ⟨State.safe_of (by decide +kernel), State.shaped_of (by decide +kernel), by decide +kernel⟩,
    ⟨State.safe_of (by decide +kernel), State.shaped_of (by decide +kernel), by decide +kernel⟩,
    ⟨State.safe_of (by decide +kernel), State.shaped_of (by decide +kernel), by decide +kernel⟩,
    ⟨State.safe_of (by decide +kernel), State.shaped_of (by decide +kernel), by decide +kernel⟩,
    ⟨State.safe_of (by decide +kernel), State.shaped_of (by decide +kernel), by decide +kernel⟩,
    ⟨State.safe_of (by decide +kernel), State.shaped_of (by decide +kernel), by decide +kernel⟩,
    ⟨State.safe_of (by decide +kernel), State.shaped_of (by decide +kernel), by decide +kernel⟩,
    ⟨State.safe_of (by decide +kernel), State.shaped_of (by decide +kernel), by decide +kernel⟩,
    ⟨State.safe_of (by decide +kernel), State.shaped_of (by decide +kernel), by decide +kernel⟩,
    ⟨State.safe_of (by decide +kernel), State.shaped_of (by decide +kernel), by decide +kernel⟩,
    ⟨State.safe_of (by decide +kernel), State.shaped_of (by decide +kernel), by decide +kernel⟩,
    ⟨State.safe_of (by decide +kernel), State.shaped_of (by decide +kernel), by decide +kernel⟩,
    ⟨State.safe_of (by decide +kernel), State.shaped_of (by decide +kernel), by decide +kernel⟩,
    ⟨State.safe_of (by decide +kernel), State.shaped_of (by decide +kernel), by decide +kernel⟩,
    ⟨State.safe_of (by decide +kernel), State.shaped_of (by decide +kernel), by decide +kernel⟩,
    ⟨State.safe_of (by decide +kernel), State.shaped_of (by decide +kernel), by decide +kernel⟩,
    ⟨State.safe_of (by decide +kernel), State.shaped_of (by decide +kernel), by decide +kernel⟩,
    ⟨State.safe_of (by decide +kernel), State.shaped_of (by decide +kernel), by decide +kernel⟩,
    ⟨State.safe_of (by decide +kernel), State.shaped_of (by decide +kernel), by decide +kernel⟩,
    ⟨State.safe_of (by decide +kernel), State.shaped_of (by decide +kernel)⟩⟩

theorem witness_SelectorEvaluationRows :
    (warm.Safe) ∧
    (wSel.Safe) :=
  ⟨State.safe_of (by decide +kernel),
    State.safe_of (by decide +kernel)⟩

theorem witness_SlotsQualifiedAndDisqualified :
    (wSel.Safe ∧ wSel.Shaped ∧ wSel.dev.loaded = true ∧ (Instr.disq 1, true) ∈ [(Instr.disq 1, true), (Instr.release 1, false)]) ∧
    (wSel.Safe ∧ wSel.Shaped ∧ wSel.dev.loaded = true ∧ (Instr.release 1, false) ∈ [(Instr.disq 1, true), (Instr.release 1, false)]) ∧
    (wSel.Safe ∧ wSel.Shaped ∧ wSel.dev.slotSt 0 1 = 2 ∧ (wSel.dev.view 0 1).wtrEnd ≤ wSel.dev.raw ∧ wSel.dev.flag (F.SLOT_STATE_SIG_VALID 1) = true ∧ (wSel.dev.view 0 1).reasons = 0) ∧
    (v20_1.Safe ∧ v20_1.Shaped ∧ (v20_1.dev.view 0 2).disSince = some 1000 ∧ 1000 + 10 * secTicks ≤ v20_1.dev.raw ∧ 2 ∈ v20_1.dev.disagreeing 0 ∧ 3 ≤ (List.filter (fun (o : Nat) => (v20_1.dev.src o).freq.isSome) (v20_1.dev.disagreeSet 0)).length ∧ bit (v20_1.dev.view 0 2).reasons 2 = false) ∧
    (wDis2.Safe ∧ wDis2.Shaped ∧ (wDis2.dev.view 0 1).disSince = some 1000 ∧ 1000 + 10 * secTicks ≤ wDis2.dev.raw ∧ 1 ∈ wDis2.dev.disagreeing 0 ∧ (List.filter (fun (o : Nat) => (wDis2.dev.src o).freq.isSome) (wDis2.dev.disagreeSet 0)).length = 2) ∧
    (wDis2.Safe ∧ wDis2.Shaped) ∧
    (v20_2.Safe ∧ v20_2.Shaped) :=
  ⟨⟨State.safe_of (by decide +kernel), State.shaped_of (by decide +kernel), by decide +kernel⟩,
    ⟨State.safe_of (by decide +kernel), State.shaped_of (by decide +kernel), by decide +kernel⟩,
    ⟨State.safe_of (by decide +kernel), State.shaped_of (by decide +kernel), by decide +kernel⟩,
    ⟨State.safe_of (by decide +kernel), State.shaped_of (by decide +kernel), by decide +kernel⟩,
    ⟨State.safe_of (by decide +kernel), State.shaped_of (by decide +kernel), by decide +kernel⟩,
    ⟨State.safe_of (by decide +kernel), State.shaped_of (by decide +kernel)⟩,
    ⟨State.safe_of (by decide +kernel), State.shaped_of (by decide +kernel)⟩⟩

theorem witness_SelectorsLockExpireAndMeasure :
    (wLock.Safe ∧ 1 ≠ 0 ∧ wLock.dev.selSt 0 = 1 ∧ wLock.dev.get (F.SEL_STATUS_SELECTED 0) = 2 ∧ wLock.dev.slotSt 0 2 = 4 ∧ (wLock.dev.sel 0).slewLeft = 0 ∧ (wLock.dev.scale 0).slewRemain (ticks16 wLock.dev.raw) = 0 ∧ wLock.dev.slotPhi 0 2 = some 0 ∧ Int.natAbs 0 ≤ wLock.dev.get (F.LOCK_WINDOW_NS 0) * 65536 ∧ (wLock.dev.sel 0).lockSince = some 1000 ∧ 1000 + 10 * secTicks ≤ wLock.dev.raw) ∧
    ((wHold' 0).Safe ∧ 0 ≠ 1 ∧ (wHold' 0).dev.selSt 1 = 3 ∧ ((wHold' 0).dev.raw - ((wHold' 0).dev.sel 1).entry) / secTicks < 2 ^ 33 ∧ (wHold' 0).dev.get (F.HOLD_LIMIT_NS 1) * 1000 < (wHold' 0).dev.holdBound (1) (((wHold' 0).dev.sel 1).entry + ((wHold' 0).dev.raw - ((wHold' 0).dev.sel 1).entry) / secTicks * secTicks)) ∧
    ((wHold' 60000).Safe ∧ 0 ≠ 1 ∧ (wHold' 60000).dev.selSt 1 = 3 ∧ ((wHold' 60000).dev.raw - ((wHold' 60000).dev.sel 1).entry) / secTicks < 2 ^ 33 ∧ ((wHold' 60000).dev.sel 1).committed = true ∧ (wHold' 60000).dev.holdBound (1) (((wHold' 60000).dev.sel 1).entry + ((wHold' 60000).dev.raw - ((wHold' 60000).dev.sel 1).entry) / secTicks * secTicks) ≤ (wHold' 60000).dev.get (F.HOLD_LIMIT_NS 1) * 1000) ∧
    (v20_3.Safe ∧ 0 ≠ 1 ∧ v20_3.dev.coarse = false ∧ v20_3.dev.selSt 1 = 3 ∧ (v20_3.dev.sel 1).coast = some 5 ∧ 5 + 100 * msTicks ≤ v20_3.dev.raw) ∧
    (wMeas.Safe ∧ 1 ≠ 0 ∧ (wMeas.dev.sel 0).sw = some { target := 2, count := 15 } ∧ 2 < 12 ∧ wMeas.dev.slotPhi (0) 2 = some 0) ∧
    (v20_4.Safe ∧ 1 ≠ 0 ∧ v20_4.dev.loaded = true ∧ v20_4.dev.limitOk [(A.SEL_CTRL 0, v20_4.dev.bit0 (A.SEL_CTRL 0) true)] = true ∧ (true = true → v20_4.dev.priv 4 = true ∧ v20_4.dev.priv 0 = true)) ∧
    (v20_5.Safe ∧ 1 ≠ 0 ∧ v20_5.dev.loaded = true ∧ v20_5.dev.limitOk [(A.SEL_CTRL 0, v20_5.dev.bit0 (A.SEL_CTRL 0) true)] = true ∧ (v20_5.dev.priv 4 && v20_5.dev.priv 0) = false) ∧
    (v20_6.Safe ∧ 1 ≠ 0 ∧ v20_6.dev.loaded = true) ∧
    (v20_7.Safe ∧ 0 ≠ 1 ∧ v20_7.dev.selSt 1 = 3 ∧ (v20_7.dev.raw - (v20_7.dev.sel 1).entry) / secTicks < 2 ^ 33 ∧ (v20_7.dev.sel 1).committed = false) :=
  ⟨⟨State.safe_of (by decide +kernel), by decide +kernel⟩,
    ⟨State.safe_of (by decide +kernel), by decide +kernel⟩,
    ⟨State.safe_of (by decide +kernel), by decide +kernel⟩,
    ⟨State.safe_of (by decide +kernel), by decide +kernel⟩,
    ⟨State.safe_of (by decide +kernel), by decide +kernel⟩,
    ⟨State.safe_of (by decide +kernel), by decide +kernel⟩,
    ⟨State.safe_of (by decide +kernel), by decide +kernel⟩,
    ⟨State.safe_of (by decide +kernel), by decide +kernel⟩,
    ⟨State.safe_of (by decide +kernel), by decide +kernel⟩⟩

theorem witness_EdgesFilteredAndStamped :
    (v22_1.Safe ∧ v22_1.Shaped ∧ v22_1.dev.tim 2 = { cand := some cnd }) ∧
    (v22_2.Safe ∧ v22_2.Shaped ∧ v22_2.dev.tim 2 = { } ∧ v22_2.dev.get (F.IN_CTRL_STATE 2) ≠ 0) ∧
    (v22_3.Safe ∧ v22_3.Shaped ∧ v22_3.dev.tim 2 = { lastStamp := some 6566707200 } ∧ v22_3.dev.get (F.IN_CTRL_STATE 2) = 0 ∧ (v22_3.dev.get (F.IN_CFG_EDGE 2) = if true = true then 0 else 1) ∧ ((if v22_3.dev.coarse = true then ticks16 (v22_3.dev.raw / 80 * 80) else (↑((v22_3.dev.raw + 1) * 65536) - ↑(tapPos ([none, none].getD (v22_3.dev.get (F.IN_STATUS_LINE 2)) none) 7) - toSigned 32 (v22_3.dev.get (F.IN_COMP_COMP 2))).toNat) < 6566707200 + 8 * 65536)) ∧
    (v22_4.Safe ∧ v22_4.Shaped ∧ (∀ (l : Nat), none = some l → l + 8 * 65536 ≤ if v22_4.dev.coarse = true then ticks16 (v22_4.dev.raw / 80 * 80) else (↑((v22_4.dev.raw + 1) * 65536) - ↑(tapPos ([none, none].getD (v22_4.dev.get (F.IN_STATUS_LINE 2)) none) 7) - toSigned 32 (v22_4.dev.get (F.IN_COMP_COMP 2))).toNat) ∧ v22_4.dev.tim 2 = { } ∧ v22_4.dev.get (F.IN_CTRL_STATE 2) = 0 ∧ (v22_4.dev.get (F.IN_CFG_EDGE 2) = if false = true then 0 else 1) ∧ v22_4.dev.get (F.IN_FILT_FILT 2) ≠ 0) ∧
    (v22_5.Safe ∧ v22_5.Shaped ∧ (((((100200 + 1) * 65536 : Nat) : Int) - (tapPos none 7 : Int)).toNat = (if v22_5.dev.coarse = true then ticks16 (v22_5.dev.raw / 80 * 80) else (((v22_5.dev.raw + 1) * 65536 : Nat) - (tapPos ([none, none].getD (v22_5.dev.get (F.IN_STATUS_LINE 2)) none) 7 : Int) - toSigned 32 (v22_5.dev.get (F.IN_COMP_COMP 2))).toNat)) ∧ (∀ (l : Nat), none = some l → l + 8 * 65536 ≤ if v22_5.dev.coarse = true then ticks16 (v22_5.dev.raw / 80 * 80) else (↑((v22_5.dev.raw + 1) * 65536) - ↑(tapPos ([none, none].getD (v22_5.dev.get (F.IN_STATUS_LINE 2)) none) 7) - toSigned 32 (v22_5.dev.get (F.IN_COMP_COMP 2))).toNat) ∧ v22_5.dev.tim 2 = { } ∧ v22_5.dev.get (F.IN_CTRL_STATE 2) = 0 ∧ v22_5.dev.get (F.IN_CFG_EDGE 2) = 2 ∧ v22_5.dev.get (F.IN_FILT_FILT 2) = 0 ∧ v22_5.dev.get (F.IN_CFG_ROLE 2) = 0 ∧ v22_5.dev.get (F.MEAS_CFG_MODE 2) = 0 ∧ 2 ^ v22_5.dev.get (F.IN_CFG_DIVIDE 2) ≤ 0 + 1) ∧
    (v22_6.Safe ∧ v22_6.Shaped ∧ (∃ (y : Candidate), ∃ (r : Nat), some cnd = some y ∧ y.stamp = 5000 ∧ y.level = true ∧ y.run = some r ∧ r ≤ y.edge + v22_6.dev.get (F.IN_FILT_BOUNCE 2) * usTicks ∧ r + v22_6.dev.get (F.IN_FILT_FILT 2) * 8 ≤ v22_6.dev.raw) ∧ v22_6.dev.tim 2 = { cand := some cnd } ∧ v22_6.dev.get (F.IN_CFG_ROLE 2) = 0 ∧ v22_6.dev.get (F.MEAS_CFG_MODE 2) = 0 ∧ 2 ^ v22_6.dev.get (F.IN_CFG_DIVIDE 2) ≤ 0 + 1) ∧
    (v22_7.Safe ∧ v22_7.Shaped ∧ (∃ (y : Candidate), ∃ (r : Nat), some cnd = some y ∧ y.stamp = 5000 ∧ y.level = true ∧ y.run = some r ∧ r ≤ y.edge + v22_7.dev.get (F.IN_FILT_BOUNCE 2) * usTicks ∧ r + v22_7.dev.get (F.IN_FILT_FILT 2) * 8 ≤ v22_7.dev.raw) ∧ v22_7.dev.tim 2 = { cand := some cnd, stamps := List.replicate 1024 [] } ∧ v22_7.dev.get (F.IN_CFG_ROLE 2) = 0 ∧ v22_7.dev.get (F.MEAS_CFG_MODE 2) = 0 ∧ 2 ^ v22_7.dev.get (F.IN_CFG_DIVIDE 2) ≤ 0 + 1) ∧
    (v22_23.Safe ∧ v22_23.Shaped ∧ (((((100200 + 1) * 65536 : Nat) : Int) - (tapPos none 7 : Int)).toNat = (if v22_5.dev.coarse = true then ticks16 (v22_5.dev.raw / 80 * 80) else (((v22_5.dev.raw + 1) * 65536 : Nat) - (tapPos ([none, none].getD (v22_5.dev.get (F.IN_STATUS_LINE 2)) none) 7 : Int) - toSigned 32 (v22_5.dev.get (F.IN_COMP_COMP 2))).toNat)) ∧ (∀ (l : Nat), none = some l → l + 8 * 65536 ≤ if v22_23.dev.coarse = true then ticks16 (v22_23.dev.raw / 80 * 80) else (↑((v22_23.dev.raw + 1) * 65536) - ↑(tapPos ([none, none].getD (v22_23.dev.get (F.IN_STATUS_LINE 2)) none) 7) - toSigned 32 (v22_23.dev.get (F.IN_COMP_COMP 2))).toNat) ∧ v22_23.dev.tim 2 = { } ∧ v22_23.dev.get (F.IN_CTRL_STATE 2) = 0 ∧ v22_23.dev.get (F.IN_CFG_EDGE 2) = 2 ∧ v22_23.dev.get (F.IN_FILT_FILT 2) = 0 ∧ 0 + 1 < 2 ^ v22_23.dev.get (F.IN_CFG_DIVIDE 2)) ∧
    (v22_8.Safe ∧ v22_8.Shaped ∧ v22_8.dev.tim 2 = { cand := some cnd0 } ∧ cnd0.run = none ∧ cnd0.edge + v22_8.dev.get (F.IN_FILT_BOUNCE 2) * usTicks < v22_8.dev.raw) :=
  ⟨⟨State.safe_of (by decide +kernel), State.shaped_of (by decide +kernel), by decide +kernel⟩,
    ⟨State.safe_of (by decide +kernel), State.shaped_of (by decide +kernel), by decide +kernel⟩,
    ⟨State.safe_of (by decide +kernel), State.shaped_of (by decide +kernel), by decide +kernel⟩,
    ⟨State.safe_of (by decide +kernel), State.shaped_of (by decide +kernel), all_some (by decide +kernel), by decide +kernel⟩,
    ⟨State.safe_of (by decide +kernel), State.shaped_of (by decide +kernel), by decide +kernel, all_some (by decide +kernel), by decide +kernel⟩,
    ⟨State.safe_of (by decide +kernel), State.shaped_of (by decide +kernel), ⟨cnd, 100000, rfl, by decide +kernel⟩, by decide +kernel⟩,
    ⟨State.safe_of (by decide +kernel), State.shaped_of (by decide +kernel), ⟨cnd, 100000, rfl, by decide +kernel⟩, by decide +kernel⟩,
    ⟨State.safe_of (by decide +kernel), State.shaped_of (by decide +kernel), by decide +kernel, all_some (by decide +kernel), by decide +kernel⟩,
    ⟨State.safe_of (by decide +kernel), State.shaped_of (by decide +kernel), by decide +kernel⟩⟩

theorem witness_LinesCalibratedAndSwapped :
    (v22_24.Safe ∧ v22_24.Shaped ∧ v22_24.dev.tim 2 = { } ∧ v22_24.dev.coarse = true) ∧
    (v22_9.Safe ∧ v22_9.Shaped ∧ v22_9.dev.tim 2 = { } ∧ (List.replicate 512 0).length = 512 ∧ v22_9.dev.coarse = false ∧ (List.filter (fun (x : Nat) => decide (x ≠ 0)) (List.replicate 512 0)).length < 448) ∧
    (v22_9.Safe ∧ v22_9.Shaped ∧ v22_9.dev.tim 2 = { } ∧ hitsGood.length = 512 ∧ v22_9.dev.coarse = false ∧ 448 ≤ (List.filter (fun (x : Nat) => decide (x ≠ 0)) hitsGood).length ∧ (∀ (h : Nat), h ∈ hitsGood → h * 1250000 ≤ 10000 * 2 ^ 20)) ∧
    (v22_10.Safe ∧ v22_10.Shaped ∧ v22_10.dev.tim 2 = { goodLines := 1 } ∧ hitsGood.length = 512 ∧ v22_10.dev.coarse = false ∧ 448 ≤ (List.filter (fun (x : Nat) => decide (x ≠ 0)) hitsGood).length ∧ (∀ (h : Nat), h ∈ hitsGood → h * 1250000 ≤ 10000 * 2 ^ 20)) ∧
    (v22_11.Safe ∧ v22_11.Shaped ∧ v22_11.dev.tim 2 = { swapReady := true } ∧ v22_11.dev.coarse = false) ∧
    (v22_9.Safe ∧ v22_9.Shaped ∧ v22_9.dev.tim 2 = { }) ∧
    (v22_9.Safe ∧ v22_9.Shaped ∧ v22_9.dev.tim 2 = { } ∧ 300 < hitsGood.length ∧ List.foldl (fun (x1 x2 : Nat) => x1 + x2) 0 hitsGood = 2 ^ 20) :=
  ⟨⟨State.safe_of (by decide +kernel), State.shaped_of (by decide +kernel), by decide +kernel⟩,
    ⟨State.safe_of (by decide +kernel), State.shaped_of (by decide +kernel), by decide +kernel⟩,
    ⟨State.safe_of (by decide +kernel), State.shaped_of (by decide +kernel), by decide +kernel⟩,
    ⟨State.safe_of (by decide +kernel), State.shaped_of (by decide +kernel), by decide +kernel⟩,
    ⟨State.safe_of (by decide +kernel), State.shaped_of (by decide +kernel), by decide +kernel⟩,
    ⟨State.safe_of (by decide +kernel), State.shaped_of (by decide +kernel), by decide +kernel⟩,
    ⟨State.safe_of (by decide +kernel), State.shaped_of (by decide +kernel), by decide +kernel⟩⟩

theorem witness_MeasurementsArmedGatedAndTimed :
    (v22_12.Safe ∧ v22_12.Shaped ∧ v22_12.dev.tim 2 = { } ∧ v22_12.dev.loaded = true) ∧
    (v22_13.Safe ∧ v22_13.Shaped ∧ v22_13.dev.tim 2 = { } ∧ v22_13.dev.loaded = true) ∧
    (v22_14.Safe ∧ v22_14.Shaped ∧ v22_14.dev.tim 2 = mIn ∧ mIn.nextOpen = some 100000 ∧ 100000 ≤ v22_14.dev.raw) ∧
    (v22_15.Safe ∧ v22_15.Shaped ∧ (∀ (o : Nat), mGate.nextOpen = some o → v22_15.dev.raw < o) ∧ v22_15.dev.tim 2 = mGate) ∧
    (v22_16.Safe ∧ v22_16.Shaped ∧ v22_16.dev.tim 2 = { } ∧ v22_16.dev.loaded = true) ∧
    (v22_15.Safe ∧ v22_15.Shaped ∧ v22_15.dev.tim 2 = mGate ∧ v22_15.dev.loaded = true ∧ mGate.gates ≠ []) ∧
    (v22_15.Safe ∧ v22_15.Shaped ∧ v22_15.dev.tim 2 = mGate ∧ v22_15.dev.loaded = true) ∧
    (v22_17.Safe ∧ v22_17.Shaped ∧ v22_17.dev.tim 2 = mGate ∧ mGate.start = some { stamp := 7, since := 100, t18 := 0, rec' := [] } ∧ 100 + max 1 (v22_17.dev.get (F.MEAS_TIMEOUT_US 2)) * usTicks ≤ v22_17.dev.raw) :=
  ⟨⟨State.safe_of (by decide +kernel), State.shaped_of (by decide +kernel), by decide +kernel⟩,
    ⟨State.safe_of (by decide +kernel), State.shaped_of (by decide +kernel), by decide +kernel⟩,
    ⟨State.safe_of (by decide +kernel), State.shaped_of (by decide +kernel), by decide +kernel⟩,
    ⟨State.safe_of (by decide +kernel), State.shaped_of (by decide +kernel), all_some (by decide +kernel), by decide +kernel⟩,
    ⟨State.safe_of (by decide +kernel), State.shaped_of (by decide +kernel), by decide +kernel⟩,
    ⟨State.safe_of (by decide +kernel), State.shaped_of (by decide +kernel), by decide +kernel⟩,
    ⟨State.safe_of (by decide +kernel), State.shaped_of (by decide +kernel), by decide +kernel⟩,
    ⟨State.safe_of (by decide +kernel), State.shaped_of (by decide +kernel), by decide +kernel⟩⟩

theorem witness_ResultsRecorded :
    (wHoldStop.Safe ∧ wHoldStop.Shaped ∧ (∀ (h : Nat × Nat), mHold.stop = some h → wHoldStop.dev.raw ≤ h.fst ∨ mHold.start = none) ∧ wHoldStop.dev.tim 2 = mHold ∧ mHold.cand = some cnd ∧ cnd.run = some 100000 ∧ 100000 ≤ cnd.edge + wHoldStop.dev.get (F.IN_FILT_BOUNCE 2) * usTicks ∧ 100000 + wHoldStop.dev.get (F.IN_FILT_FILT 2) * 8 ≤ wHoldStop.dev.raw ∧ wHoldStop.dev.get (F.IN_CFG_ROLE 2) = 0 ∧ wHoldStop.dev.get (F.MEAS_CFG_MODE 2) = 1 ∧ 2 ^ wHoldStop.dev.get (F.IN_CFG_DIVIDE 2) ≤ mHold.divCount + 1 ∧ wHoldStop.dev.flag (F.MEAS_STATUS_ARMED 2) = true ∧ wHoldStop.dev.get (F.MEAS_CFG_START_SEL 2) ≠ 2) ∧
    (wInt.Safe ∧ wInt.Shaped ∧ (∃ y r at' st s0 dt, Instr.candidateAccept 2 none = .candidateAccept 2 none ∧ mInt.cand = some y ∧ y.run = some r ∧
      r ≤ y.edge + wInt.dev.get (F.IN_FILT_BOUNCE 2) * usTicks ∧ r + wInt.dev.get (F.IN_FILT_FILT 2) * 8 ≤ wInt.dev.raw ∧
      wInt.dev.get (F.IN_CFG_ROLE 2) = 0 ∧ wInt.dev.get (F.MEAS_CFG_MODE 2) = 1 ∧
      2 ^ wInt.dev.get (F.IN_CFG_DIVIDE 2) ≤ mInt.divCount + 1 ∧ wInt.dev.flag (F.MEAS_STATUS_ARMED 2) = true ∧
      wInt.dev.get (F.MEAS_CFG_START_SEL 2) ≠ 2 ∧ mInt.stop = some (at', st) ∧ at' < wInt.dev.raw ∧ mInt.start = some s0 ∧
      s0.rec'.length = 16 ∧ dt = wInt.dev.refTime18 (wInt.dev.get (F.MEAS_CFG_REF 2)) st - s0.t18) ∧ wInt.dev.tim 2 = mInt) ∧
    (v22_18.Safe ∧ v22_18.Shaped ∧ (∃ (g : Gate), ∃ (rest : List Gate), ∃ (cl : Nat), Instr.gateResult 2 = Instr.gateResult 2 ∧ [gDone] = g :: rest ∧ g.closed = some cl ∧ cl ≤ ticks16 v22_18.dev.raw ∧ (∀ (y : Candidate), none = some y → cl ≤ y.stamp) ∧ (fun (b : List Byte) => b[16]? = some 2 ∧ v22_18.dev.get (F.MEAS_CFG_MODE 2) = 2 ∧ 16 ≤ gDone.n + gDone.tail.length ∨ b[16]? = some 3 ∧ (BitVec.getLsbD (b.getD 17 0) 4 = true ↔ gDone.n + gDone.tail.length < 2)) = fun (b : List Byte) => b[16]? = some 2 ∧ v22_18.dev.get (F.MEAS_CFG_MODE 2) = 2 ∧ 16 ≤ g.n + g.tail.length ∨ b[16]? = some 3 ∧ (BitVec.getLsbD (b.getD 17 0) 4 = true ↔ g.n + g.tail.length < 2)) ∧ v22_18.dev.tim 2 = { gates := [gDone] }) ∧
    (v22_19.Safe ∧ v22_19.Shaped ∧ (∃ (g : Gate), ∃ (rest : List Gate), ∃ (cl : Nat), Instr.gateResult 2 = Instr.gateResult 2 ∧ [gDone2] = g :: rest ∧ g.closed = some cl ∧ cl ≤ ticks16 v22_19.dev.raw ∧ (∀ (y : Candidate), none = some y → cl ≤ y.stamp) ∧ (fun (b : List Byte) => b[16]? = some 2 ∧ v22_19.dev.get (F.MEAS_CFG_MODE 2) = 2 ∧ 16 ≤ gDone2.n + gDone2.tail.length ∨ b[16]? = some 3 ∧ (BitVec.getLsbD (b.getD 17 0) 4 = true ↔ gDone2.n + gDone2.tail.length < 2)) = fun (b : List Byte) => b[16]? = some 2 ∧ v22_19.dev.get (F.MEAS_CFG_MODE 2) = 2 ∧ 16 ≤ g.n + g.tail.length ∨ b[16]? = some 3 ∧ (BitVec.getLsbD (b.getD 17 0) 4 = true ↔ g.n + g.tail.length < 2)) ∧ v22_19.dev.tim 2 = { gates := [gDone2] }) ∧
    (v22_20.Safe ∧ v22_20.Shaped ∧ (∃ (g : Gate), ∃ (rest : List Gate), ∃ (cl : Nat), Instr.gateResult 2 = Instr.gateResult 2 ∧ [gDone2] = g :: rest ∧ g.closed = some cl ∧ cl ≤ ticks16 v22_20.dev.raw ∧ (∀ (y : Candidate), none = some y → cl ≤ y.stamp) ∧ (fun (b : List Byte) => b[16]? = some 2 ∧ v22_20.dev.get (F.MEAS_CFG_MODE 2) = 2 ∧ 16 ≤ gDone2.n + gDone2.tail.length ∨ b[16]? = some 3 ∧ (BitVec.getLsbD (b.getD 17 0) 4 = true ↔ gDone2.n + gDone2.tail.length < 2)) = fun (b : List Byte) => b[16]? = some 2 ∧ v22_20.dev.get (F.MEAS_CFG_MODE 2) = 2 ∧ 16 ≤ g.n + g.tail.length ∨ b[16]? = some 3 ∧ (BitVec.getLsbD (b.getD 17 0) 4 = true ↔ g.n + g.tail.length < 2)) ∧ v22_20.dev.tim 2 = { results := List.replicate 16 [], gates := [gDone2] }) ∧
    (v22_21.Safe ∧ v22_21.Shaped ∧ v22_21.dev.tim 2 = { gates := [gDone2] } ∧ v22_21.dev.get (F.IN_CTRL_STATE 2) = 1) ∧
    (v22_22.Safe ∧ v22_22.Shaped ∧ v22_22.dev.tim 2 = { lastStamp := some 5 } ∧ v22_22.dev.get (F.IN_CTRL_STATE 2) = 3 ∧ 0 ≠ 3 ∧ v22_22.dev.coarse = false) ∧
    (v22_25.Safe ∧ v22_25.Shaped ∧ v22_25.dev.tim 2 = { lastStamp := some 5, goodLines := 3 } ∧ v22_25.dev.get (F.IN_CTRL_STATE 2) = 3) :=
  ⟨⟨State.safe_of (by decide +kernel), State.shaped_of (by decide +kernel), all_some (by decide +kernel), by decide +kernel⟩,
    ⟨State.safe_of (by decide +kernel), State.shaped_of (by decide +kernel), ⟨cnd, 100000, 99500, 4500, iStart, _, rfl, rfl, rfl, by decide +kernel, by decide +kernel, by decide +kernel, by decide +kernel, by decide +kernel, by decide +kernel, by decide +kernel, rfl, by decide +kernel, rfl, rfl, rfl⟩, by decide +kernel⟩,
    ⟨State.safe_of (by decide +kernel), State.shaped_of (by decide +kernel), ⟨gDone, [], _, rfl, rfl, rfl, by decide +kernel, by simp, rfl⟩, by decide +kernel⟩,
    ⟨State.safe_of (by decide +kernel), State.shaped_of (by decide +kernel), ⟨gDone2, [], _, rfl, rfl, rfl, by decide +kernel, by simp, rfl⟩, by decide +kernel⟩,
    ⟨State.safe_of (by decide +kernel), State.shaped_of (by decide +kernel), ⟨gDone2, [], _, rfl, rfl, rfl, by decide +kernel, by simp, rfl⟩, by decide +kernel⟩,
    ⟨State.safe_of (by decide +kernel), State.shaped_of (by decide +kernel), by decide +kernel⟩,
    ⟨State.safe_of (by decide +kernel), State.shaped_of (by decide +kernel), by decide +kernel⟩,
    ⟨State.safe_of (by decide +kernel), State.shaped_of (by decide +kernel), by decide +kernel⟩⟩

theorem witness_BandsAgcAndJamming :
    (v24_1.Safe ∧ v24_1.Shaped ∧ 0 ≠ 1) ∧
    (v24_1.Safe ∧ v24_1.Shaped ∧ 1 ≠ 0) ∧
    (v24_1.Safe ∧ v24_1.Shaped ∧ 1 ≠ 0 ∧ 77 < 2 ^ 16 ∧ v24_1.dev.flag (bandUpF 0) = false) ∧
    (v24_2.Safe ∧ v24_2.Shaped ∧ 1 ≠ 0 ∧ 77 < 2 ^ 16 ∧ v24_2.dev.flag (bandUpF 0) = true ∧ v24_2.dev.get F.GN_CTRL_STATE ≠ 2) ∧
    (v24_3.Safe ∧ v24_3.Shaped ∧ 1 ≠ 0 ∧ 777 < 2 ^ 16 ∧ v24_3.dev.flag (bandUpF 0) = true ∧ v24_3.dev.get F.GN_CTRL_STATE ≠ 2) ∧
    (v24_4.Safe ∧ v24_4.Shaped ∧ 1 ≠ 0 ∧ v24_4.dev.loaded = true) ∧
    (v24_5.Safe ∧ v24_5.Shaped ∧ 1 ≠ 0 ∧ v24_5.dev.flag (bandUpF 0) = true ∧ v24_5.dev.get F.GN_CTRL_STATE ≠ 2 ∧ v24_5.dev.get (F.NOTCH_CFG_THR 0) < 100 ∧ List.find? (fun (l : Nat × Nat) => decide (l.fst = 4)) (v24_5.dev.gnBand 0).lines = some (4, 9) ∧ 9 ≤ 9 ∧ (v24_5.dev.gnBand 0).notch = [none, none, none, none] ∧ bit (v24_5.dev.get (F.NOTCH_CFG_ENABLE 0)) 0 = true) ∧
    (v24_6.Safe ∧ v24_6.Shaped ∧ 1 ≠ 0 ∧ v24_6.dev.flag (bandUpF 0) = true ∧ v24_6.dev.get F.GN_CTRL_STATE ≠ 2 ∧ (v24_6.dev.gnBand 0).notch.length = 4 ∧ (v24_6.dev.gnBand 0).notch.getD (0) none = some (4, 99) ∧ 5 ≤ 4 + 1 ∧ 4 ≤ 5 + 1 ∧ v24_6.dev.get (F.NOTCH_CFG_THR 0) ≤ 60 + 12 ∧ bit (v24_6.dev.get (F.NOTCH_CFG_ENABLE 0)) 0 = true) ∧
    (v24_6.Safe ∧ v24_6.Shaped ∧ 1 ≠ 0 ∧ v24_6.dev.flag (bandUpF 0) = true ∧ v24_6.dev.get F.GN_CTRL_STATE ≠ 2 ∧ (v24_6.dev.gnBand 0).notch.length = 4 ∧ (v24_6.dev.gnBand 0).notch.getD (0) none = some (4, 99) ∧ 12 < v24_6.dev.get (F.NOTCH_CFG_THR 0)) ∧
    (v24_6.Safe ∧ v24_6.Shaped ∧ 1 ≠ 0 ∧ v24_6.dev.flag (bandUpF 0) = true ∧ v24_6.dev.get F.GN_CTRL_STATE ≠ 2 ∧ (v24_6.dev.gnBand 0).notch.length = 4 ∧ (v24_6.dev.gnBand 0).notch.getD (1) none = some (9, 5) ∧ 12 < v24_6.dev.get (F.NOTCH_CFG_THR 0)) :=
  ⟨⟨State.safe_of (by decide +kernel), State.shaped_of (by decide +kernel), by decide +kernel⟩,
    ⟨State.safe_of (by decide +kernel), State.shaped_of (by decide +kernel), by decide +kernel⟩,
    ⟨State.safe_of (by decide +kernel), State.shaped_of (by decide +kernel), by decide +kernel⟩,
    ⟨State.safe_of (by decide +kernel), State.shaped_of (by decide +kernel), by decide +kernel⟩,
    ⟨State.safe_of (by decide +kernel), State.shaped_of (by decide +kernel), by decide +kernel⟩,
    ⟨State.safe_of (by decide +kernel), State.shaped_of (by decide +kernel), by decide +kernel⟩,
    ⟨State.safe_of (by decide +kernel), State.shaped_of (by decide +kernel), by decide +kernel⟩,
    ⟨State.safe_of (by decide +kernel), State.shaped_of (by decide +kernel), by decide +kernel⟩,
    ⟨State.safe_of (by decide +kernel), State.shaped_of (by decide +kernel), by decide +kernel⟩,
    ⟨State.safe_of (by decide +kernel), State.shaped_of (by decide +kernel), by decide +kernel⟩⟩

theorem witness_ChannelsSearchedAndTracked :
    (v24_8.Safe ∧ v24_8.Shaped ∧ (decide (v24_8.dev.get F.GN_CTRL_STATE = 0) && v24_8.dev.flag (bandUpF (0 / 3)) && bit (v24_8.dev.get F.GN_CTRL_BANDS) (0 / 3) && bit (v24_8.dev.get F.GN_CTRL_CONST) (0 % 3)) = true ∧ (false = false → 0 = 0) ∧ (false = true → v24_8.dev.flag F.HOT_STATUS_VALID = true ∨ ∃ (d : Fin 96), (v24_8.dev.chan ↑d).state = 2) ∧ 120 ≤ 130 ∧ (∀ (d : Fin 96), (v24_8.dev.chan ↑d).signal = 0 → (v24_8.dev.chan ↑d).sv = 9 → ¬(v24_8.dev.chan ↑d).state ∈ [1, 2]) ∧ (v24_8.dev.chan 0).state = 0 ∧ (∀ (d : Fin 96), d < 0 → (v24_8.dev.chan ↑d).state ≠ 0) ∧ (∀ (d : Fin 96), (v24_8.dev.chan ↑d).signal = 0 → (v24_8.dev.chan ↑d).sv = 9 → (v24_8.dev.chan ↑d).state ≠ 3)) ∧
    (v24_8.Safe ∧ v24_8.Shaped ∧ (decide (v24_8.dev.get F.GN_CTRL_STATE = 0) && v24_8.dev.flag (bandUpF (4 / 3)) && bit (v24_8.dev.get F.GN_CTRL_BANDS) (4 / 3) && bit (v24_8.dev.get F.GN_CTRL_CONST) (4 % 3)) = true ∧ (true = false → 4 = 0) ∧ (true = true → v24_8.dev.flag F.HOT_STATUS_VALID = true ∨ ∃ (d : Fin 96), (v24_8.dev.chan ↑d).state = 2) ∧ 120 ≤ 130 ∧ (∀ (d : Fin 96), (v24_8.dev.chan ↑d).signal = 4 → (v24_8.dev.chan ↑d).sv = 9 → ¬(v24_8.dev.chan ↑d).state ∈ [1, 2]) ∧ (v24_8.dev.chan 0).state = 0 ∧ (∀ (d : Fin 96), d < 0 → (v24_8.dev.chan ↑d).state ≠ 0) ∧ (∀ (d : Fin 96), (v24_8.dev.chan ↑d).signal = 4 → (v24_8.dev.chan ↑d).sv = 9 → (v24_8.dev.chan ↑d).state ≠ 3)) ∧
    (v24_30.Safe ∧ v24_30.Shaped ∧ (decide (v24_30.dev.get F.GN_CTRL_STATE = 0) && v24_30.dev.flag (bandUpF (4 / 3)) && bit (v24_30.dev.get F.GN_CTRL_BANDS) (4 / 3) && bit (v24_30.dev.get F.GN_CTRL_CONST) (4 % 3)) = true ∧ (true = false → 4 = 0) ∧ (true = true → v24_30.dev.flag F.HOT_STATUS_VALID = true ∨ ∃ (d : Fin 96), (v24_30.dev.chan ↑d).state = 2) ∧ 120 ≤ 130 ∧ (∀ (d : Fin 96), (v24_30.dev.chan ↑d).signal = 4 → (v24_30.dev.chan ↑d).sv = 9 → ¬(v24_30.dev.chan ↑d).state ∈ [1, 2]) ∧ (v24_30.dev.chan 7).state = 3 ∧ (v24_30.dev.chan 7).signal = 4 ∧ (v24_30.dev.chan 7).sv = 9 ∧ (∀ (d : Fin 96), d < 7 → (v24_30.dev.chan ↑d).signal = 4 → (v24_30.dev.chan ↑d).sv = 9 → (v24_30.dev.chan ↑d).state ≠ 3)) ∧
    (v24_8.Safe ∧ v24_8.Shaped ∧ 4 ≠ 0) ∧
    (v24_1.Safe ∧ v24_1.Shaped ∧ (decide (v24_1.dev.get F.GN_CTRL_STATE = 0) && v24_1.dev.flag (bandUpF (4 / 3)) && bit (v24_1.dev.get F.GN_CTRL_BANDS) (4 / 3) && bit (v24_1.dev.get F.GN_CTRL_CONST) (4 % 3)) = false) ∧
    (v24_31.Safe ∧ v24_31.Shaped ∧ v24_31.dev.get F.GN_CTRL_STATE = 0 ∧ v24_31.dev.flag (bandUpF 0) = true ∧ bit (v24_31.dev.get F.GN_CTRL_BANDS) 0 = true ∧ bit (v24_31.dev.get F.GN_CTRL_CONST) 0 = true ∧ 8 ≠ 9 ∧ 120 ≤ 130 ∧ 120 ≤ 140 ∧ 3 < 5 ∧ (v24_31.dev.chan 1).state = 0 ∧ (∀ (d : Fin 96), d ≠ 1 → (v24_31.dev.chan ↑d).state = 2 ∧ (v24_31.dev.chan ↑d).sv ≠ 8 ∧ (v24_31.dev.chan ↑d).sv ≠ 9)) ∧
    (v24_9.Safe ∧ v24_9.Shaped ∧ (v24_9.dev.chan 3).state = 1 ∧ (v24_9.dev.chan 3).signal < 6) ∧
    (v24_1.Safe ∧ v24_1.Shaped ∧ (v24_1.dev.chan 3).state = 2) ∧
    (v24_32.Safe ∧ v24_32.Shaped ∧ (v24_32.dev.chan 3).state = 2 ∧ (∃ (since : Nat), (v24_32.dev.chan 3).lowSince = some since ∧ since + 800000000 ≤ v24_32.dev.raw)) ∧
    (v24_1.Safe ∧ v24_1.Shaped ∧ (¬∃ (since : Nat), (v24_1.dev.chan 3).lowSince = some since ∧ since + 800000000 ≤ v24_1.dev.raw)) ∧
    (v24_33.Safe ∧ v24_33.Shaped ∧ (∀ (e : Nat × Nat), v24_33.dev.gn.epochEdge = some e → e.fst = 0 → 81841000 = e.snd + 81840000) ∧ (v24_33.dev.chan 3).state = 2 ∧ v24_33.dev.get F.GN_CTRL_STATE ≠ 2 ∧ v24_33.dev.flag (bandUpF 0) = true ∧ v24_33.dev.gn.utcSeen = [] ∧ v24_33.dev.ts.leaps = [] ∧ 4 ≠ 6) ∧
    (v24_34.Safe ∧ v24_34.Shaped ∧ (∀ (e : Nat × Nat), v24_34.dev.gn.epochEdge = some e → e.fst = 0 → 81841000 = e.snd + 81840000) ∧ (v24_34.dev.chan 3).state = 2 ∧ v24_34.dev.get F.GN_CTRL_STATE ≠ 2 ∧ v24_34.dev.flag (bandUpF 0) = true ∧ v24_34.dev.gn.utcSeen = [] ∧ v24_34.dev.ts.leaps = [] ∧ 4 ≠ 6) :=
  ⟨⟨State.safe_of (by decide +kernel), State.shaped_of (by decide +kernel), by decide +kernel⟩,
    ⟨State.safe_of (by decide +kernel), State.shaped_of (by decide +kernel), by decide +kernel⟩,
    ⟨State.safe_of (by decide +kernel), State.shaped_of (by decide +kernel), by decide +kernel⟩,
    ⟨State.safe_of (by decide +kernel), State.shaped_of (by decide +kernel), by decide +kernel⟩,
    ⟨State.safe_of (by decide +kernel), State.shaped_of (by decide +kernel), by decide +kernel⟩,
    ⟨State.safe_of (by decide +kernel), State.shaped_of (by decide +kernel), by decide +kernel⟩,
    ⟨State.safe_of (by decide +kernel), State.shaped_of (by decide +kernel), by decide +kernel⟩,
    ⟨State.safe_of (by decide +kernel), State.shaped_of (by decide +kernel), by decide +kernel⟩,
    ⟨State.safe_of (by decide +kernel), State.shaped_of (by decide +kernel), by decide +kernel⟩,
    ⟨State.safe_of (by decide +kernel), State.shaped_of (by decide +kernel), by decide +kernel⟩,
    ⟨State.safe_of (by decide +kernel), State.shaped_of (by decide +kernel), all_some (by decide +kernel), by decide +kernel⟩,
    ⟨State.safe_of (by decide +kernel), State.shaped_of (by decide +kernel), all_some (by decide +kernel), by decide +kernel⟩⟩

theorem witness_SolutionsPublishedAndSuspected :
    (v24_10.Safe ∧ v24_10.Shaped ∧ v24_10.dev.gn.epoch = some 6553600001 ∧ v24_10.dev.get F.GN_CTRL_STATE = 0 ∧ v24_10.dev.coarse = false ∧ v24_10.dev.md.coresDown = none ∧ v24_10.dev.gnNeeds gSol.twoSystems ≤ gSol.nsat ∧ gSol.nsat < 256 ∧ 6553600001 < 2 ^ 80 ∧ cdiv (3 * gSol.sigmaPs) 1000 < 2 ^ 32) ∧
    (v24_35.Safe ∧ v24_35.Shaped ∧ v24_35.dev.gn.epoch = some 6553600001 ∧ v24_35.dev.get F.GN_CTRL_STATE = 0 ∧ v24_35.dev.coarse = false ∧ v24_35.dev.md.coresDown = none ∧ v24_35.dev.gnNeeds gSol1.twoSystems ≤ gSol1.nsat ∧ gSol1.nsat < 256 ∧ 6553600001 < 2 ^ 80 ∧ cdiv (3 * gSol1.sigmaPs) 1000 < 2 ^ 32) ∧
    (v24_36.Safe ∧ v24_36.Shaped ∧ v24_36.dev.gn.epoch = some 6553600001 ∧ v24_36.dev.get F.GN_CTRL_STATE = 0 ∧ v24_36.dev.coarse = false ∧ v24_36.dev.md.coresDown = none ∧ v24_36.dev.gnNeeds gSol2.twoSystems ≤ gSol2.nsat ∧ gSol2.nsat < 256 ∧ 6553600001 < 2 ^ 80 ∧ cdiv (3 * gSol2.sigmaPs) 1000 < 2 ^ 32) ∧
    (v24_10.Safe ∧ v24_10.Shaped ∧ v24_10.dev.gn.sol = none) ∧
    (v24_11.Safe ∧ v24_11.Shaped ∧ v24_11.dev.gn.sol.isSome = true ∧ v24_11.dev.flag F.GN_STATE_SHORT_HOLD = false) ∧
    (v24_12.Safe ∧ v24_12.Shaped ∧ v24_12.dev.flag F.GN_STATE_SUSPECT = false ∧ v24_12.dev.get F.GN_CHK_CFG_PERSIST ≠ 0 ∧ v24_12.dev.get F.GN_CHK_CFG_PERSIST ≤ v24_12.dev.gn.fails.getD (1) 0) ∧
    (v24_13.Safe ∧ v24_13.Shaped ∧ v24_13.dev.flag F.GN_STATE_SUSPECT = true ∧ v24_13.dev.get F.GN_CHK_CFG_CLEAR ≤ v24_13.dev.gn.passes) ∧
    (v24_13.Safe ∧ v24_13.Shaped ∧ v24_13.dev.flag F.GN_STATE_SUSPECT = true ∧ v24_13.dev.loaded = true) ∧
    (v24_14.Safe ∧ v24_14.Shaped ∧ v24_14.dev.gn.shortSince = some 5 ∧ 5 + v24_14.dev.get F.GN_HOLD_S * secTicks ≤ v24_14.dev.raw) ∧
    (v24_15.Safe ∧ v24_15.Shaped ∧ v24_15.dev.get F.GN_STATE_SOLN = 2 ∧ v24_15.dev.gn.surveySince = some 5 ∧ 5 + v24_15.dev.get F.GN_SURVEY_S * secTicks ≤ v24_15.dev.raw) ∧
    (v24_16.Safe ∧ v24_16.Shaped ∧ v24_16.dev.loaded = true ∧ v24_16.dev.get F.GN_STATE_SOLN = 3) ∧
    (v24_17.Safe ∧ v24_17.Shaped ∧ v24_17.dev.loaded = true ∧ v24_17.dev.get F.GN_STATE_SOLN ≠ 3) ∧
    (v24_16.Safe ∧ v24_16.Shaped ∧ v24_16.dev.loaded = true) :=
  ⟨⟨State.safe_of (by decide +kernel), State.shaped_of (by decide +kernel), by decide +kernel⟩,
    ⟨State.safe_of (by decide +kernel), State.shaped_of (by decide +kernel), by decide +kernel⟩,
    ⟨State.safe_of (by decide +kernel), State.shaped_of (by decide +kernel), by decide +kernel⟩,
    ⟨State.safe_of (by decide +kernel), State.shaped_of (by decide +kernel), by decide +kernel⟩,
    ⟨State.safe_of (by decide +kernel), State.shaped_of (by decide +kernel), by decide +kernel⟩,
    ⟨State.safe_of (by decide +kernel), State.shaped_of (by decide +kernel), by decide +kernel⟩,
    ⟨State.safe_of (by decide +kernel), State.shaped_of (by decide +kernel), by decide +kernel⟩,
    ⟨State.safe_of (by decide +kernel), State.shaped_of (by decide +kernel), by decide +kernel⟩,
    ⟨State.safe_of (by decide +kernel), State.shaped_of (by decide +kernel), by decide +kernel⟩,
    ⟨State.safe_of (by decide +kernel), State.shaped_of (by decide +kernel), by decide +kernel⟩,
    ⟨State.safe_of (by decide +kernel), State.shaped_of (by decide +kernel), by decide +kernel⟩,
    ⟨State.safe_of (by decide +kernel), State.shaped_of (by decide +kernel), by decide +kernel⟩,
    ⟨State.safe_of (by decide +kernel), State.shaped_of (by decide +kernel), by decide +kernel⟩⟩

theorem witness_GnssStartsSleepsAndSaves :
    (v24_18.Safe ∧ v24_18.Shaped ∧ v24_18.dev.get F.GN_CTRL_STATE = 1) ∧
    (v24_19.Safe ∧ v24_19.Shaped ∧ v24_19.dev.get F.GN_CTRL_STATE = 3) ∧
    (v24_20.Safe ∧ v24_20.Shaped ∧ v24_20.dev.get F.GN_CTRL_STATE = 3) ∧
    ((wDuty' true).Safe ∧ (wDuty' true).Shaped ∧ (wDuty' true).dev.flag F.GN_CTRL_ENABLE = true ∧ (wDuty' true).dev.mode = Mode.standby ∧ (wDuty' true).dev.flag F.GN_CTRL_STBY_DUTY = true ∧ (wDuty' true).dev.get F.GN_DUTY_PERIOD_S * 2500000 ≤ aonSince (wDuty' true).dev.ret.aon (wDuty' true).dev.gn.dutyAt) ∧
    (v24_37.Safe ∧ v24_37.Shaped ∧ v24_37.dev.flag F.GN_CTRL_ENABLE = true ∧ v24_37.dev.mode = Mode.standby ∧ v24_37.dev.flag F.GN_CTRL_STBY_DUTY = true ∧ aonSince v24_37.dev.ret.aon v24_37.dev.gn.dutyAt < v24_37.dev.get F.GN_DUTY_PERIOD_S * 2500000) ∧
    (v24_38.Safe ∧ v24_38.Shaped ∧ v24_38.dev.flag F.GN_CTRL_ENABLE = true ∧ v24_38.dev.mode = Mode.standby ∧ v24_38.dev.flag F.GN_CTRL_STBY_DUTY = true ∧ v24_38.dev.gn.asleep = false ∧ v24_38.dev.get F.GN_DUTY_ON_S * 2500000 ≤ aonSince v24_38.dev.ret.aon v24_38.dev.gn.dutyAt ∧ aonSince v24_38.dev.ret.aon v24_38.dev.gn.dutyAt < v24_38.dev.get F.GN_DUTY_PERIOD_S * 2500000) ∧
    (v24_39.Safe ∧ v24_39.Shaped ∧ v24_39.dev.flag F.GN_CTRL_ENABLE = true ∧ v24_39.dev.mode ≠ Mode.standby) ∧
    (v24_21.Safe ∧ v24_21.Shaped ∧ v24_21.dev.get F.GN_CTRL_STATE = 0 ∧ v24_21.dev.gn.sol.isSome = true ∧ v24_21.dev.gn.lastSave + 60 * secTicks ≤ v24_21.dev.raw) ∧
    (v24_21.Safe ∧ v24_21.Shaped ∧ v24_21.dev.loaded = true) :=
  ⟨⟨State.safe_of (by decide +kernel), State.shaped_of (by decide +kernel), by decide +kernel⟩,
    ⟨State.safe_of (by decide +kernel), State.shaped_of (by decide +kernel), by decide +kernel⟩,
    ⟨State.safe_of (by decide +kernel), State.shaped_of (by decide +kernel), by decide +kernel⟩,
    ⟨State.safe_of (by decide +kernel), State.shaped_of (by decide +kernel), by decide +kernel⟩,
    ⟨State.safe_of (by decide +kernel), State.shaped_of (by decide +kernel), by decide +kernel⟩,
    ⟨State.safe_of (by decide +kernel), State.shaped_of (by decide +kernel), by decide +kernel⟩,
    ⟨State.safe_of (by decide +kernel), State.shaped_of (by decide +kernel), by decide +kernel⟩,
    ⟨State.safe_of (by decide +kernel), State.shaped_of (by decide +kernel), by decide +kernel⟩,
    ⟨State.safe_of (by decide +kernel), State.shaped_of (by decide +kernel), by decide +kernel⟩⟩

theorem witness_PllsLockAndCoast :
    (v26_1.Safe ∧ v26_1.Shaped ∧ 0 < v26_1.dev.pllExpect 4 ∧ v26_1.dev.pllOn 4 = true ∧ (4 < 4 → v26_1.dev.flag F.OSC_STATUS_PRESENT = true)) ∧
    (v26_2.Safe ∧ v26_2.Shaped ∧ v26_2.dev.pllOn 9 = true ∧ (9 < 4 → v26_2.dev.flag F.OSC_STATUS_PRESENT = true) ∧ 0 < v26_2.dev.pllExpect 9) ∧
    (v26_3.Safe ∧ v26_3.Shaped ∧ v26_3.dev.pllOn 0 = true ∧ (0 < 4 → v26_3.dev.flag F.OSC_STATUS_PRESENT = true) ∧ 0 < v26_3.dev.pllExpect 0) ∧
    (v26_20.Safe ∧ v26_20.Shaped ∧ 1 < 4 ∧ v26_20.dev.flag F.OSC_STATUS_PRESENT = false) ∧
    (v26_4.Safe ∧ v26_4.Shaped ∧ (8 ≤ v26_4.dev.get { addr := if 5 < 4 then A.PLL_STATUS 5 else if 5 < 8 then A.DPLL_STATUS (5 - 4) 0 else A.DPLL_STATUS (5 - 8) 1, hi := 11, lo := 8 }) ∧ (v26_4.dev.flag { addr := if 5 < 4 then A.PLL_STATUS 5 else if 5 < 8 then A.DPLL_STATUS (5 - 4) 0 else A.DPLL_STATUS (5 - 8) 1, hi := 0, lo := 0 } = false)) ∧
    (v26_5.Safe ∧ v26_5.Shaped ∧ (8 ≤ v26_5.dev.get { addr := if 0 < 4 then A.PLL_STATUS 0 else if 0 < 8 then A.DPLL_STATUS (0 - 4) 0 else A.DPLL_STATUS (0 - 8) 1, hi := 11, lo := 8 }) ∧ (v26_5.dev.flag { addr := if 0 < 4 then A.PLL_STATUS 0 else if 0 < 8 then A.DPLL_STATUS (0 - 4) 0 else A.DPLL_STATUS (0 - 8) 1, hi := 0, lo := 0 } = false)) ∧
    (v26_6.Safe ∧ v26_6.Shaped ∧ (8 ≤ v26_6.dev.get { addr := if 0 < 4 then A.PLL_STATUS 0 else if 0 < 8 then A.DPLL_STATUS (0 - 4) 0 else A.DPLL_STATUS (0 - 8) 1, hi := 11, lo := 8 }) ∧ (v26_6.dev.flag { addr := if 0 < 4 then A.PLL_STATUS 0 else if 0 < 8 then A.DPLL_STATUS (0 - 4) 0 else A.DPLL_STATUS (0 - 8) 1, hi := 0, lo := 0 } = false)) ∧
    (wLocked.Safe ∧ wLocked.Shaped ∧ wLocked.dev.pllOn 0 = true ∧ (wLocked.dev.flag { addr := if 0 < 4 then A.PLL_STATUS 0 else if 0 < 8 then A.DPLL_STATUS (0 - 4) 0 else A.DPLL_STATUS (0 - 8) 1, hi := 0, lo := 0 } = true) ∧ 2 ≤ (wLocked.dev.pll 0).badWin) ∧
    (wLocked.Safe ∧ wLocked.Shaped ∧ wLocked.dev.pllOn 5 = true ∧ (wLocked.dev.flag { addr := if 5 < 4 then A.PLL_STATUS 5 else if 5 < 8 then A.DPLL_STATUS (5 - 4) 0 else A.DPLL_STATUS (5 - 8) 1, hi := 0, lo := 0 } = true) ∧ 2 ≤ (wLocked.dev.pll 5).badWin) ∧
    (wLocked.Safe ∧ wLocked.Shaped ∧ wLocked.dev.pllOn 9 = true ∧ (wLocked.dev.flag { addr := if 9 < 4 then A.PLL_STATUS 9 else if 9 < 8 then A.DPLL_STATUS (9 - 4) 0 else A.DPLL_STATUS (9 - 8) 1, hi := 0, lo := 0 } = true) ∧ 2 ≤ (wLocked.dev.pll 9).badWin) ∧
    (wLocked.Safe ∧ wLocked.Shaped ∧ wLocked.dev.pllOn 9 = true ∧ (wLocked.dev.flag { addr := if 9 < 4 then A.PLL_STATUS 9 else if 9 < 8 then A.DPLL_STATUS (9 - 4) 0 else A.DPLL_STATUS (9 - 8) 1, hi := 2, lo := 2 } = false)) ∧
    (wLocked.Safe ∧ wLocked.Shaped ∧ wLocked.dev.pllOn 0 = true ∧ (wLocked.dev.flag { addr := if 0 < 4 then A.PLL_STATUS 0 else if 0 < 8 then A.DPLL_STATUS (0 - 4) 0 else A.DPLL_STATUS (0 - 8) 1, hi := 2, lo := 2 } = false)) ∧
    (wLocked.Safe ∧ wLocked.Shaped ∧ wLocked.dev.pllOn 2 = true ∧ (wLocked.dev.flag { addr := if 2 < 4 then A.PLL_STATUS 2 else if 2 < 8 then A.DPLL_STATUS (2 - 4) 0 else A.DPLL_STATUS (2 - 8) 1, hi := 2, lo := 2 } = false)) :=
  ⟨⟨State.safe_of (by decide +kernel), State.shaped_of (by decide +kernel), by show (0 : Int) < ((30720 + v26_1.dev.spreadCounts 4 30720 16384 : Nat) : Int); omega, by decide +kernel⟩,
    ⟨State.safe_of (by decide +kernel), State.shaped_of (by decide +kernel), by decide +kernel⟩,
    ⟨State.safe_of (by decide +kernel), State.shaped_of (by decide +kernel), by decide +kernel⟩,
    ⟨State.safe_of (by decide +kernel), State.shaped_of (by decide +kernel), by decide +kernel⟩,
    ⟨State.safe_of (by decide +kernel), State.shaped_of (by decide +kernel), by decide +kernel⟩,
    ⟨State.safe_of (by decide +kernel), State.shaped_of (by decide +kernel), by decide +kernel⟩,
    ⟨State.safe_of (by decide +kernel), State.shaped_of (by decide +kernel), by decide +kernel⟩,
    ⟨State.safe_of (by decide +kernel), State.shaped_of (by decide +kernel), by decide +kernel⟩,
    ⟨State.safe_of (by decide +kernel), State.shaped_of (by decide +kernel), by decide +kernel⟩,
    ⟨State.safe_of (by decide +kernel), State.shaped_of (by decide +kernel), by decide +kernel⟩,
    ⟨State.safe_of (by decide +kernel), State.shaped_of (by decide +kernel), by decide +kernel⟩,
    ⟨State.safe_of (by decide +kernel), State.shaped_of (by decide +kernel), by decide +kernel⟩,
    ⟨State.safe_of (by decide +kernel), State.shaped_of (by decide +kernel), by decide +kernel⟩⟩

theorem witness_OscillatorAndFallback :
    (v26_7.Safe ∧ v26_7.Shaped ∧ v26_7.dev.flag F.OSC_STATUS_PRESENT = true) ∧
    (v26_8.Safe ∧ v26_8.Shaped ∧ v26_8.dev.flag F.OSC_STATUS_PRESENT = false ∧ v26_8.dev.flag F.OSC_STATUS_AON_RC = true) ∧
    (v26_9.Safe ∧ v26_9.Shaped ∧ v26_9.dev.cks.fracs[1]? = some { target := -70, start := -70 } ∧ v26_9.dev.fracAt (1) v26_9.dev.raw = -70) ∧
    (v26_10.Safe ∧ v26_10.Shaped ∧ v26_10.dev.pllOn (4 + 1) = true ∧ 500 < (-501).natAbs) ∧
    (v26_10.Safe ∧ v26_10.Shaped ∧ Int.natAbs 500 ≤ 500) ∧
    (v26_10.Safe ∧ v26_10.Shaped ∧ (-500).natAbs ≤ 500) ∧
    (v26_11.Safe ∧ v26_11.Shaped ∧ v26_11.dev.flag (F.DPLL_STATUS_FALLBACK (1) 0) = true ∧ v26_11.dev.get64 (A.ENG_FB_EPOCH 1) ≠ 0 ∧ v26_11.dev.get64 (A.ENG_FB_EPOCH 1) ≤ v26_11.dev.raw) :=
  ⟨⟨State.safe_of (by decide +kernel), State.shaped_of (by decide +kernel), by decide +kernel⟩,
    ⟨State.safe_of (by decide +kernel), State.shaped_of (by decide +kernel), by decide +kernel⟩,
    ⟨State.safe_of (by decide +kernel), State.shaped_of (by decide +kernel), by decide +kernel⟩,
    ⟨State.safe_of (by decide +kernel), State.shaped_of (by decide +kernel), by decide +kernel⟩,
    ⟨State.safe_of (by decide +kernel), State.shaped_of (by decide +kernel), by decide +kernel⟩,
    ⟨State.safe_of (by decide +kernel), State.shaped_of (by decide +kernel), by decide +kernel⟩,
    ⟨State.safe_of (by decide +kernel), State.shaped_of (by decide +kernel), by decide +kernel⟩⟩

theorem witness_OutputPllsMoveAndRealign :
    (v26_12.Safe ∧ v26_12.Shaped ∧ 0 ≠ 1 ∧ v26_12.dev.opll 1 = oMove ∧ oMove.queued = [(100, -30), (200, 4)] ∧ 100 ≤ v26_12.dev.raw) ∧
    (v26_13.Safe ∧ v26_13.Shaped ∧ ({ target := 10, ofs0 := 10 } : Opll).remainAt v26_13.dev.raw = 0 ∧ 0 ≠ 1 ∧ v26_13.dev.opll 1 = { target := 10, ofs0 := 10 } ∧ v26_13.dev.flag (F.OPLL_STATUS_MOVING 1) = true) ∧
    (v26_14.Safe ∧ v26_14.Shaped ∧ 0 ≠ 1 ∧ v26_14.dev.opll 1 = { target := 10, resumeFrom := 900 } ∧ v26_14.dev.flag (F.OPLL_STATUS_REALIGN_WAIT 1) = true ∧ v26_14.dev.codeSecond (v26_14.dev.get (F.OPLL_CFG_SCALE 1)) 900 ≤ v26_14.dev.raw) ∧
    (v26_21.Safe ∧ v26_21.Shaped ∧ 0 ≠ 1 ∧ v26_21.dev.opll 1 = { target := 10, resumeFrom := 900000000 } ∧ v26_21.dev.raw < v26_21.dev.codeSecond (v26_21.dev.get (F.OPLL_CFG_SCALE 1)) 900000000) :=
  ⟨⟨State.safe_of (by decide +kernel), State.shaped_of (by decide +kernel), by decide +kernel⟩,
    ⟨State.safe_of (by decide +kernel), State.shaped_of (by decide +kernel), by decide +kernel, by decide +kernel⟩,
    ⟨State.safe_of (by decide +kernel), State.shaped_of (by decide +kernel), by decide +kernel⟩,
    ⟨State.safe_of (by decide +kernel), State.shaped_of (by decide +kernel), by decide +kernel⟩⟩

theorem witness_OutputsSwitchAndSendIrig :
    (v26_15.Safe ∧ v26_15.Shaped ∧ (∀ (r : Nat), wDue v26_15 1 r ↔ v26_15.dev.codeSecond (v26_15.dev.get (F.OPLL_CFG_SCALE (v26_15.dev.get (F.OUT_CFG_SRC 1)))) r ≤ v26_15.dev.raw) ∧ v26_15.dev.tout 1 = { transFrom := 900 } ∧ wDue v26_15 1 900 ∧ v26_15.dev.get (F.OUT_CTRL_STATE 1) = 3) ∧
    (v26_16.Safe ∧ v26_16.Shaped ∧ (∀ (r : Nat), wDue v26_16 1 r ↔ v26_16.dev.codeSecond (v26_16.dev.get (F.OPLL_CFG_SCALE (v26_16.dev.get (F.OUT_CFG_SRC 1)))) r ≤ v26_16.dev.raw) ∧ v26_16.dev.tout 1 = { transFrom := 900 } ∧ wDue v26_16 1 900 ∧ v26_16.dev.get (F.OUT_CTRL_STATE 1) = 3) ∧
    (v26_17.Safe ∧ v26_17.Shaped ∧ (∀ (r : Nat), wDue v26_17 1 r ↔ v26_17.dev.codeSecond (v26_17.dev.get (F.OPLL_CFG_SCALE (v26_17.dev.get (F.OUT_CFG_SRC 1)))) r ≤ v26_17.dev.raw) ∧ v26_17.dev.tout 1 = { transFrom := 900 } ∧ (none = if bit (BitVec.toNat (v26_17.dev.reg (A.OUT_CFG 1))) 7 = true then none else some (bit (BitVec.toNat (v26_17.dev.reg (A.OUT_CFG 1))) 6)) ∧ wDue v26_17 1 900 ∧ v26_17.dev.get (F.OUT_CTRL_STATE 1) = 1) ∧
    (v26_17.Safe ∧ v26_17.Shaped ∧ (∀ (r : Nat), wDue v26_17 1 r ↔ v26_17.dev.codeSecond (v26_17.dev.get (F.OPLL_CFG_SCALE (v26_17.dev.get (F.OUT_CFG_SRC 1)))) r ≤ v26_17.dev.raw) ∧ v26_17.dev.tout 1 = { transFrom := 900 } ∧ wDue v26_17 1 900 ∧ v26_17.dev.get (F.OUT_CTRL_STATE 1) = 1) ∧
    (v26_22.Safe ∧ v26_22.Shaped ∧ (∀ (r : Nat), wDue v26_22 1 r ↔ v26_22.dev.codeSecond (v26_22.dev.get (F.OPLL_CFG_SCALE (v26_22.dev.get (F.OUT_CFG_SRC 1)))) r ≤ v26_22.dev.raw) ∧ v26_22.dev.tout 1 = { transFrom := 900000000 } ∧ ¬wDue v26_22 1 900000000) ∧
    (v26_18.Safe ∧ v26_18.Shaped ∧ (∀ (r : Nat), wDue v26_18 1 r ↔ v26_18.dev.codeSecond (v26_18.dev.get (F.OPLL_CFG_SCALE (v26_18.dev.get (F.OUT_CFG_SRC 1)))) r ≤ v26_18.dev.raw) ∧ v26_18.dev.tout 1 = { live := some [1], stagedFrom := 900 } ∧ (some [1]).isSome = true ∧ wDue v26_18 1 900) ∧
    (v26_23.Safe ∧ v26_23.Shaped ∧ (∀ (r : Nat), wDue v26_23 1 r ↔ v26_23.dev.codeSecond (v26_23.dev.get (F.OPLL_CFG_SCALE (v26_23.dev.get (F.OUT_CFG_SRC 1)))) r ≤ v26_23.dev.raw) ∧ v26_23.dev.tout 1 = { live := some [1], stagedFrom := 900000000 } ∧ ¬wDue v26_23 1 900000000) ∧
    (v26_19.Safe ∧ v26_19.Shaped ∧ (∀ (r : Nat), wDue v26_19 1 r ↔ v26_19.dev.codeSecond (v26_19.dev.get (F.OPLL_CFG_SCALE (v26_19.dev.get (F.OUT_CFG_SRC 1)))) r ≤ v26_19.dev.raw) ∧ (∀ (f : Int × List Nat), none = some f → f.fst ≠ v26_19.dev.outTime (1) v26_19.dev.raw false / sec72) ∧ v26_19.dev.tout 1 = { } ∧ v26_19.dev.get (F.OUT_CTRL_STATE 1) = 0 ∧ bits 1 0 ((v26_19.dev.outSettings (1) (v26_19.dev.outTime (1) v26_19.dev.raw false / sec72))[0]?.getD 0) = 3 ∧ v26_19.dev.outTime (1) v26_19.dev.raw false % sec72 < ↑(2 * v26_19.dev.tickStep * 65536 * v26_19.dev.incrOf (v26_19.dev.outCode 1)) ∧ v26_19.dev.flag (F.OPLL_STATUS_REALIGN_WAIT (v26_19.dev.get (F.OUT_CFG_SRC 1))) = false) :=
  ⟨⟨State.safe_of (by decide +kernel), State.shaped_of (by decide +kernel), fun _ => Iff.rfl, by decide +kernel⟩,
    ⟨State.safe_of (by decide +kernel), State.shaped_of (by decide +kernel), fun _ => Iff.rfl, by decide +kernel⟩,
    ⟨State.safe_of (by decide +kernel), State.shaped_of (by decide +kernel), fun _ => Iff.rfl, by decide +kernel⟩,
    ⟨State.safe_of (by decide +kernel), State.shaped_of (by decide +kernel), fun _ => Iff.rfl, by decide +kernel⟩,
    ⟨State.safe_of (by decide +kernel), State.shaped_of (by decide +kernel), fun _ => Iff.rfl, by decide +kernel⟩,
    ⟨State.safe_of (by decide +kernel), State.shaped_of (by decide +kernel), fun _ => Iff.rfl, by decide +kernel⟩,
    ⟨State.safe_of (by decide +kernel), State.shaped_of (by decide +kernel), fun _ => Iff.rfl, by decide +kernel⟩,
    ⟨State.safe_of (by decide +kernel), State.shaped_of (by decide +kernel), fun _ => Iff.rfl, all_some (by decide +kernel), by decide +kernel⟩⟩

theorem witness_LinksNegotiateLockRiseAndFall :
    (v30_1.Safe ∧ v30_1.Shaped ∧ v30_1.dev.lnk 1 2 = { } ∧ v30_1.dev.get (F.LINK_CTRL_STATE 1 2) = 0 ∧ v30_1.dev.flag (F.LINK_CFG_AN 1 2) = true) ∧
    (v30_2.Safe ∧ v30_2.Shaped ∧ v30_2.dev.lnk 1 2 = { } ∧ v30_2.dev.get (F.LINK_CTRL_STATE 1 2) = 0 ∧ 77 < 2 ^ 32) ∧
    (v30_1.Safe ∧ v30_1.Shaped ∧ v30_1.dev.lnk 1 2 = { } ∧ v30_1.dev.get (F.LINK_CTRL_STATE 1 2) = 0 ∧ 77 < 2 ^ 32) ∧
    (v30_3.Safe ∧ v30_3.Shaped ∧ v30_3.dev.lnk 1 2 = v30_4 ∧ v30_3.dev.linkReady 1 2 = true ∧ v30_3.dev.dieSt 1 ≠ 2) ∧
    (v30_5.Safe ∧ v30_5.Shaped ∧ v30_5.dev.lnk 1 2 = xUp ∧ v30_5.dev.linkFails 1 2 = true ∧ v30_5.dev.dieSt 1 ≠ 2 ∧ v30_5.dev.raw + msTicks < 2 ^ 64) ∧
    (v30_6.Safe ∧ v30_6.Shaped ∧ v30_6.dev.lnk 1 2 = xUp ∧ v30_6.dev.loaded = true ∧ v30_6.dev.get (F.LINK_CTRL_STATE 1 2) = 0) ∧
    (v30_7.Safe ∧ v30_7.Shaped ∧ v30_7.dev.lnk 1 2 = xUp ∧ v30_7.dev.get (F.LINK_CTRL_STATE 1 2) = 3) ∧
    (v30_8.Safe ∧ v30_8.Shaped ∧ v30_8.dev.lnk 1 2 = xUp ∧ v30_8.dev.get (F.LINK_CTRL_STATE 1 2) = 1 ∧ v30_8.dev.linkDrained 1 2 = true) ∧
    (v30_9.Safe ∧ v30_9.Shaped ∧ v30_9.dev.lnk 1 2 = xUp ∧ v30_9.dev.get (F.LINK_CTRL_STATE 1 2) = 1 ∧ v30_9.dev.linkDrained 1 2 = true) :=
  ⟨⟨State.safe_of (by decide +kernel), State.shaped_of (by decide +kernel), by decide +kernel⟩,
    ⟨State.safe_of (by decide +kernel), State.shaped_of (by decide +kernel), by decide +kernel⟩,
    ⟨State.safe_of (by decide +kernel), State.shaped_of (by decide +kernel), by decide +kernel⟩,
    ⟨State.safe_of (by decide +kernel), State.shaped_of (by decide +kernel), by decide +kernel⟩,
    ⟨State.safe_of (by decide +kernel), State.shaped_of (by decide +kernel), by decide +kernel⟩,
    ⟨State.safe_of (by decide +kernel), State.shaped_of (by decide +kernel), by decide +kernel⟩,
    ⟨State.safe_of (by decide +kernel), State.shaped_of (by decide +kernel), by decide +kernel⟩,
    ⟨State.safe_of (by decide +kernel), State.shaped_of (by decide +kernel), by decide +kernel⟩,
    ⟨State.safe_of (by decide +kernel), State.shaped_of (by decide +kernel), by decide +kernel⟩⟩

theorem witness_GridReanchoredTablesScrubbed :
    (v30_10.Safe ∧ v30_10.Shaped ∧ v30_10.dev.lnk 1 2 = { } ∧ v30_10.dev.flag (F.LINK_STATUS_LINK_UP 1 2) = true) ∧
    (v30_24.Safe ∧ v30_24.Shaped ∧ ({ reanchor := some 4000000, goodGrid := 15 } : Lnk).granuleNow (v30_24.dev.grid 1 2) v30_24.dev.raw < 4000000 ∧ v30_24.dev.lnk 1 2 = { reanchor := some 4000000, goodGrid := 15 } ∧ v30_24.dev.flag (F.LINK_STATUS_LINK_UP 1 2) = true) ∧
    (v30_11.Safe ∧ v30_11.Shaped ∧ v30_11.dev.lnk 1 2 = { } ∧ v30_11.dev.flag (F.LINK_STATUS_LINK_UP 1 2) = false) ∧
    (v30_12.Safe ∧ v30_12.Shaped ∧ v30_12.dev.lnk 1 2 = { goodGrid := 16 } ∧ 16 ≤ 16) ∧
    (v30_13.Safe ∧ v30_13.Shaped ∧ v30_13.dev.lnk 1 2 = xRe ∧ xRe.reanchor = some 5 ∧ 5 ≤ xRe.granuleNow (v30_13.dev.grid 1 2) v30_13.dev.raw) ∧
    (v30_14.Safe ∧ v30_14.Shaped ∧ v30_14.dev.lnk 1 2 = { calNew := true }) ∧
    (v30_15.Safe ∧ v30_15.Shaped ∧ v30_15.dev.lnk 1 2 = { }) ∧
    (wTab.Safe ∧ (∀ (a : Nat), wStale a ↔ ∃ (base : Nat), ∃ (size : Nat), ∃ (flags : Nat), ∃ (gen : Nat), (base, size, flags, gen) ∈ [(wTab.dev.get64 (A.CT_BASE 1 2), BitVec.toNat (wTab.dev.reg (A.CT_SIZE 1 2)) * 4096, 16, 18), (wTab.dev.get64 (A.ST_BASE 1 2), BitVec.toNat (wTab.dev.reg (A.ST_SIZE 1 2)) * 4096, 10, 60)] ∧ base ≤ a ∧ a < base + size ∧ (a - base) % 64 = flags ∧ BitVec.getLsbD (wTab.ledger.get a) 0 = true ∧ leNat (wTab.ledger.read (a - flags + gen) 2) ≠ (wTab.dev.lnk 1 2).gen)) :=
  ⟨⟨State.safe_of (by decide +kernel), State.shaped_of (by decide +kernel), by decide +kernel⟩,
    ⟨State.safe_of (by decide +kernel), State.shaped_of (by decide +kernel), by decide +kernel, by decide +kernel⟩,
    ⟨State.safe_of (by decide +kernel), State.shaped_of (by decide +kernel), by decide +kernel⟩,
    ⟨State.safe_of (by decide +kernel), State.shaped_of (by decide +kernel), by decide +kernel⟩,
    ⟨State.safe_of (by decide +kernel), State.shaped_of (by decide +kernel), by decide +kernel⟩,
    ⟨State.safe_of (by decide +kernel), State.shaped_of (by decide +kernel), by decide +kernel⟩,
    ⟨State.safe_of (by decide +kernel), State.shaped_of (by decide +kernel), by decide +kernel⟩,
    ⟨State.safe_of (by decide +kernel), fun _ => Iff.rfl⟩⟩

theorem witness_FramesLaunchedOrLate :
    (v30_16.Safe ∧ v30_16.Shaped ∧ v30_16.dev.lnk 1 2 = { commits := [cLaunch (Load.sched (zeros 46) false)] } ∧ List.find? (fun (k : Commit) => !k.gone && decide (k.lam < ticks16 (v30_16.dev.raw + 1))) [cLaunch (Load.sched (zeros 46) false)] = some (cLaunch (Load.sched (zeros 46) false)) ∧ List.find? (fun (k : Commit) => decide (k.start = (cLaunch (Load.sched (zeros 46) false)).start)) [cLaunch (Load.sched (zeros 46) false)] = some (cLaunch (Load.sched (zeros 46) false)) ∧ v30_16.dev.flag (F.LINK_STATUS_LINK_UP 1 2) = true ∧ v30_16.dev.get (F.LINK_TEST_PRBS 1 2) = 0 ∧ v30_16.dev.get (F.LINK_TEST_LOOP 1 2) ≤ 1 ∧ (∃ (pd : Bool), (cLaunch (Load.sched (zeros 46) false)).load = Load.sched (zeros 46) pd ∧ 280 = 280)) ∧
    (v30_17.Safe ∧ v30_17.Shaped ∧ (∃ f, v30_18.load = .hostFrame f ∧ f.bytes = zeros 60 ∧ 0x120 = 0x120) ∧ v30_17.dev.lnk 1 2 = { commits := [cLaunch (Load.hostFrame { ring := 0, descs := [0], bytes := zeros 60 })] } ∧ List.find? (fun (k : Commit) => !k.gone && decide (k.lam < ticks16 (v30_17.dev.raw + 1))) [cLaunch (Load.hostFrame { ring := 0, descs := [0], bytes := zeros 60 })] = some v30_18 ∧ List.find? (fun (k : Commit) => decide (k.start = v30_18.start)) [cLaunch (Load.hostFrame { ring := 0, descs := [0], bytes := zeros 60 })] = some v30_18 ∧ v30_17.dev.flag (F.LINK_STATUS_LINK_UP 1 2) = true ∧ v30_17.dev.get (F.LINK_TEST_PRBS 1 2) = 0 ∧ v30_17.dev.get (F.LINK_TEST_LOOP 1 2) ≤ 1) ∧
    (v30_19.Safe ∧ v30_19.Shaped ∧ (∃ (id : Nat), ∃ (q : Query), ∃ (oc : Nat), (cLaunch (Load.reply 4)).load = Load.reply id ∧ v30_19.dev.query (1) id = some q ∧ q.stage = Stage.done ∧ q.reply = some (zeros 90) ∧ q.outcome = some oc ∧ oc ≠ 4 ∧ (cLaunch (Load.reply 4)).late = false ∧ v30_19.dev.replyBlocked (1) (2) q.stamp (cLaunch (Load.reply 4)).lam = false ∧ 272 = 272) ∧ v30_19.dev.lnk 1 2 = xRep ∧ List.find? (fun (k : Commit) => !k.gone && decide (k.lam < ticks16 (v30_19.dev.raw + 1))) xRep.commits = some (cLaunch (Load.reply 4)) ∧ List.find? (fun (k : Commit) => decide (k.start = (cLaunch (Load.reply 4)).start)) xRep.commits = some (cLaunch (Load.reply 4)) ∧ v30_19.dev.flag (F.LINK_STATUS_LINK_UP 1 2) = true ∧ v30_19.dev.get (F.LINK_TEST_PRBS 1 2) = 0 ∧ v30_19.dev.get (F.LINK_TEST_LOOP 1 2) ≤ 1) ∧
    (v30_20.Safe ∧ v30_20.Shaped ∧ v30_20.dev.lnk 1 2 = { commits := [cLaunch (Load.sched (zeros 46) false)] } ∧ List.find? (fun (k : Commit) => !k.gone && decide (k.lam < ticks16 (v30_20.dev.raw + 1))) [cLaunch (Load.sched (zeros 46) false)] = some (cLaunch (Load.sched (zeros 46) false)) ∧ List.find? (fun (k : Commit) => decide (k.start = (cLaunch (Load.sched (zeros 46) false)).start)) [cLaunch (Load.sched (zeros 46) false)] = some (cLaunch (Load.sched (zeros 46) false)) ∧ (cLaunch (Load.sched (zeros 46) false)).load = Load.sched (zeros 46) false ∧ v30_20.dev.flag (F.LINK_STATUS_LINK_UP 1 2) = false) ∧
    (v30_21.Safe ∧ v30_21.Shaped ∧ v30_21.dev.lnk 1 2 = xRep ∧ List.find? (fun (k : Commit) => !k.gone && decide (k.lam < ticks16 (v30_21.dev.raw + 1))) xRep.commits = some (cLaunch (Load.reply 4)) ∧ List.find? (fun (k : Commit) => decide (k.start = (cLaunch (Load.reply 4)).start)) xRep.commits = some (cLaunch (Load.reply 4)) ∧ (cLaunch (Load.reply 4)).load = Load.reply 4 ∧ (cLaunch (Load.reply 4)).late = false ∧ v30_21.dev.flag (F.LINK_STATUS_LINK_UP 1 2) = false ∧ v30_21.dev.query (1) 4 = some qQueued ∧ qQueued.outcome = none ∧ qQueued.stage ≠ Stage.lost ∧ qQueued.stage ≠ Stage.full) ∧
    (v30_25.Safe ∧ v30_25.Shaped ∧ v30_25.dev.lnk 1 2 = xRep ∧ xRep.commits = [cLaunch (Load.reply 4)] ∧ (cLaunch (Load.reply 4)).gone = false ∧ (cLaunch (Load.reply 4)).late = false ∧ v30_25.dev.flag (F.LINK_STATUS_LINK_UP 1 2) = true ∧ 5 * ↑(cLaunch (Load.reply 4)).lam - 4 * (v30_25.dev.dTx 1 2 + 15 * 65536) ≤ 5 * ↑(ticks16 v30_25.dev.raw) ∧ (cLaunch (Load.reply 4)).load = Load.reply 4 ∧ v30_25.dev.query (1) 4 = some qQueued ∧ qQueued.stage ≠ Stage.done ∧ qQueued.stage ≠ Stage.lost ∧ v30_25.dev.replyBlocked (1) (2) qQueued.stamp (cLaunch (Load.reply 4)).lam = false) ∧
    (v30_21.Safe ∧ v30_21.Shaped ∧ v30_21.dev.lnk 1 1 = { } ∧ (∀ (c : Commit), c ∈ [] → c.gone = true ∨ c.late = true ∨ 5 * ↑(ticks16 v30_21.dev.raw) < 5 * ↑c.lam - 4 * (v30_21.dev.dTx 1 1 + 15 * 65536))) ∧
    (v30_21.Safe ∧ v30_21.Shaped ∧ v30_21.dev.lnk 1 1 = { }) ∧
    (v30_26.Safe ∧ v30_26.Shaped ∧ v30_26.dev.lnk 1 2 = { commits := [cLaunch (Load.sched (zeros 46) true)] } ∧ List.find? (fun (k : Commit) => !k.gone && decide (k.lam < ticks16 (v30_26.dev.raw + 1))) [cLaunch (Load.sched (zeros 46) true)] = some (cLaunch (Load.sched (zeros 46) true)) ∧ List.find? (fun (k : Commit) => decide (k.start = (cLaunch (Load.sched (zeros 46) true)).start)) [cLaunch (Load.sched (zeros 46) true)] = some (cLaunch (Load.sched (zeros 46) true)) ∧ v30_26.dev.flag (F.LINK_STATUS_LINK_UP 1 2) = true ∧ v30_26.dev.get (F.LINK_TEST_PRBS 1 2) = 0 ∧ v30_26.dev.get (F.LINK_TEST_LOOP 1 2) ≤ 1 ∧ (∃ (pd : Bool), (cLaunch (Load.sched (zeros 46) true)).load = Load.sched (zeros 46) pd ∧ 280 = 280)) :=
  ⟨⟨State.safe_of (by decide +kernel), State.shaped_of (by decide +kernel), by decide +kernel⟩,
    ⟨State.safe_of (by decide +kernel), State.shaped_of (by decide +kernel), ⟨_, rfl, rfl, rfl⟩, by decide +kernel⟩,
    ⟨State.safe_of (by decide +kernel), State.shaped_of (by decide +kernel), ⟨4, _, 0, rfl, rfl, by decide +kernel⟩, by decide +kernel⟩,
    ⟨State.safe_of (by decide +kernel), State.shaped_of (by decide +kernel), by decide +kernel⟩,
    ⟨State.safe_of (by decide +kernel), State.shaped_of (by decide +kernel), by decide +kernel⟩,
    ⟨State.safe_of (by decide +kernel), State.shaped_of (by decide +kernel), by decide +kernel⟩,
    ⟨State.safe_of (by decide +kernel), State.shaped_of (by decide +kernel), by decide +kernel⟩,
    ⟨State.safe_of (by decide +kernel), State.shaped_of (by decide +kernel), by decide +kernel⟩,
    ⟨State.safe_of (by decide +kernel), State.shaped_of (by decide +kernel), by decide +kernel⟩⟩

theorem witness_FramesLaunchedOrLate_b :
    v30_23.Safe ∧ v30_23.Shaped ∧ v30_23.dev.lnk 1 1 = { } ∧ (v30_23.dev.die 1).orderings = [ordr] ∧ ordr.at' ≤ v30_23.dev.raw ∧ ordr.log = false ∧ ordr.ctx ≠ 0 ∧ ordr.ctx < 256 :=
  ⟨State.safe_of (by decide +kernel), State.shaped_of (by decide +kernel), by decide +kernel⟩

theorem witness_HostFramesFetchedAndPlaced :
    (v32_1.Safe ∧ v32_1.Shaped ∧ v32_1.dev.dmaOk = false) ∧
    (v32_2.Safe ∧ v32_2.Shaped ∧ v32_2.dev.get (F.TXR_CTRL_STATE 1 2) = 0 ∧ v32_2.dev.dmaOk = true ∧ v32_2.dev.diePowered 1 = true ∧ (v32_2.dev.ringRt (A.TXR_BASE 1 2)).fetched < v32_2.dev.posted' (A.TXR_BASE 1 2) ∧ 0 = (v32_2.dev.get (F.TXR_HEAD_I 1 2) + (v32_2.dev.ringRt (A.TXR_BASE 1 2)).fetched) % 2 ^ v32_2.dev.get (F.TXR_CFG_LOG2 1 2) ∧ leAt (v32_2.host.read (v32_2.dev.descAddr (A.TXR_BASE 1 2) 0) 32) 10 2 % 8 = 1 ∧ 14 ≤ leAt (v32_2.host.read (v32_2.dev.descAddr (A.TXR_BASE 1 2) 0) 32) 8 2 ∧ leAt (v32_2.host.read (v32_2.dev.descAddr (A.TXR_BASE 1 2) 0) 32) 8 2 ≤ 9596 ∧ (v32_2.dev.die 1).hostBytes + leAt (v32_2.host.read (v32_2.dev.descAddr (A.TXR_BASE 1 2) 0) 32) 8 2 ≤ 131072) ∧
    (wWin.Safe ∧ wWin.Shaped ∧ wWin.dev.lnk 1 2 = xWin ∧ xWin.inWindow (xWin.granuleNow (wWin.dev.grid 1 2) wWin.dev.raw) = true ∧ xWin.winAt ≠ some (xWin.cycleStart (xWin.granuleNow (wWin.dev.grid 1 2) wWin.dev.raw) + xWin.cal.ws) ∧ wWin.dev.flag (F.LINK_STATUS_LINK_UP 1 2) = true ∧ wWin.dev.get (F.LINK_CTRL_STATE 1 2) = 0) ∧
    (warm.Safe ∧ warm.Shaped ∧ ({ } : Lnk).inWindow (({ } : Lnk).granuleNow (warm.dev.grid 1 2) warm.dev.raw) = false ∧ warm.dev.lnk 1 2 = { }) :=
  ⟨⟨State.safe_of (by decide +kernel), State.shaped_of (by decide +kernel), by decide +kernel⟩,
    ⟨State.safe_of (by decide +kernel), State.shaped_of (by decide +kernel), by decide +kernel⟩,
    ⟨State.safe_of (by decide +kernel), State.shaped_of (by decide +kernel), by decide +kernel⟩,
    ⟨State.safe_of (by decide +kernel), State.shaped_of (by decide +kernel), by decide +kernel, by decide +kernel⟩⟩

theorem witness_RequestsDispatchedAndCompleted :
    (v32_3.Safe ∧ v32_3.Shaped ∧ qEng Stage.queued 2 60 ∈ (v32_3.dev.die 1).queries ∧ (qEng Stage.queued 2 60).stage = Stage.queued ∧ (∀ (p : Query), p ∈ (v32_3.dev.die 1).queries → p.stage = Stage.queued → p = qEng Stage.queued 2 60 ∨ (qEng Stage.queued 2 60).stamp < p.stamp) ∧ v32_3.dev.get (F.ENG_CTRL_STATE 1 1) = 0 ∧ v32_3.dev.threads 1 1 < 32 ∧ (∀ (k : Fin 4), v32_3.dev.get (F.ENG_CTRL_STATE 1 ↑k) = 0 → v32_3.dev.threads 1 1 < v32_3.dev.threads 1 ↑k ∨ v32_3.dev.threads 1 1 = v32_3.dev.threads 1 ↑k ∧ 1 ≤ k)) ∧
    (v32_4.Safe ∧ v32_4.Shaped ∧ (∀ (q : Query), q ∈ (v32_4.dev.die 1).queries → q.stage ≠ Stage.queued)) ∧
    (v32_5.Safe ∧ v32_5.Shaped ∧ v32_5.dev.query (1) 3 = some qTh ∧ qTh.stage = Stage.thread 1 ∧ Img.proto qTh.img ≠ 3 ∧ Query.form (v32_5.dev.seenAt (1) qTh.stamp) (1) qTh (qTh.lam.getD 0) = (v32_6, v32_7, 0, 0) ∧ v32_7 ≠ 4 ∧ qTh.fallen = none) ∧
    (v32_19.Safe ∧ v32_19.Shaped ∧ v32_19.dev.query (1) 3 = some qFall ∧ qFall.stage = Stage.thread 1 ∧ Img.proto qFall.img ≠ 3 ∧ Query.form (v32_19.dev.seenAt (1) qFall.stamp) (1) qFall (qFall.lam.getD 0) = (v32_6, v32_7, 0, 0) ∧ v32_7 ≠ 4 ∧ qFall.fallen = some 5 ∧ Img.b qFall.img 0 3 = false ∧ 0 < qFall.ctx ∧ qFall.ctx < 256) ∧
    (v32_8.Safe ∧ v32_8.Shaped ∧ v32_8.dev.get (F.ENG_CTRL_STATE 1 1) = 0 ∧ v32_8.dev.threads 1 1 = 0 ∧ (((v32_8.dev.eng 1 1).idleSince + if v32_8.dev.flag (F.ENG_STATUS_SLOW_CLK 1 1) = true then 64 else 35) ≤ v32_8.dev.raw)) ∧
    (v32_9.Safe ∧ v32_9.Shaped ∧ v32_9.dev.threads 1 1 ≠ 0) :=
  ⟨⟨State.safe_of (by decide +kernel), State.shaped_of (by decide +kernel), by decide +kernel⟩,
    ⟨State.safe_of (by decide +kernel), State.shaped_of (by decide +kernel), by decide +kernel⟩,
    ⟨State.safe_of (by decide +kernel), State.shaped_of (by decide +kernel), by decide +kernel⟩,
    ⟨State.safe_of (by decide +kernel), State.shaped_of (by decide +kernel), by decide +kernel⟩,
    ⟨State.safe_of (by decide +kernel), State.shaped_of (by decide +kernel), by decide +kernel⟩,
    ⟨State.safe_of (by decide +kernel), State.shaped_of (by decide +kernel), by decide +kernel⟩⟩

theorem witness_EnginesDrainStartFailAndRejoin :
    (v32_10.Safe ∧ v32_10.Shaped ∧ v32_10.dev.diePowered 1 = true ∧ v32_10.dev.flag (F.ENG_CTRL_LATCHED 1 1) = false ∧ v32_10.dev.get (F.ENG_CTRL_STATE 1 1) = 1 ∧ v32_10.dev.threads 1 1 = 0 ∧ bit (v32_10.dev.get (F.DIE_INFO_ENG_MASK 1)) 1 = true) ∧
    (v32_11.Safe ∧ v32_11.Shaped ∧ v32_11.dev.diePowered 1 = true ∧ v32_11.dev.flag (F.ENG_CTRL_LATCHED 1 1) = true ∧ v32_11.dev.get (F.ENG_CTRL_STATE 1 1) = 1 ∧ v32_11.dev.threads 1 1 = 0 ∧ bit (v32_11.dev.get (F.DIE_INFO_ENG_MASK 1)) 1 = true) ∧
    (v32_12.Safe ∧ v32_12.Shaped ∧ v32_12.dev.diePowered 1 = true ∧ v32_12.dev.flag (F.ENG_CTRL_LATCHED 1 1) = false ∧ v32_12.dev.threads 1 1 ≠ 0) ∧
    (v32_13.Safe ∧ v32_13.Shaped ∧ v32_13.dev.diePowered 1 = true ∧ v32_13.dev.flag (F.ENG_CTRL_LATCHED 1 1) = false ∧ v32_13.dev.get (F.ENG_CTRL_STATE 1 1) = 3 ∧ (v32_13.dev.eng 1 1).recoverAt = none) ∧
    (v32_14.Safe ∧ v32_14.Shaped ∧ v32_14.dev.diePowered 1 = true ∧ v32_14.dev.flag (F.ENG_CTRL_LATCHED 1 1) = true ∧ v32_14.dev.get (F.ENG_CTRL_STATE 1 1) = 3 ∧ (v32_14.dev.eng 1 1).recoverAt = none) ∧
    (v32_15.Safe ∧ v32_15.Shaped ∧ v32_15.dev.diePowered 1 = true ∧ v32_15.dev.flag (F.ENG_CTRL_LATCHED 1 1) = true ∧ v32_15.dev.get (F.ENG_CTRL_STATE 1 1) = 3 ∧ (v32_15.dev.eng 1 1).recoverAt = none) ∧
    (v32_9.Safe ∧ v32_9.Shaped ∧ v32_9.dev.diePowered 1 = true ∧ v32_9.dev.flag (F.ENG_CTRL_LATCHED 1 1) = false ∧ v32_9.dev.get (F.ENG_CTRL_STATE 1 1) ≠ 2) ∧
    (v32_16.Safe ∧ v32_16.Shaped ∧ v32_16.dev.diePowered 1 = true ∧ v32_16.dev.flag (F.ENG_CTRL_LATCHED 1 1) = true ∧ v32_16.dev.get (F.ENG_CTRL_STATE 1 1) ≠ 2) ∧
    (v32_17.Safe ∧ v32_17.Shaped ∧ v32_17.dev.diePowered 1 = true ∧ v32_17.dev.flag (F.ENG_CTRL_LATCHED 1 1) = false ∧ v32_17.dev.get (F.ENG_CTRL_STATE 1 1) ≠ 2) ∧
    (v32_18.Safe ∧ v32_18.Shaped ∧ v32_18.dev.diePowered 1 = true ∧ v32_18.dev.flag (F.ENG_CTRL_LATCHED 1 1) = false ∧ (v32_18.dev.eng 1 1).recoverAt = some 8900000 ∧ 8900000 ≤ v32_18.dev.raw) ∧
    (v32_8.Safe ∧ v32_8.Shaped ∧ (∀ (u : Nat), (v32_8.dev.eng 1 1).recoverAt = some u → v32_8.dev.raw < u) ∧ v32_8.dev.diePowered 1 = true ∧ v32_8.dev.flag (F.ENG_CTRL_LATCHED 1 1) = false) :=
  ⟨⟨State.safe_of (by decide +kernel), State.shaped_of (by decide +kernel), by decide +kernel⟩,
    ⟨State.safe_of (by decide +kernel), State.shaped_of (by decide +kernel), by decide +kernel⟩,
    ⟨State.safe_of (by decide +kernel), State.shaped_of (by decide +kernel), by decide +kernel⟩,
    ⟨State.safe_of (by decide +kernel), State.shaped_of (by decide +kernel), by decide +kernel⟩,
    ⟨State.safe_of (by decide +kernel), State.shaped_of (by decide +kernel), by decide +kernel⟩,
    ⟨State.safe_of (by decide +kernel), State.shaped_of (by decide +kernel), by decide +kernel⟩,
    ⟨State.safe_of (by decide +kernel), State.shaped_of (by decide +kernel), by decide +kernel⟩,
    ⟨State.safe_of (by decide +kernel), State.shaped_of (by decide +kernel), by decide +kernel⟩,
    ⟨State.safe_of (by decide +kernel), State.shaped_of (by decide +kernel), by decide +kernel⟩,
    ⟨State.safe_of (by decide +kernel), State.shaped_of (by decide +kernel), by decide +kernel⟩,
    ⟨State.safe_of (by decide +kernel), State.shaped_of (by decide +kernel), all_some (by decide +kernel), by decide +kernel⟩⟩

theorem witness_FramesCountedDroppedAndPlaced :
    (warm.Safe ∧ warm.Shaped ∧ warm.dev.flag (F.LINK_STATUS_LINK_UP 1 2) = false) ∧
    (v34_1.Safe ∧ v34_1.Shaped ∧ v34_1.dev.diePowered 1 = true ∧ v34_1.dev.flag (F.LINK_STATUS_LINK_UP 1 2) = true ∧ v34_1.dev.get (F.LINK_TEST_PRBS 1 2) = 0 ∧ v34_1.dev.get (F.LINK_TEST_LOOP 1 2) = 0 ∧ (zeros 63).length < 64) ∧
    (v34_1.Safe ∧ v34_1.Shaped ∧ v34_1.dev.diePowered 1 = true ∧ v34_1.dev.flag (F.LINK_STATUS_LINK_UP 1 2) = true ∧ v34_1.dev.get (F.LINK_TEST_PRBS 1 2) = 0 ∧ v34_1.dev.get (F.LINK_TEST_LOOP 1 2) = 0 ∧ 9600 < (zeros 9601).length) ∧
    (v34_1.Safe ∧ v34_1.Shaped ∧ v34_1.dev.diePowered 1 = true ∧ v34_1.dev.flag (F.LINK_STATUS_LINK_UP 1 2) = true ∧ v34_1.dev.get (F.LINK_TEST_PRBS 1 2) = 0 ∧ v34_1.dev.get (F.LINK_TEST_LOOP 1 2) = 0 ∧ 64 ≤ (zeros 64).length ∧ (zeros 64).length ≤ 9600) ∧
    (v34_1.Safe ∧ v34_1.Shaped ∧ v34_1.dev.diePowered 1 = true ∧ v34_1.dev.flag (F.LINK_STATUS_LINK_UP 1 2) = true ∧ v34_1.dev.get (F.LINK_TEST_PRBS 1 2) = 0 ∧ v34_1.dev.get (F.LINK_TEST_LOOP 1 2) = 0 ∧ 64 ≤ (zeros 64).length ∧ (zeros 64).length ≤ 9600 ∧ List.drop ((zeros 64).length - 4) (zeros 64) ≠ fcsOf (List.take ((zeros 64).length - 4) (zeros 64))) ∧
    (v34_1.Safe ∧ v34_1.Shaped ∧ v34_1.dev.diePowered 1 = true ∧ v34_1.dev.flag (F.LINK_STATUS_LINK_UP 1 2) = true ∧ v34_1.dev.get (F.LINK_TEST_PRBS 1 2) = 0 ∧ v34_1.dev.get (F.LINK_TEST_LOOP 1 2) = 0 ∧ v34_1.dev.macDrop (1) (2) ntpReq (stampOf mii ((v34_1.dev.regsAt mii).dRx 1 2)) false (tagsOf ntpReq ((v34_1.dev.regsAt (stampOf mii ((v34_1.dev.regsAt mii).dRx 1 2))).get (F.LINK_TPID_TPID 1 2))) = none) ∧
    (v34_1.Safe ∧ v34_1.Shaped ∧ v34_1.dev.diePowered 1 = true ∧ v34_1.dev.flag (F.LINK_STATUS_LINK_UP 1 2) = true ∧ v34_1.dev.get (F.LINK_TEST_PRBS 1 2) = 0 ∧ v34_1.dev.get (F.LINK_TEST_LOOP 1 2) = 0 ∧ v34_1.dev.macDrop (1) (2) ntpReq (stampOf mii ((v34_1.dev.regsAt mii).dRx 1 2)) false (tagsOf ntpReq ((v34_1.dev.regsAt (stampOf mii ((v34_1.dev.regsAt mii).dRx 1 2))).get (F.LINK_TPID_TPID 1 2))) = none ∧ ((v34_1.dev.regsAt (stampOf mii ((v34_1.dev.regsAt mii).dRx 1 2))).classify (1) (2) ntpReq (tagsOf ntpReq ((v34_1.dev.regsAt (stampOf mii ((v34_1.dev.regsAt mii).dRx 1 2))).get (F.LINK_TPID_TPID 1 2)))).dest = Dest.host (0) 3 1 ∧ ((v34_1.dev.regsAt (stampOf mii ((v34_1.dev.regsAt mii).dRx 1 2))).classify (1) (2) ntpReq (tagsOf ntpReq ((v34_1.dev.regsAt (stampOf mii ((v34_1.dev.regsAt mii).dRx 1 2))).get (F.LINK_TPID_TPID 1 2)))).walk.ip4 ≠ some false ∧ (((v34_1.dev.regsAt (stampOf mii ((v34_1.dev.regsAt mii).dRx 1 2))).classify (1) (2) ntpReq (tagsOf ntpReq ((v34_1.dev.regsAt (stampOf mii ((v34_1.dev.regsAt mii).dRx 1 2))).get (F.LINK_TPID_TPID 1 2)))).walk.udp = true → udpOk (List.take (ntpReq.length - 4) ntpReq) ((v34_1.dev.regsAt (stampOf mii ((v34_1.dev.regsAt mii).dRx 1 2))).classify (1) (2) ntpReq (tagsOf ntpReq ((v34_1.dev.regsAt (stampOf mii ((v34_1.dev.regsAt mii).dRx 1 2))).get (F.LINK_TPID_TPID 1 2)))).walk.l3 ((v34_1.dev.regsAt (stampOf mii ((v34_1.dev.regsAt mii).dRx 1 2))).classify (1) (2) ntpReq (tagsOf ntpReq ((v34_1.dev.regsAt (stampOf mii ((v34_1.dev.regsAt mii).dRx 1 2))).get (F.LINK_TPID_TPID 1 2)))).walk.l4 = true) ∧ (v34_1.dev.die 1).hostCells + (ntpReq.length - 4 + 67) / 64 ≤ v34_1.dev.pos.hostKib[1]?.getD 0 * 16 ∧ v34_1.dev.get (ringState (A.RXR_BASE 1 0)) ≠ 0) :=
  ⟨⟨State.safe_of (by decide +kernel), State.shaped_of (by decide +kernel), by decide +kernel⟩,
    ⟨State.safe_of (by decide +kernel), State.shaped_of (by decide +kernel), by decide +kernel⟩,
    ⟨State.safe_of (by decide +kernel), State.shaped_of (by decide +kernel), by decide +kernel⟩,
    ⟨State.safe_of (by decide +kernel), State.shaped_of (by decide +kernel), by decide +kernel⟩,
    ⟨State.safe_of (by decide +kernel), State.shaped_of (by decide +kernel), by decide +kernel⟩,
    ⟨State.safe_of (by decide +kernel), State.shaped_of (by decide +kernel), by decide +kernel⟩,
    ⟨State.safe_of (by decide +kernel), State.shaped_of (by decide +kernel), by decide +kernel⟩⟩

theorem witness_FramesCountedDroppedAndPlaced_b :
    (v34_2.Safe ∧ v34_2.Shaped ∧ v34_2.dev.diePowered 1 = true ∧ v34_2.dev.flag (F.LINK_STATUS_LINK_UP 1 2) = true ∧ v34_2.dev.get (F.LINK_TEST_PRBS 1 2) = 0 ∧ v34_2.dev.get (F.LINK_TEST_LOOP 1 2) = 0 ∧ v34_2.dev.macDrop (1) (2) ntpReq (stampOf mii ((v34_2.dev.regsAt mii).dRx 1 2)) false (tagsOf ntpReq ((v34_2.dev.regsAt (stampOf mii ((v34_2.dev.regsAt mii).dRx 1 2))).get (F.LINK_TPID_TPID 1 2))) = none ∧ ((v34_2.dev.regsAt (stampOf mii ((v34_2.dev.regsAt mii).dRx 1 2))).classify (1) (2) ntpReq (tagsOf ntpReq ((v34_2.dev.regsAt (stampOf mii ((v34_2.dev.regsAt mii).dRx 1 2))).get (F.LINK_TPID_TPID 1 2)))).dest = Dest.host (0) 3 1 ∧ ((v34_2.dev.regsAt (stampOf mii ((v34_2.dev.regsAt mii).dRx 1 2))).classify (1) (2) ntpReq (tagsOf ntpReq ((v34_2.dev.regsAt (stampOf mii ((v34_2.dev.regsAt mii).dRx 1 2))).get (F.LINK_TPID_TPID 1 2)))).walk.ip4 ≠ some false ∧ (((v34_2.dev.regsAt (stampOf mii ((v34_2.dev.regsAt mii).dRx 1 2))).classify (1) (2) ntpReq (tagsOf ntpReq ((v34_2.dev.regsAt (stampOf mii ((v34_2.dev.regsAt mii).dRx 1 2))).get (F.LINK_TPID_TPID 1 2)))).walk.udp = true → udpOk (List.take (ntpReq.length - 4) ntpReq) ((v34_2.dev.regsAt (stampOf mii ((v34_2.dev.regsAt mii).dRx 1 2))).classify (1) (2) ntpReq (tagsOf ntpReq ((v34_2.dev.regsAt (stampOf mii ((v34_2.dev.regsAt mii).dRx 1 2))).get (F.LINK_TPID_TPID 1 2)))).walk.l3 ((v34_2.dev.regsAt (stampOf mii ((v34_2.dev.regsAt mii).dRx 1 2))).classify (1) (2) ntpReq (tagsOf ntpReq ((v34_2.dev.regsAt (stampOf mii ((v34_2.dev.regsAt mii).dRx 1 2))).get (F.LINK_TPID_TPID 1 2)))).walk.l4 = true) ∧ (v34_2.dev.die 1).hostCells + (ntpReq.length - 4 + 67) / 64 ≤ v34_2.dev.pos.hostKib[1]?.getD 0 * 16 ∧ v34_2.dev.get (ringState (A.RXR_BASE 1 0)) = 0 ∧ v34_2.dev.dmaOk = true ∧ v34_2.dev.get (ringLog2 (A.RXR_BASE 1 0)) ≤ 16 ∧ cdiv (ntpReq.length - 4) (v34_2.dev.get (F.RXR_CFG_BUF 1 0) * 256) ≤ v34_2.dev.posted' (A.RXR_BASE 1 0) ∧ v34_2.dev.posted' (A.RXR_BASE 1 0) ≠ 0) ∧
    (v34_3.Safe ∧ v34_3.Shaped ∧ v34_3.dev.diePowered 1 = true ∧ v34_3.dev.flag (F.LINK_STATUS_LINK_UP 1 2) = true ∧ v34_3.dev.get (F.LINK_TEST_PRBS 1 2) = 0 ∧ v34_3.dev.get (F.LINK_TEST_LOOP 1 2) = 0 ∧ v34_3.dev.macDrop (1) (2) ntpReq (stampOf mii ((v34_3.dev.regsAt mii).dRx 1 2)) false (tagsOf ntpReq ((v34_3.dev.regsAt (stampOf mii ((v34_3.dev.regsAt mii).dRx 1 2))).get (F.LINK_TPID_TPID 1 2))) = none ∧ ((v34_3.dev.regsAt (stampOf mii ((v34_3.dev.regsAt mii).dRx 1 2))).classify (1) (2) ntpReq (tagsOf ntpReq ((v34_3.dev.regsAt (stampOf mii ((v34_3.dev.regsAt mii).dRx 1 2))).get (F.LINK_TPID_TPID 1 2)))).dest = Dest.context 1 ∧ ((v34_3.dev.regsAt (stampOf mii ((v34_3.dev.regsAt mii).dRx 1 2))).classify (1) (2) ntpReq (tagsOf ntpReq ((v34_3.dev.regsAt (stampOf mii ((v34_3.dev.regsAt mii).dRx 1 2))).get (F.LINK_TPID_TPID 1 2)))).walk.ip4 ≠ some false ∧ (((v34_3.dev.regsAt (stampOf mii ((v34_3.dev.regsAt mii).dRx 1 2))).classify (1) (2) ntpReq (tagsOf ntpReq ((v34_3.dev.regsAt (stampOf mii ((v34_3.dev.regsAt mii).dRx 1 2))).get (F.LINK_TPID_TPID 1 2)))).walk.udp = true → udpOk (List.take (ntpReq.length - 4) ntpReq) ((v34_3.dev.regsAt (stampOf mii ((v34_3.dev.regsAt mii).dRx 1 2))).classify (1) (2) ntpReq (tagsOf ntpReq ((v34_3.dev.regsAt (stampOf mii ((v34_3.dev.regsAt mii).dRx 1 2))).get (F.LINK_TPID_TPID 1 2)))).walk.l3 ((v34_3.dev.regsAt (stampOf mii ((v34_3.dev.regsAt mii).dRx 1 2))).classify (1) (2) ntpReq (tagsOf ntpReq ((v34_3.dev.regsAt (stampOf mii ((v34_3.dev.regsAt mii).dRx 1 2))).get (F.LINK_TPID_TPID 1 2)))).walk.l4 = true) ∧ v34_3.dev.servesAt (stampOf mii ((v34_3.dev.regsAt mii).dRx 1 2)) = false) :=
  ⟨⟨State.safe_of (by decide +kernel), State.shaped_of (by decide +kernel), by decide +kernel⟩,
    ⟨State.safe_of (by decide +kernel), State.shaped_of (by decide +kernel), by decide +kernel⟩⟩

theorem witness_FramesCountedDroppedAndPlaced_c :
    wServe.Safe ∧ wServe.Shaped ∧ wServe.dev.diePowered 1 = true ∧ wServe.dev.flag (F.LINK_STATUS_LINK_UP 1 2) = true ∧ wServe.dev.get (F.LINK_TEST_PRBS 1 2) = 0 ∧ wServe.dev.get (F.LINK_TEST_LOOP 1 2) = 0 ∧ wServe.dev.macDrop (1) (2) ntpReq (stampOf mii ((wServe.dev.regsAt mii).dRx 1 2)) false (tagsOf ntpReq ((wServe.dev.regsAt (stampOf mii ((wServe.dev.regsAt mii).dRx 1 2))).get (F.LINK_TPID_TPID 1 2))) = none ∧ ((wServe.dev.regsAt (stampOf mii ((wServe.dev.regsAt mii).dRx 1 2))).classify (1) (2) ntpReq (tagsOf ntpReq ((wServe.dev.regsAt (stampOf mii ((wServe.dev.regsAt mii).dRx 1 2))).get (F.LINK_TPID_TPID 1 2)))).dest = Dest.context 1 ∧ ((wServe.dev.regsAt (stampOf mii ((wServe.dev.regsAt mii).dRx 1 2))).classify (1) (2) ntpReq (tagsOf ntpReq ((wServe.dev.regsAt (stampOf mii ((wServe.dev.regsAt mii).dRx 1 2))).get (F.LINK_TPID_TPID 1 2)))).walk.ip4 ≠ some false ∧ (((wServe.dev.regsAt (stampOf mii ((wServe.dev.regsAt mii).dRx 1 2))).classify (1) (2) ntpReq (tagsOf ntpReq ((wServe.dev.regsAt (stampOf mii ((wServe.dev.regsAt mii).dRx 1 2))).get (F.LINK_TPID_TPID 1 2)))).walk.udp = true → udpOk (List.take (ntpReq.length - 4) ntpReq) ((wServe.dev.regsAt (stampOf mii ((wServe.dev.regsAt mii).dRx 1 2))).classify (1) (2) ntpReq (tagsOf ntpReq ((wServe.dev.regsAt (stampOf mii ((wServe.dev.regsAt mii).dRx 1 2))).get (F.LINK_TPID_TPID 1 2)))).walk.l3 ((wServe.dev.regsAt (stampOf mii ((wServe.dev.regsAt mii).dRx 1 2))).classify (1) (2) ntpReq (tagsOf ntpReq ((wServe.dev.regsAt (stampOf mii ((wServe.dev.regsAt mii).dRx 1 2))).get (F.LINK_TPID_TPID 1 2)))).walk.l4 = true) ∧ wServe.dev.servesAt (stampOf mii ((wServe.dev.regsAt mii).dRx 1 2)) = true ∧ (∀ (p : Query), p ∈ (wServe.dev.die 1).queries → p.id < (wServe.dev.die 1).nextQuery) :=
  ⟨State.safe_of (by decide +kernel), State.shaped_of (by decide +kernel), by decide +kernel⟩

theorem witness_ClientsAndGrantsChecked :
    (v36_1.Safe ∧ v36_1.Shaped ∧ (∀ (q : Query), q ∈ (v36_1.dev.die 1).queries → ¬(q.link = 2 ∧ q.stage = Stage.client))) ∧
    (v36_2.Safe ∧ v36_2.Shaped ∧ (List.find? (fun (q : Query) => decide (q.link = 2 ∧ q.stage = Stage.client)) (v36_2.dev.die 1).queries = some qCl) ∧ (List.filter (fun (p : Query) => p.stage == Stage.queued) (v36_2.dev.die 1).queries).length < 256 ∧ Img.engine qCl.img = true ∧ 0 < qCl.ctx ∧ qCl.ctx < 256 ∧ v36_2.dev.reg (A.CT_SIZE 1 2) = 0) ∧
    (sCl.Safe ∧ sCl.Shaped ∧ (List.find? (fun (q : Query) => decide (q.link = 2 ∧ q.stage = Stage.client)) (sCl.dev.die 1).queries = some qCl) ∧ (List.filter (fun (p : Query) => p.stage == Stage.queued) (sCl.dev.die 1).queries).length < 256 ∧ Img.engine qCl.img = true ∧ 0 < qCl.ctx ∧ qCl.ctx < 256 ∧ sCl.dev.reg (A.CT_SIZE 1 2) ≠ 0 ∧ List.findIdx? (fun (e : List Byte) => !clientEmpty (sCl.dev.lnk 1 2).gen e && slice e 0 16 == qCl.clientKey && leAt e 17 1 == Img.f qCl.img 0 31 24 && (leAt e 16 1 / 2 % 2 == 1) == qCl.ipv6) (setWays sCl.ledger (tableSet (sCl.dev.get64 (A.CT_BASE 1 2)) (BitVec.toNat (sCl.dev.reg (A.CT_SIZE 1 2)) * 8) sCl.dev.keys.salt ([byte (Img.f qCl.img 0 31 24), byte (boolNat qCl.ipv6)] ++ qCl.clientKey))) = some 0 ∧ refill (leAt (sCl.ledger.read (tableSet (sCl.dev.get64 (A.CT_BASE 1 2)) (BitVec.toNat (sCl.dev.reg (A.CT_SIZE 1 2)) * 8) sCl.dev.keys.salt ([byte (Img.f qCl.img 0 31 24), byte (boolNat qCl.ipv6)] ++ qCl.clientKey) + 64 * 0) 64) 20 12) (Img.f qCl.img 28 15 0 * reqUnit) (Img.f qCl.img 24 31 0) (some (recordTime (slice (sCl.ledger.read (tableSet (sCl.dev.get64 (A.CT_BASE 1 2)) (BitVec.toNat (sCl.dev.reg (A.CT_SIZE 1 2)) * 8) sCl.dev.keys.salt ([byte (Img.f qCl.img 0 31 24), byte (boolNat qCl.ipv6)] ++ qCl.clientKey) + 64 * 0) 64) 32 16))) (sCl.dev.dieTime (1) (Img.scale qCl.img) qCl.stamp) = (clR.fst, clR.snd)) ∧
    (v36_1.Safe ∧ v36_1.Shaped ∧ (∀ (q : Query), q ∈ (v36_1.dev.die 1).queries → ¬(q.link = 2 ∧ q.stage = Stage.grant))) ∧
    (wGs.Safe ∧ wGs.Shaped ∧ (true = true ↔ ∃ (k : Nat), Dev.sesFind wGs.ledger wGs.dev (1) (2) (slice qGr.ptp 20 10) (beAt qGr.ptp 4 1) = some (k, true) ∧ sesValid (wGs.ledger.read (wGs.dev.sesAddr (1) (2) k) 64) 2 ((wGs.dev.seenAt (1) qGr.stamp).ptpTime qGr.img qGr.stamp) = true) ∧ (List.find? (fun (q : Query) => decide (q.link = 2 ∧ q.stage = Stage.grant)) (wGs.dev.die 1).queries = some qGr) ∧ Img.proto qGr.img = 2 ∧ qGr.fallen = none ∧ (qGr' = { id := qGr.id, link := qGr.link, ctx := qGr.ctx, img := qGr.img, bytes := qGr.bytes, stamp := qGr.stamp, need := qGr.need, l3 := qGr.l3, l4 := qGr.l4, pay := qGr.pay, ntags := qGr.ntags, ipv6 := qGr.ipv6, ip := qGr.ip, denied := qGr.denied, refused := !true, admitted := qGr.admitted, lam := qGr.lam, reply := if true = true then some (qGr.ptpFrame (Query.ptpReplyMsg (wGs.dev.seenAt (1) qGr.stamp) qGr (qGr.lam.getD 0))) else none, outcome := some (if true = true then 0 else 4), fallen := qGr.fallen })) ∧
    (v36_3.Safe ∧ v36_3.Shaped ∧ (false = true ↔ ∃ (k : Nat), Dev.sesFind v36_3.ledger v36_3.dev (1) (2) (slice qGr.ptp 20 10) (beAt qGr.ptp 4 1) = some (k, true) ∧ sesValid (v36_3.ledger.read (v36_3.dev.sesAddr (1) (2) k) 64) 2 ((v36_3.dev.seenAt (1) qGr.stamp).ptpTime qGr.img qGr.stamp) = true) ∧ (List.find? (fun (q : Query) => decide (q.link = 2 ∧ q.stage = Stage.grant)) (v36_3.dev.die 1).queries = some qGr) ∧ Img.proto qGr.img = 2 ∧ qGr.fallen = none ∧ (v36_4 = { id := qGr.id, link := qGr.link, ctx := qGr.ctx, img := qGr.img, bytes := qGr.bytes, stamp := qGr.stamp, need := qGr.need, l3 := qGr.l3, l4 := qGr.l4, pay := qGr.pay, ntags := qGr.ntags, ipv6 := qGr.ipv6, ip := qGr.ip, denied := qGr.denied, refused := !false, admitted := qGr.admitted, lam := qGr.lam, reply := if false = true then some (qGr.ptpFrame (Query.ptpReplyMsg (v36_3.dev.seenAt (1) qGr.stamp) qGr (qGr.lam.getD 0))) else none, outcome := some (if false = true then 0 else 4), fallen := qGr.fallen })) ∧
    (sSe.Safe ∧ sSe.Shaped ∧ (∀ (i : Nat), sSe.dev.sesAddr 1 2 i = sSe.dev.sesAddr (1) (2) i) ∧ (∀ (i : Nat), sSe.ledger.read (sSe.dev.sesAddr 1 2 i) 64 = sSe.ledger.read (sSe.dev.sesAddr 1 2 i) 64) ∧ (∀ (i : Nat), seGone i = List.filter (fun (g : Nat) => sesGranted (sSe.ledger.read (sSe.dev.sesAddr 1 2 i) 64) g && !sesValid (sSe.ledger.read (sSe.dev.sesAddr 1 2 i) 64) g (sSe.dev.sesTime (1) (sSe.ledger.read (sSe.dev.sesAddr 1 2 i) 64) (ticks16 sSe.dev.raw))) (List.range 3))) :=
  ⟨⟨State.safe_of (by decide +kernel), State.shaped_of (by decide +kernel), by decide +kernel⟩,
    ⟨State.safe_of (by decide +kernel), State.shaped_of (by decide +kernel), by decide +kernel⟩,
    ⟨State.safe_of (by decide +kernel), State.shaped_of (by decide +kernel), by decide +kernel⟩,
    ⟨State.safe_of (by decide +kernel), State.shaped_of (by decide +kernel), by decide +kernel⟩,
    ⟨State.safe_of (by decide +kernel), State.shaped_of (by decide +kernel), ⟨fun _ => ⟨48, by decide +kernel⟩, fun _ => rfl⟩, by decide +kernel⟩,
    ⟨State.safe_of (by decide +kernel), State.shaped_of (by decide +kernel), by rw [ex_some_true]; decide +kernel, by decide +kernel⟩,
    ⟨State.safe_of (by decide +kernel), State.shaped_of (by decide +kernel), fun _ => rfl, fun _ => rfl, fun _ => rfl⟩⟩

theorem witness_SlotsCarryScheduledMessages :
    (v36_5.Safe ∧ v36_5.Shaped ∧ ({ } : Lnk).occurrence (({ } : Lnk).granuleNow (v36_5.dev.grid 1 2) v36_5.dev.raw) 0 = none ∧ v36_5.dev.lnk 1 2 = { }) ∧
    (v36_6.Safe ∧ v36_6.Shaped ∧ v36_6.dev.lnk 1 2 = xSlot 0 ∧ (xSlot 0).occurrence ((xSlot 0).granuleNow (v36_6.dev.grid 1 2) v36_6.dev.raw) 0 = some (0, 1900000) ∧ (xSlot 0).cal.use[0]? = some 0 ∧ 0 % 8 = 0) ∧
    (v36_7.Safe ∧ v36_7.Shaped ∧ v36_7.dev.lnk 1 2 = xSlot 259 ∧ (xSlot 259).occurrence ((xSlot 259).granuleNow (v36_7.dev.grid 1 2) v36_7.dev.raw) 0 = some (0, 1900000) ∧ (xSlot 259).cal.use[0]? = some 259 ∧ v36_7.dev.flag (F.LINK_STATUS_LINK_UP 1 2) = false) ∧
    (v36_8.Safe ∧ v36_8.Shaped ∧ v36_8.dev.lnk 1 2 = xSlot 259 ∧ (xSlot 259).occurrence ((xSlot 259).granuleNow (v36_8.dev.grid 1 2) v36_8.dev.raw) 0 = some (0, 1900000) ∧ (xSlot 259).cal.use[0]? = some 259) ∧
    (v36_9.Safe ∧ v36_9.Shaped ∧ v36_9.dev.lnk 1 2 = xAnn' ∧ xAnn'.occurrence (xAnn'.granuleNow (v36_9.dev.grid 1 2) v36_9.dev.raw) 0 = some (0, 1900000) ∧ xAnn'.cal.use[0]? = some 259 ∧ 259 % 8 = 3 ∧ 1 = 259 / 256 % 256 ∧ v36_9.dev.flag (F.LINK_STATUS_LINK_UP 1 2) = true ∧ (∀ (y : Commit), y ∈ xAnn'.commits → y.start < 0 ∨ 1900000 ≤ y.start) ∧ v36_9.dev.ctxEnabled (1) (2) 1 = true ∧ (v36_9.dev.img (1) 1).proto = 2 ∧ (v36_9.dev.img (1) 1).f 72 3 0 = 6 ∧ (v36_9.dev.img (1) 1).b 64 8 = true ∧ xAnn'.dueMark 3 1 = some (dueIndex ((v36_9.dev.onDie 1).ptpTime (v36_9.dev.img (1) 1) (xAnn'.granuleAt (v36_9.dev.grid 1 2) 0)) (toSigned 8 ((v36_9.dev.img (1) 1).f 68 15 8)) 0 - 1) ∧ isMarker (v36_9.dev.grid 1 2).mark 0 = false ∧ ((v36_9.dev.grid 1 2).after 0 (((v36_9.dev.img (1) 1).ownFrame false ((v36_9.dev.onDie 1).announceMsg (v36_9.dev.img (1) 1) (xAnn'.granuleAt (v36_9.dev.grid 1 2) 0) (v36_9.dev.get { addr := A.CTX_LINE (1) (1 - 1) 52, hi := 31, lo := 16 }) (ofSigned 8 (toSigned 8 ((v36_9.dev.img (1) 1).f 68 15 8))) false)).length + 4) 0).fst + 1 ≤ 1900000) ∧
    (sStr.Safe ∧ sStr.Shaped ∧ sStr.dev.lnk 1 2 = xSlot 518 ∧ (xSlot 518).occurrence ((xSlot 518).granuleNow (sStr.dev.grid 1 2) sStr.dev.raw) 0 = some (0, 1900000) ∧ (xSlot 518).cal.use[0]? = some 518 ∧ 518 % 8 = 6 ∧ 2 = 518 / 256 % 16 ∧ sStr.dev.flag (F.LINK_STATUS_LINK_UP 1 2) = true ∧ (∀ (y : Commit), y ∈ (xSlot 518).commits → y.start < 0 ∨ 1900000 ≤ y.start) ∧ sStr.dev.get (F.STR_CFG_LINK 2) = 4 * 1 + 2 ∧ sStr.dev.ctxEnabled (1) (2) (sStr.dev.get (F.STR_CFG_CONTEXT 2)) = true ∧ (sStr.dev.strm 2).sig = [zeros 44, zeros 64] ∧ isMarker (sStr.dev.grid 1 2).mark 0 = false ∧ ((sStr.dev.grid 1 2).after 0 (((sStr.dev.img (1) (sStr.dev.get (F.STR_CFG_CONTEXT 2))).ownFrame false (zeros 44)).length + 4) 0).fst + 1 ≤ 1900000) :=
  ⟨⟨State.safe_of (by decide +kernel), State.shaped_of (by decide +kernel), by decide +kernel, by decide +kernel⟩,
    ⟨State.safe_of (by decide +kernel), State.shaped_of (by decide +kernel), by decide +kernel⟩,
    ⟨State.safe_of (by decide +kernel), State.shaped_of (by decide +kernel), by decide +kernel⟩,
    ⟨State.safe_of (by decide +kernel), State.shaped_of (by decide +kernel), by decide +kernel⟩,
    ⟨State.safe_of (by decide +kernel), State.shaped_of (by decide +kernel), by decide +kernel⟩,
    ⟨State.safe_of (by decide +kernel), State.shaped_of (by decide +kernel), by decide +kernel⟩⟩

theorem witness_MasterChosenAndStreamsMeasured :
    (sAnn.Safe ∧ sAnn.Shaped ∧ (true = true ↔ 3 ≤ (sAnn.dev.img 1 1).f 64 12 10 ∨ ∀ (l : Fin 4) (a : Nat) (p : List Byte), sAnn.dev.ctxEnabled 1 ↑l 1 = true → (a, p) ∈ (sAnn.dev.lnk 1 ↑l).announces → (sAnn.dev.img (1) a).proto = 3 → (sAnn.dev.img (1) a).f 64 7 0 = 1 → beNat (sAnn.dev.ownKey (sAnn.dev.img 1 1)) ≤ beNat (annKey p)) ∧ 1 ≠ 0 ∧ sAnn.dev.md.coresDown = none ∧ (sAnn.dev.img 1 1).proto = 2 ∧ (sAnn.dev.img 1 1).stream = false ∧ (sAnn.dev.img 1 1).b 72 4 = true ∧ (sAnn.dev.img 1 1).f 72 3 0 = 6) ∧
    (v36_10.Safe ∧ v36_10.Shaped ∧ (false = true ↔ 3 ≤ (v36_10.dev.img 1 1).f 64 12 10 ∨ ∀ (l : Fin 4) (a : Nat) (p : List Byte), v36_10.dev.ctxEnabled 1 ↑l 1 = true → (a, p) ∈ (v36_10.dev.lnk 1 ↑l).announces → (v36_10.dev.img (1) a).proto = 3 → (v36_10.dev.img (1) a).f 64 7 0 = 1 → beNat (v36_10.dev.ownKey (v36_10.dev.img 1 1)) ≤ beNat (annKey p)) ∧ 1 ≠ 0 ∧ v36_10.dev.md.coresDown = none ∧ (v36_10.dev.img 1 1).proto = 2 ∧ (v36_10.dev.img 1 1).stream = false ∧ (v36_10.dev.img 1 1).b 72 4 = true ∧ (v36_10.dev.img 1 1).f 72 3 0 = 6) ∧
    (v36_11.Safe ∧ v36_11.Shaped ∧ (true = true ↔ 3 ≤ (v36_11.dev.img 1 1).f 64 12 10 ∨ ∀ (l : Fin 4) (a : Nat) (p : List Byte), v36_11.dev.ctxEnabled 1 ↑l 1 = true → (a, p) ∈ (v36_11.dev.lnk 1 ↑l).announces → (v36_11.dev.img (1) a).proto = 3 → (v36_11.dev.img (1) a).f 64 7 0 = 1 → beNat (v36_11.dev.ownKey (v36_11.dev.img 1 1)) ≤ beNat (annKey p)) ∧ 1 ≠ 0 ∧ v36_11.dev.md.coresDown = none ∧ (v36_11.dev.img 1 1).proto = 2 ∧ (v36_11.dev.img 1 1).stream = false ∧ (v36_11.dev.img 1 1).b 72 4 = true ∧ (v36_11.dev.img 1 1).f 72 3 0 = 6) ∧
    (warm.Safe ∧ warm.Shaped ∧ (warm.dev.strm 2).inbox = []) ∧
    (v36_12.Safe ∧ v36_12.Shaped ∧ v36_12.dev.strm 2 = xIn (zeros 44) ∧ (xIn (zeros 44)).inbox = [(800000 * 65536, zeros 44), (5, [])] ∧ v36_12.dev.strTakes (2) (zeros 44) = false) ∧
    (v36_13.Safe ∧ v36_13.Shaped ∧ v36_13.dev.strm 2 = xIn syncP ∧ (xIn syncP).inbox = [(800000 * 65536, syncP), (5, [])] ∧ v36_13.dev.strTakes (2) syncP = true ∧ beAt syncP 0 1 % 16 = 0 ∧ bit (beAt syncP 6 1) 1 = false ∧ (xIn syncP).exch = some (700000 * 65536, 560000 * 65536 + 3, 0) ∧ v36_13.dev.flag (F.STR_CFG_P2P 2) = false) ∧
    (v36_14.Safe ∧ v36_14.Shaped ∧ v36_14.dev.strm 2 = xAn ∧ xAn.inbox = [(800000 * 65536, annP 128), (5, [])] ∧ v36_14.dev.strTakes (2) (annP 128) = true ∧ beAt (annP 128) 0 1 % 16 = 11) ∧
    (v36_15.Safe ∧ v36_15.Shaped ∧ v36_15.dev.flag (F.STR_CFG_UNICAST 2) = true ∧ v36_15.dev.md.coresDown = none ∧ v36_15.dev.get (F.STR_CFG_CONTEXT 2) ≠ 0) :=
  ⟨⟨State.safe_of (by decide +kernel), State.shaped_of (by decide +kernel), by rw [all_pairs]; decide +kernel, by decide +kernel⟩,
    ⟨State.safe_of (by decide +kernel), State.shaped_of (by decide +kernel), by rw [all_pairs]; decide +kernel, by decide +kernel⟩,
    ⟨State.safe_of (by decide +kernel), State.shaped_of (by decide +kernel), by rw [all_pairs]; decide +kernel, by decide +kernel⟩,
    ⟨State.safe_of (by decide +kernel), State.shaped_of (by decide +kernel), by decide +kernel⟩,
    ⟨State.safe_of (by decide +kernel), State.shaped_of (by decide +kernel), by decide +kernel⟩,
    ⟨State.safe_of (by decide +kernel), State.shaped_of (by decide +kernel), by decide +kernel⟩,
    ⟨State.safe_of (by decide +kernel), State.shaped_of (by decide +kernel), by decide +kernel⟩,
    ⟨State.safe_of (by decide +kernel), State.shaped_of (by decide +kernel), by decide +kernel⟩⟩

theorem witness_HostRingsMove :
    (v40_30.Safe ∧ v40_30.Shaped ∧ v40_30.dev.get (ringLog2 (ringBank (RingId.rx 1 3))) ≤ 16 ∧ v40_30.dev.ringReach (RingId.rx 1 3) = true) ∧
    ((rRing 0 60 62 []).Safe ∧ (rRing 0 60 62 []).Shaped ∧ (rRing 0 60 62 []).dev.get (ringLog2 (ringBank (RingId.rx 1 3))) ≤ 16 ∧ (rRing 0 60 62 []).dev.ringReach (RingId.rx 1 3) = true ∧ (rRing 0 60 62 []).dev.get (ringTail (ringBank (RingId.rx 1 3))) < (rRing 0 60 62 []).dev.ringSize (ringBank (RingId.rx 1 3)) ∧ (rRing 0 60 62 []).dev.limitOk [(ringBank (RingId.rx 1 3) + 20, putBits 15 0 ((rRing 0 60 62 []).dev.reg (ringBank (RingId.rx 1 3) + 20)) (bits 15 0 57))] = true ∧ bits 15 0 57 < (rRing 0 60 62 []).dev.ringSize (ringBank (RingId.rx 1 3)) ∧ ((bits 15 0 57 + (rRing 0 60 62 []).dev.ringSize (ringBank (RingId.rx 1 3)) - (rRing 0 60 62 []).dev.get (ringTail (ringBank (RingId.rx 1 3)))) % (rRing 0 60 62 []).dev.ringSize (ringBank (RingId.rx 1 3)) ≤ if RingId.rx 1 3 = RingId.ev then ((rRing 0 60 62 []).dev.get (ringHead (ringBank (RingId.rx 1 3))) + (rRing 0 60 62 []).dev.ringSize (ringBank (RingId.rx 1 3)) - (rRing 0 60 62 []).dev.get (ringTail (ringBank (RingId.rx 1 3)))) % (rRing 0 60 62 []).dev.ringSize (ringBank (RingId.rx 1 3)) else (rRing 0 60 62 []).dev.ringSize (ringBank (RingId.rx 1 3)) - 1 - (rRing 0 60 62 []).dev.posted' (ringBank (RingId.rx 1 3)))) ∧
    ((rRing 0 60 62 []).Safe ∧ (rRing 0 60 62 []).Shaped ∧ (rRing 0 60 62 []).dev.get (ringLog2 (ringBank (RingId.rx 1 3))) ≤ 16 ∧ (rRing 0 60 62 []).dev.ringReach (RingId.rx 1 3) = true ∧ (rRing 0 60 62 []).dev.get (ringTail (ringBank (RingId.rx 1 3))) < (rRing 0 60 62 []).dev.ringSize (ringBank (RingId.rx 1 3)) ∧ (rRing 0 60 62 []).dev.limitOk [(ringBank (RingId.rx 1 3) + 20, putBits 15 0 ((rRing 0 60 62 []).dev.reg (ringBank (RingId.rx 1 3) + 20)) (bits 15 0 60))] = true ∧ ((if RingId.rx 1 3 = RingId.ev then ((rRing 0 60 62 []).dev.get (ringHead (ringBank (RingId.rx 1 3))) + (rRing 0 60 62 []).dev.ringSize (ringBank (RingId.rx 1 3)) - (rRing 0 60 62 []).dev.get (ringTail (ringBank (RingId.rx 1 3)))) % (rRing 0 60 62 []).dev.ringSize (ringBank (RingId.rx 1 3)) else (rRing 0 60 62 []).dev.ringSize (ringBank (RingId.rx 1 3)) - 1 - (rRing 0 60 62 []).dev.posted' (ringBank (RingId.rx 1 3))) < (bits 15 0 60 + (rRing 0 60 62 []).dev.ringSize (ringBank (RingId.rx 1 3)) - (rRing 0 60 62 []).dev.get (ringTail (ringBank (RingId.rx 1 3)))) % (rRing 0 60 62 []).dev.ringSize (ringBank (RingId.rx 1 3)))) ∧
    ((rRing 0 60 62 []).Safe ∧ (rRing 0 60 62 []).Shaped ∧ (rRing 0 60 62 []).dev.get (ringLog2 (ringBank (RingId.rx 1 3))) ≤ 16 ∧ (rRing 0 60 62 []).dev.ringReach (RingId.rx 1 3) = true ∧ (rRing 0 60 62 []).dev.get (ringTail (ringBank (RingId.rx 1 3))) < (rRing 0 60 62 []).dev.ringSize (ringBank (RingId.rx 1 3)) ∧ (rRing 0 60 62 []).dev.limitOk [(ringBank (RingId.rx 1 3) + 20, putBits 15 0 ((rRing 0 60 62 []).dev.reg (ringBank (RingId.rx 1 3) + 20)) (bits 15 0 64))] = true ∧ (rRing 0 60 62 []).dev.ringSize (ringBank (RingId.rx 1 3)) ≤ bits 15 0 64) ∧
    ((rRing 3 0 0 []).Safe ∧ (rRing 3 0 0 []).Shaped ∧ (rRing 3 0 0 []).dev.get (ringLog2 (ringBank (RingId.rx 1 3))) ≤ 16 ∧ (rRing 3 0 0 []).dev.get (ringState (ringBank (RingId.rx 1 3))) = 3 ∧ (rRing 3 0 0 []).dev.ringCfgOk (RingId.rx 1 3) = true ∧ (rRing 3 0 0 []).dev.flag (ringLatched (ringBank (RingId.rx 1 3))) = false) ∧
    (v40_1.Safe ∧ v40_1.Shaped ∧ v40_1.dev.get (ringLog2 (ringBank (RingId.rx 1 3))) ≤ 16 ∧ v40_1.dev.get (ringState (ringBank (RingId.rx 1 3))) = 3 ∧ v40_1.dev.ringCfgOk (RingId.rx 1 3) = true ∧ v40_1.dev.flag (ringLatched (ringBank (RingId.rx 1 3))) = true) ∧
    (v40_2.Safe ∧ v40_2.Shaped ∧ v40_2.dev.get (ringLog2 (ringBank (RingId.rx 1 3))) ≤ 16 ∧ v40_2.dev.get (ringState (ringBank (RingId.rx 1 3))) = 3 ∧ v40_2.dev.ringCfgOk (RingId.rx 1 3) = false) ∧
    ((rRing 1 7 9 []).Safe ∧ (rRing 1 7 9 []).Shaped ∧ (rRing 1 7 9 []).dev.get (ringLog2 (ringBank (RingId.rx 1 3))) ≤ 16 ∧ (rRing 1 7 9 []).dev.get (ringState (ringBank (RingId.rx 1 3))) = 1 ∧ (rRing 1 7 9 []).dev.ringDrained (RingId.rx 1 3) = true) ∧
    (v40_3.Safe ∧ v40_3.Shaped ∧ v40_3.dev.get (ringLog2 (ringBank (RingId.rx 1 3))) ≤ 16 ∧ v40_3.dev.get (ringState (ringBank (RingId.rx 1 3))) = 1 ∧ v40_3.dev.ringDrained (RingId.rx 1 3) = true) ∧
    ((rRing 2 7 9 []).Safe ∧ (rRing 2 7 9 []).Shaped ∧ (rRing 2 7 9 []).dev.get (ringLog2 (ringBank (RingId.rx 1 3))) ≤ 16 ∧ (rRing 2 7 9 []).dev.get (ringState (ringBank (RingId.rx 1 3))) = 2) ∧
    ((rRing 0 7 9 []).Safe ∧ (rRing 0 7 9 []).Shaped ∧ (rRing 0 7 9 []).dev.get (ringLog2 (ringBank (RingId.rx 1 3))) ≤ 16 ∧ (rRing 0 7 9 []).dev.get (ringState (ringBank (RingId.rx 1 3))) ≠ 2 ∧ RingId.rx 1 3 ≠ RingId.cmd) ∧
    (wWin.Safe ∧ wWin.Shaped ∧ wWin.dev.get (ringLog2 (ringBank (RingId.tx 1 2))) ≤ 16 ∧ wWin.dev.get (ringState (ringBank (RingId.tx 1 2))) ≠ 2 ∧ RingId.tx 1 2 ≠ RingId.cmd) :=
  ⟨⟨State.safe_of (by decide +kernel), State.shaped_of (by decide +kernel), by decide +kernel⟩,
    ⟨State.safe_of (by decide +kernel), State.shaped_of (by decide +kernel), by decide +kernel⟩,
    ⟨State.safe_of (by decide +kernel), State.shaped_of (by decide +kernel), by decide +kernel⟩,
    ⟨State.safe_of (by decide +kernel), State.shaped_of (by decide +kernel), by decide +kernel⟩,
    ⟨State.safe_of (by decide +kernel), State.shaped_of (by decide +kernel), by decide +kernel⟩,
    ⟨State.safe_of (by decide +kernel), State.shaped_of (by decide +kernel), by decide +kernel⟩,
    ⟨State.safe_of (by decide +kernel), State.shaped_of (by decide +kernel), by decide +kernel⟩,
    ⟨State.safe_of (by decide +kernel), State.shaped_of (by decide +kernel), by decide +kernel⟩,
    ⟨State.safe_of (by decide +kernel), State.shaped_of (by decide +kernel), by decide +kernel⟩,
    ⟨State.safe_of (by decide +kernel), State.shaped_of (by decide +kernel), by decide +kernel⟩,
    ⟨State.safe_of (by decide +kernel), State.shaped_of (by decide +kernel), by decide +kernel⟩,
    ⟨State.safe_of (by decide +kernel), State.shaped_of (by decide +kernel), by decide +kernel⟩⟩

theorem witness_HostRingsMove_b :
    (sHold.Safe ∧ sHold.Shaped ∧ sHold.dev.get (ringLog2 (ringBank (RingId.rx 1 3))) ≤ 16 ∧ (sHold.dev.ringRt (ringBank (RingId.rx 1 3))).oldest = some 800000 ∧ bit (BitVec.toNat (sHold.dev.reg (ringBank (RingId.rx 1 3) + 24))) 7 = true ∧ 800000 + bits 31 16 (sHold.dev.reg (ringBank (RingId.rx 1 3) + 24)) * 800 ≤ sHold.dev.raw ∧ sHold.dev.pcie.msix[bits 5 0 (sHold.dev.reg (ringBank (RingId.rx 1 3) + 24))]? = some msixE ∧ msixE.masked = false ∧ sHold.dev.flag F.PCIE_STATUS_MSIX_EN = true ∧ sHold.dev.flag F.PCIE_STATUS_D3 = false ∧ sHold.dev.pcie.funcMask = false ∧ sHold.dev.pcie.busMaster = true) ∧
    ((rRing 0 7 9 []).Safe ∧ (rRing 0 7 9 []).Shaped ∧ (rRing 0 7 9 []).dev.get (ringLog2 (ringBank (RingId.rx 1 3))) ≤ 16 ∧ ((rRing 0 7 9 []).dev.ringRt (ringBank (RingId.rx 1 3))).oldest = none) ∧
    (v40_16.Safe ∧ v40_16.Shaped ∧ v40_16.dev.get (ringLog2 (ringBank RingId.cmd)) ≤ 16 ∧ Dev.nextCmd v40_16.host v40_16.dev = some (cmdC 0 [] 0) ∧ bit (BitVec.toNat (v40_16.dev.reg (ringBank RingId.cmd + 24))) 7 = false) :=
  ⟨⟨State.safe_of (by decide +kernel), State.shaped_of (by decide +kernel), by decide +kernel⟩,
    ⟨State.safe_of (by decide +kernel), State.shaped_of (by decide +kernel), by decide +kernel⟩,
    ⟨State.safe_of (by decide +kernel), State.shaped_of (by decide +kernel), by decide +kernel⟩⟩

theorem witness_EventTableAndVectorsWritten :
    (v40_4.Safe ∧ v40_4.Shaped ∧ v40_4.dev.limitOk [(A.EV_ENABLE 1, 20)] = true) ∧
    (v40_31.Safe ∧ v40_31.Shaped) ∧
    (v40_32.Safe ∧ v40_32.Shaped) ∧
    (v40_33.Safe ∧ v40_33.Shaped) ∧
    (v40_5.Safe ∧ v40_5.Shaped ∧ v40_5.dev.limitOk [(A.EV_ENABLE 1, 18)] = true) ∧
    (v40_6.Safe ∧ v40_6.Shaped ∧ v40_6.dev.limitOk [(A.EV_STATUS 1, v40_6.dev.reg (A.EV_STATUS 1) &&& ~~~21)] = true) ∧
    (v40_7.Safe ∧ v40_7.Shaped ∧ v40_7.dev.limitOk [(A.EV_STATUS 1, v40_7.dev.reg (A.EV_STATUS 1) &&& ~~~21)] = true) ∧
    (v40_8.Safe ∧ v40_8.Shaped ∧ v40_8.dev.limitOk [(A.EV_ROUTE 127, putBits 13 8 (putBits 1 0 (v40_8.dev.reg (A.EV_ROUTE 127)) (bits 1 0 16129)) (bits 13 8 16129))] = true ∧ v40_8.dev.flag (F.EV_ROUTE_LOCKED 127) = false ∧ (¬(127 = 5 ∧ bits 1 0 16129 = 3))) ∧
    (v40_8.Safe ∧ v40_8.Shaped ∧ v40_8.dev.limitOk [(A.EV_ROUTE 5, putBits 13 8 (putBits 1 0 (v40_8.dev.reg (A.EV_ROUTE 5)) (bits 1 0 16129)) (bits 13 8 16129))] = true ∧ v40_8.dev.flag (F.EV_ROUTE_LOCKED 5) = false ∧ (¬(5 = 5 ∧ bits 1 0 16129 = 3))) ∧
    (v40_8.Safe ∧ v40_8.Shaped ∧ v40_8.dev.limitOk [(A.EV_ROUTE 5, putBits 13 8 (putBits 1 0 (v40_8.dev.reg (A.EV_ROUTE 5)) (bits 1 0 16131)) (bits 13 8 16131))] = true ∧ 5 = 5 ∧ bits 1 0 16131 = 3) ∧
    (v40_9.Safe ∧ v40_9.Shaped ∧ v40_9.dev.limitOk [(A.EV_ROUTE 33, putBits 13 8 (putBits 1 0 (v40_9.dev.reg (A.EV_ROUTE 33)) (bits 1 0 16130)) (bits 13 8 16130))] = true ∧ v40_9.dev.flag (F.EV_ROUTE_LOCKED 33) = true ∧ bits 1 0 16130 ≠ v40_9.dev.get (F.EV_ROUTE_KIND 33)) ∧
    (v40_10.Safe ∧ v40_10.Shaped ∧ v40_10.dev.pcie.msix[9]? = some v40_11) :=
  ⟨⟨State.safe_of (by decide +kernel), State.shaped_of (by decide +kernel), by decide +kernel⟩,
    ⟨State.safe_of (by decide +kernel), State.shaped_of (by decide +kernel)⟩,
    ⟨State.safe_of (by decide +kernel), State.shaped_of (by decide +kernel)⟩,
    ⟨State.safe_of (by decide +kernel), State.shaped_of (by decide +kernel)⟩,
    ⟨State.safe_of (by decide +kernel), State.shaped_of (by decide +kernel), by decide +kernel⟩,
    ⟨State.safe_of (by decide +kernel), State.shaped_of (by decide +kernel), by decide +kernel⟩,
    ⟨State.safe_of (by decide +kernel), State.shaped_of (by decide +kernel), by decide +kernel⟩,
    ⟨State.safe_of (by decide +kernel), State.shaped_of (by decide +kernel), by decide +kernel⟩,
    ⟨State.safe_of (by decide +kernel), State.shaped_of (by decide +kernel), by decide +kernel⟩,
    ⟨State.safe_of (by decide +kernel), State.shaped_of (by decide +kernel), by decide +kernel⟩,
    ⟨State.safe_of (by decide +kernel), State.shaped_of (by decide +kernel), by decide +kernel⟩,
    ⟨State.safe_of (by decide +kernel), State.shaped_of (by decide +kernel), by decide +kernel⟩⟩

theorem witness_PcieFunctionAndWindow :
    ((rRing 0 60 62 []).Safe ∧ (rRing 0 60 62 []).Shaped) ∧
    (warm.Safe ∧ warm.Shaped) ∧
    ((rRing 0 60 62 []).Safe ∧ (rRing 0 60 62 []).Shaped ∧ (rRing 0 60 62 []).dev.pcie.perstN = true ∧ (rRing 0 60 62 []).dev.mode ≠ Mode.bypass) ∧
    ((rRing 0 60 62 []).Safe ∧ (rRing 0 60 62 []).Shaped ∧ (rRing 0 60 62 []).dev.pcie.linkUp = true ∧ ((rRing 0 60 62 []).dev.flag F.PCIE_STATUS_D3 = true → true = true)) ∧
    (v40_12.Safe ∧ v40_12.Shaped ∧ v40_12.dev.pcie.linkUp = true ∧ (v40_12.dev.flag F.PCIE_STATUS_D3 = true → false = true)) ∧
    (v40_13.Safe ∧ v40_13.Shaped ∧ v40_13.dev.pcie.linkUp = true ∧ v40_13.dev.flag F.PCIE_STATUS_D3 = true) ∧
    (warm.Safe ∧ warm.Shaped ∧ warm.dev.pcie.linkUp = false) ∧
    (v40_14.Safe ∧ v40_14.Shaped ∧ v40_14.dev.loaded = true ∧ 65520 < 2 ^ 26 ∧ v40_14.dev.region (v40_14.dev.get F.BAR2_CTRL_TARGET) (v40_14.dev.get F.BAR2_CTRL_LINK) = (4096, 65536)) ∧
    (v40_14.Safe ∧ v40_14.Shaped ∧ v40_14.dev.loaded = true ∧ 65528 < 2 ^ 26 ∧ v40_14.dev.region (v40_14.dev.get F.BAR2_CTRL_TARGET) (v40_14.dev.get F.BAR2_CTRL_LINK) = (4096, 65536) ∧ v40_14.dev.get F.BAR2_CTRL_TARGET = 0) ∧
    (v40_15.Safe ∧ v40_15.Shaped ∧ v40_15.dev.loaded = true ∧ 65528 < 2 ^ 26 ∧ v40_15.dev.region (v40_15.dev.get F.BAR2_CTRL_TARGET) (v40_15.dev.get F.BAR2_CTRL_LINK) = (131072, 4096) ∧ v40_15.dev.get F.BAR2_CTRL_TARGET = 1) :=
  ⟨⟨State.safe_of (by decide +kernel), State.shaped_of (by decide +kernel)⟩,
    ⟨State.safe_of (by decide +kernel), State.shaped_of (by decide +kernel)⟩,
    ⟨State.safe_of (by decide +kernel), State.shaped_of (by decide +kernel), by decide +kernel⟩,
    ⟨State.safe_of (by decide +kernel), State.shaped_of (by decide +kernel), by decide +kernel⟩,
    ⟨State.safe_of (by decide +kernel), State.shaped_of (by decide +kernel), by decide +kernel⟩,
    ⟨State.safe_of (by decide +kernel), State.shaped_of (by decide +kernel), by decide +kernel⟩,
    ⟨State.safe_of (by decide +kernel), State.shaped_of (by decide +kernel), by decide +kernel⟩,
    ⟨State.safe_of (by decide +kernel), State.shaped_of (by decide +kernel), by decide +kernel⟩,
    ⟨State.safe_of (by decide +kernel), State.shaped_of (by decide +kernel), by decide +kernel⟩,
    ⟨State.safe_of (by decide +kernel), State.shaped_of (by decide +kernel), by decide +kernel⟩⟩

theorem witness_RingCommandsRunAndComplete :
    (v40_16.Safe ∧ v40_16.Shaped ∧ v40_16.Takes 0 (cmdC 0 [] 0)) ∧
    (v40_17.Safe ∧ v40_17.Shaped ∧ Dev.nextCmd v40_17.host v40_17.dev = some (cmdC 0 [0] 0) ∧ (cmdC 0 [0] 0).opcode = 0 ∧ v40_17.dev.unitBusy 0 = false ∧ v40_17.dev.md.coresDown = none ∧ Dev.cmdRefusal v40_17.host v40_17.dev (cmdC 0 [0] 0) = some 65521) ∧
    (v40_18.Safe ∧ v40_18.Shaped ∧ v40_18.Takes 1 (cmdC 1 htIn 0) ∧ (∀ (i : Fin 12), v40_18.dev.get (F.SLOT_CFG_TYPE ↑i) ≠ 8)) ∧
    (v40_19.Safe ∧ v40_19.Shaped ∧ v40_19.Takes 1 (cmdC 1 htIn 0) ∧ (∀ (p : PSet), (v40_19.dev.scale (if v40_19.dev.get (F.SLOT_RANK_RANK_A 4) = 0 ∧ v40_19.dev.get (F.SLOT_RANK_RANK_B 4) ≠ 0 then 1 else 0)).journal.getLast? = some p → p.epoch * 65536 ≤ leAt (cmdC 1 htIn 0).input 0 8 * 65536 + leAt (cmdC 1 htIn 0).input 8 2) ∧ v40_19.dev.get (F.SLOT_CFG_TYPE 4) = 8 ∧ (∀ (j : Fin 12), j < 4 → v40_19.dev.get (F.SLOT_CFG_TYPE ↑j) ≠ 8) ∧ leAt (cmdC 1 htIn 0).input 0 8 * 65536 + leAt (cmdC 1 htIn 0).input 8 2 ≤ v40_19.dev.raw * 65536 ∧ leAt (cmdC 1 htIn 0).input 22 4 ≤ 999999999 ∧ bit (leAt (cmdC 1 htIn 0).input 29 1) 0 = false) ∧
    (v40_20.Safe ∧ v40_20.Shaped ∧ v40_20.Takes 2 (cmdC 2 (lcIn 0 0 8 32) 8) ∧ v40_20.dev.region (leAt (cmdC 2 (lcIn 0 0 8 32) 8).input 0 1) (leAt (cmdC 2 (lcIn 0 0 8 32) 8).input 1 1 % 16) = (4096, 65536) ∧ leAt (cmdC 2 (lcIn 0 0 8 32) 8).input 1 1 < 16 ∧ leAt (cmdC 2 (lcIn 0 0 8 32) 8).input 0 1 ≤ 1 ∧ 0 < leAt (cmdC 2 (lcIn 0 0 8 32) 8).input 4 4 ∧ leAt (cmdC 2 (lcIn 0 0 8 32) 8).input 4 4 ≤ 16777216 ∧ leAt (cmdC 2 (lcIn 0 0 8 32) 8).input 8 8 + leAt (cmdC 2 (lcIn 0 0 8 32) 8).input 4 4 ≤ 65536 ∧ leAt (cmdC 2 (lcIn 0 0 8 32) 8).input 2 1 = 0 ∧ leAt (cmdC 2 (lcIn 0 0 8 32) 8).input 4 4 ≤ (cmdC 2 (lcIn 0 0 8 32) 8).outMax) ∧
    (v40_21.Safe ∧ v40_21.Shaped ∧ v40_21.Takes 2 (cmdC 2 (lcIn 0 1 8 32) 8) ∧ v40_21.dev.region (leAt (cmdC 2 (lcIn 0 1 8 32) 8).input 0 1) (leAt (cmdC 2 (lcIn 0 1 8 32) 8).input 1 1 % 16) = (4096, 65536) ∧ leAt (cmdC 2 (lcIn 0 1 8 32) 8).input 1 1 < 16 ∧ leAt (cmdC 2 (lcIn 0 1 8 32) 8).input 0 1 = 0 ∧ 0 < leAt (cmdC 2 (lcIn 0 1 8 32) 8).input 4 4 ∧ leAt (cmdC 2 (lcIn 0 1 8 32) 8).input 4 4 ≤ 16777216 ∧ leAt (cmdC 2 (lcIn 0 1 8 32) 8).input 8 8 + leAt (cmdC 2 (lcIn 0 1 8 32) 8).input 4 4 ≤ 65536 ∧ leAt (cmdC 2 (lcIn 0 1 8 32) 8).input 2 1 ≠ 0) ∧
    (v40_22.Safe ∧ v40_22.Shaped ∧ v40_22.Takes 2 (cmdC 2 (lcIn 0 1 0 32) 8) ∧ v40_22.dev.region (leAt (cmdC 2 (lcIn 0 1 0 32) 8).input 0 1) (leAt (cmdC 2 (lcIn 0 1 0 32) 8).input 1 1 % 16) = (4096, 65536) ∧ leAt (cmdC 2 (lcIn 0 1 0 32) 8).input 1 1 < 16 ∧ leAt (cmdC 2 (lcIn 0 1 0 32) 8).input 4 4 = 0) ∧
    (v40_23.Safe ∧ v40_23.Shaped ∧ v40_23.Takes 2 (cmdC 2 (lcIn 1 1 8 32) 8) ∧ v40_23.dev.region (leAt (cmdC 2 (lcIn 1 1 8 32) 8).input 0 1) (leAt (cmdC 2 (lcIn 1 1 8 32) 8).input 1 1 % 16) = (131072, 4096) ∧ leAt (cmdC 2 (lcIn 1 1 8 32) 8).input 1 1 < 16 ∧ leAt (cmdC 2 (lcIn 1 1 8 32) 8).input 0 1 = 1 ∧ 0 < leAt (cmdC 2 (lcIn 1 1 8 32) 8).input 4 4 ∧ leAt (cmdC 2 (lcIn 1 1 8 32) 8).input 4 4 ≤ 16777216 ∧ leAt (cmdC 2 (lcIn 1 1 8 32) 8).input 8 8 + leAt (cmdC 2 (lcIn 1 1 8 32) 8).input 4 4 ≤ 4096 ∧ leAt (cmdC 2 (lcIn 1 1 8 32) 8).input 2 1 ≠ 0) ∧
    (v40_24.Safe ∧ v40_24.Shaped ∧ Dev.nextCmd v40_24.host v40_24.dev = none ∧ v40_24.dev.dmaOk = true ∧ v40_24.dev.pcie.cmds = [cDone 0] ∧ (cDone 0).written = false ∧ (cDone 0).stale = false ∧ (cDone 0).result = some (0, [1, 2, 3]) ∧ (∀ (k : CmdRun), k ∈ [] → k.desc ≠ (cDone 0).desc ∧ k.written = false) ∧ v40_24.dev.get (ringLog2 A.CMDR_BASE) ≤ 12) ∧
    (v40_25.Safe ∧ v40_25.Shaped ∧ Dev.nextCmd v40_25.host v40_25.dev = none ∧ v40_25.dev.dmaOk = true ∧ v40_25.dev.pcie.cmds = [cDone 3, cDone2] ∧ (cDone 3).written = false ∧ (cDone 3).stale = false ∧ (cDone 3).result = some (3, [1, 2, 3]) ∧ (∀ (k : CmdRun), k ∈ [cDone2] → k.desc ≠ (cDone 3).desc ∧ k.written = false) ∧ v40_25.dev.get (ringLog2 A.CMDR_BASE) ≤ 12) :=
  ⟨⟨State.safe_of (by decide +kernel), State.shaped_of (by decide +kernel), State.takes_of (by decide +kernel)⟩,
    ⟨State.safe_of (by decide +kernel), State.shaped_of (by decide +kernel), by decide +kernel⟩,
    ⟨State.safe_of (by decide +kernel), State.shaped_of (by decide +kernel), State.takes_of (by decide +kernel), by decide +kernel⟩,
    ⟨State.safe_of (by decide +kernel), State.shaped_of (by decide +kernel), State.takes_of (by decide +kernel), all_some (by decide +kernel), by decide +kernel⟩,
    ⟨State.safe_of (by decide +kernel), State.shaped_of (by decide +kernel), State.takes_of (by decide +kernel), by decide +kernel⟩,
    ⟨State.safe_of (by decide +kernel), State.shaped_of (by decide +kernel), State.takes_of (by decide +kernel), by decide +kernel⟩,
    ⟨State.safe_of (by decide +kernel), State.shaped_of (by decide +kernel), State.takes_of (by decide +kernel), by decide +kernel⟩,
    ⟨State.safe_of (by decide +kernel), State.shaped_of (by decide +kernel), State.takes_of (by decide +kernel), by decide +kernel⟩,
    ⟨State.safe_of (by decide +kernel), State.shaped_of (by decide +kernel), by decide +kernel⟩,
    ⟨State.safe_of (by decide +kernel), State.shaped_of (by decide +kernel), by decide +kernel⟩⟩

theorem witness_KeyringWrittenRotatedAndMinting :
    (v50_1.Safe ∧ v50_1.Shaped) ∧
    (v50_2.Safe ∧ v50_2.Shaped) ∧
    (v50_3.Safe ∧ v50_3.Shaped) ∧
    (v50_4.Safe ∧ v50_4.Shaped) ∧
    (v50_5.Safe ∧ v50_5.Shaped) ∧
    (v50_6.Safe ∧ v50_6.Shaped ∧ v50_6.dev.flag F.NTS_STATUS_ROT_PENDING = true ∧ v50_6.dev.get64 A.NTS_ROT_EPOCH ≤ v50_6.dev.raw) ∧
    (v50_7.Safe ∧ v50_7.Shaped ∧ v50_7.dev.flag F.NTS_STATUS_ROT_PENDING = true ∧ v50_7.dev.get64 A.NTS_ROT_EPOCH ≤ v50_7.dev.raw) ∧
    (v50_8.Safe ∧ v50_8.Shaped ∧ v50_8.dev.raw < v50_8.dev.get64 A.NTS_ROT_EPOCH) ∧
    (sWr.Safe ∧ sWr.Shaped ∧ sWr.dev.raw < sWr.dev.get64 A.NTS_ROT_EPOCH ∧ sWr.dev.loaded = true ∧ sWr.dev.onBus Req.host = true ∧ (∀ (x : Nat × Arm), x ∈ sWr.dev.bus.arms → x.snd.req ≠ Req.host) ∧ (∀ (x : Limit), x ∈ sWr.dev.pos.limits → x.addr ≠ A.NTS_KEY 3 ∧ x.addr ≠ A.NTS_KEY_1 3)) ∧
    (v50_9.Safe ∧ v50_9.Shaped ∧ v50_9.dev.raw < v50_9.dev.get64 A.NTS_ROT_EPOCH ∧ v50_9.dev.loaded = true ∧ v50_9.dev.onBus Req.host = true ∧ (∀ (x : Nat × Arm), x ∈ v50_9.dev.bus.arms → x.snd.req ≠ Req.host) ∧ (∀ (x : Limit), x ∈ v50_9.dev.pos.limits → x.addr ≠ A.NTS_KEY 3 ∧ x.addr ≠ A.NTS_KEY_1 3)) ∧
    (v50_10.Safe ∧ v50_10.Shaped ∧ v50_10.dev.raw < v50_10.dev.get64 A.NTS_ROT_EPOCH ∧ v50_10.dev.loaded = true ∧ v50_10.dev.onBus Req.host = true ∧ (∀ (x : Nat × Arm), x ∈ v50_10.dev.bus.arms → x.snd.req ≠ Req.host) ∧ (∀ (x : Limit), x ∈ v50_10.dev.pos.limits → x.addr ≠ A.NTS_KEY 1 ∧ x.addr ≠ A.NTS_KEY_1 1)) ∧
    (sMint.Safe ∧ sMint.Shaped ∧ sMint.Takes 64 (cmdC 64 mintIn 300) ∧ sMint.dev.raw < sMint.dev.get64 A.NTS_ROT_EPOCH ∧ beAt (cmdC 64 mintIn 300).input 0 2 = 15 ∧ 2 = leAt (cmdC 64 mintIn 300).input 2 1 ∧ 1 ≤ 2 ∧ 2 ≤ 8 ∧ 8 + 104 * 2 ≤ (cmdC 64 mintIn 300).outMax ∧ sMint.dev.get F.BN_CTRL_STATE ≠ 2 ∧ sMint.dev.ntsMints = some (1, 88, zeros 32)) :=
  ⟨⟨State.safe_of (by decide +kernel), State.shaped_of (by decide +kernel)⟩,
    ⟨State.safe_of (by decide +kernel), State.shaped_of (by decide +kernel)⟩,
    ⟨State.safe_of (by decide +kernel), State.shaped_of (by decide +kernel)⟩,
    ⟨State.safe_of (by decide +kernel), State.shaped_of (by decide +kernel)⟩,
    ⟨State.safe_of (by decide +kernel), State.shaped_of (by decide +kernel)⟩,
    ⟨State.safe_of (by decide +kernel), State.shaped_of (by decide +kernel), by decide +kernel⟩,
    ⟨State.safe_of (by decide +kernel), State.shaped_of (by decide +kernel), by decide +kernel⟩,
    ⟨State.safe_of (by decide +kernel), State.shaped_of (by decide +kernel), by decide +kernel⟩,
    ⟨State.safe_of (by decide +kernel), State.shaped_of (by decide +kernel), by decide +kernel⟩,
    ⟨State.safe_of (by decide +kernel), State.shaped_of (by decide +kernel), by decide +kernel⟩,
    ⟨State.safe_of (by decide +kernel), State.shaped_of (by decide +kernel), by decide +kernel⟩,
    ⟨State.safe_of (by decide +kernel), State.shaped_of (by decide +kernel), State.takes_of (by decide +kernel), by decide +kernel⟩⟩

theorem witness_BigNumberOperationsComputed :
    (v50_11.Safe ∧ v50_11.Shaped ∧ v50_11.BnIdle 32 (cmdC 32 addIn 0) ∧ (bnHdr (cmdC 32 addIn 0).input).lenOk v50_11.dev = true ∧ (bnHdr (cmdC 32 addIn 0).input).sa < slotCount (v50_11.dev.get F.BN_CFG_SLOT_LEN) ∧ (bnHdr (cmdC 32 addIn 0).input).sb < slotCount (v50_11.dev.get F.BN_CFG_SLOT_LEN) ∧ (bnHdr (cmdC 32 addIn 0).input).sm < slotCount (v50_11.dev.get F.BN_CFG_SLOT_LEN) ∧ (bnHdr (cmdC 32 addIn 0).input).sr < slotCount (v50_11.dev.get F.BN_CFG_SLOT_LEN) ∧ v50_11.dev.operand (bnHdr (cmdC 32 addIn 0).input).sa (bnHdr (cmdC 32 addIn 0).input).len ≠ 0 ∧ v50_11.dev.operand (bnHdr (cmdC 32 addIn 0).input).sb (bnHdr (cmdC 32 addIn 0).input).len ≠ 0 ∧ v50_11.dev.operand (bnHdr (cmdC 32 addIn 0).input).sm (bnHdr (cmdC 32 addIn 0).input).len ≠ 1 ∧ v50_11.dev.operand (bnHdr (cmdC 32 addIn 0).input).sa (bnHdr (cmdC 32 addIn 0).input).len < v50_11.dev.operand (bnHdr (cmdC 32 addIn 0).input).sm (bnHdr (cmdC 32 addIn 0).input).len ∧ v50_11.dev.operand (bnHdr (cmdC 32 addIn 0).input).sb (bnHdr (cmdC 32 addIn 0).input).len < v50_11.dev.operand (bnHdr (cmdC 32 addIn 0).input).sm (bnHdr (cmdC 32 addIn 0).input).len) ∧
    (v50_12.Safe ∧ v50_12.Shaped ∧ v50_12.BnIdle 33 (cmdC 33 addIn 0) ∧ (bnHdr (cmdC 33 addIn 0).input).lenOk v50_12.dev = true ∧ (bnHdr (cmdC 33 addIn 0).input).sa < slotCount (v50_12.dev.get F.BN_CFG_SLOT_LEN) ∧ (bnHdr (cmdC 33 addIn 0).input).sb < slotCount (v50_12.dev.get F.BN_CFG_SLOT_LEN) ∧ (bnHdr (cmdC 33 addIn 0).input).sm < slotCount (v50_12.dev.get F.BN_CFG_SLOT_LEN) ∧ (bnHdr (cmdC 33 addIn 0).input).sr < slotCount (v50_12.dev.get F.BN_CFG_SLOT_LEN) ∧ v50_12.dev.operand (bnHdr (cmdC 33 addIn 0).input).sa (bnHdr (cmdC 33 addIn 0).input).len ≠ 0 ∧ v50_12.dev.operand (bnHdr (cmdC 33 addIn 0).input).sb (bnHdr (cmdC 33 addIn 0).input).len ≠ 0 ∧ v50_12.dev.operand (bnHdr (cmdC 33 addIn 0).input).sm (bnHdr (cmdC 33 addIn 0).input).len ≠ 1 ∧ v50_12.dev.operand (bnHdr (cmdC 33 addIn 0).input).sa (bnHdr (cmdC 33 addIn 0).input).len < v50_12.dev.operand (bnHdr (cmdC 33 addIn 0).input).sm (bnHdr (cmdC 33 addIn 0).input).len ∧ v50_12.dev.operand (bnHdr (cmdC 33 addIn 0).input).sb (bnHdr (cmdC 33 addIn 0).input).len < v50_12.dev.operand (bnHdr (cmdC 33 addIn 0).input).sm (bnHdr (cmdC 33 addIn 0).input).len) ∧
    (v50_13.Safe ∧ v50_13.Shaped ∧ v50_13.BnIdle 34 (cmdC 34 addIn 0) ∧ (bnHdr (cmdC 34 addIn 0).input).lenOk v50_13.dev = true ∧ (bnHdr (cmdC 34 addIn 0).input).sa < slotCount (v50_13.dev.get F.BN_CFG_SLOT_LEN) ∧ (bnHdr (cmdC 34 addIn 0).input).sb < slotCount (v50_13.dev.get F.BN_CFG_SLOT_LEN) ∧ (bnHdr (cmdC 34 addIn 0).input).sm < slotCount (v50_13.dev.get F.BN_CFG_SLOT_LEN) ∧ (bnHdr (cmdC 34 addIn 0).input).sr < slotCount (v50_13.dev.get F.BN_CFG_SLOT_LEN) ∧ v50_13.dev.operand (bnHdr (cmdC 34 addIn 0).input).sa (bnHdr (cmdC 34 addIn 0).input).len ≠ 0 ∧ v50_13.dev.operand (bnHdr (cmdC 34 addIn 0).input).sb (bnHdr (cmdC 34 addIn 0).input).len ≠ 0 ∧ v50_13.dev.operand (bnHdr (cmdC 34 addIn 0).input).sm (bnHdr (cmdC 34 addIn 0).input).len ≠ 1 ∧ v50_13.dev.operand (bnHdr (cmdC 34 addIn 0).input).sa (bnHdr (cmdC 34 addIn 0).input).len < v50_13.dev.operand (bnHdr (cmdC 34 addIn 0).input).sm (bnHdr (cmdC 34 addIn 0).input).len ∧ v50_13.dev.operand (bnHdr (cmdC 34 addIn 0).input).sb (bnHdr (cmdC 34 addIn 0).input).len < v50_13.dev.operand (bnHdr (cmdC 34 addIn 0).input).sm (bnHdr (cmdC 34 addIn 0).input).len ∧ v50_13.dev.operand (bnHdr (cmdC 34 addIn 0).input).sm (bnHdr (cmdC 34 addIn 0).input).len % 2 = 1) ∧
    (v50_14.Safe ∧ v50_14.Shaped ∧ v50_14.BnIdle 32 (cmdC 32 addIn 0) ∧ (bnHdr (cmdC 32 addIn 0).input).lenOk v50_14.dev = true ∧ (bnHdr (cmdC 32 addIn 0).input).sa < slotCount (v50_14.dev.get F.BN_CFG_SLOT_LEN) ∧ (bnHdr (cmdC 32 addIn 0).input).sb < slotCount (v50_14.dev.get F.BN_CFG_SLOT_LEN) ∧ (bnHdr (cmdC 32 addIn 0).input).sm < slotCount (v50_14.dev.get F.BN_CFG_SLOT_LEN) ∧ (bnHdr (cmdC 32 addIn 0).input).sr < slotCount (v50_14.dev.get F.BN_CFG_SLOT_LEN) ∧ (2 = if v50_14.dev.operand (bnHdr (cmdC 32 addIn 0).input).sa (bnHdr (cmdC 32 addIn 0).input).len = 0 ∨ v50_14.dev.operand (bnHdr (cmdC 32 addIn 0).input).sb (bnHdr (cmdC 32 addIn 0).input).len = 0 ∨ v50_14.dev.operand (bnHdr (cmdC 32 addIn 0).input).sm (bnHdr (cmdC 32 addIn 0).input).len = 0 then 2 else if v50_14.dev.operand (bnHdr (cmdC 32 addIn 0).input).sm (bnHdr (cmdC 32 addIn 0).input).len = 1 then 3 else if v50_14.dev.operand (bnHdr (cmdC 32 addIn 0).input).sm (bnHdr (cmdC 32 addIn 0).input).len ≤ v50_14.dev.operand (bnHdr (cmdC 32 addIn 0).input).sa (bnHdr (cmdC 32 addIn 0).input).len ∨ v50_14.dev.operand (bnHdr (cmdC 32 addIn 0).input).sm (bnHdr (cmdC 32 addIn 0).input).len ≤ v50_14.dev.operand (bnHdr (cmdC 32 addIn 0).input).sb (bnHdr (cmdC 32 addIn 0).input).len then 4 else 0) ∧ 2 ≠ 0) :=
  ⟨⟨State.safe_of (by decide +kernel), State.shaped_of (by decide +kernel), State.bnIdle_of (by decide +kernel), by decide +kernel⟩,
    ⟨State.safe_of (by decide +kernel), State.shaped_of (by decide +kernel), State.bnIdle_of (by decide +kernel), by decide +kernel⟩,
    ⟨State.safe_of (by decide +kernel), State.shaped_of (by decide +kernel), State.bnIdle_of (by decide +kernel), by decide +kernel⟩,
    ⟨State.safe_of (by decide +kernel), State.shaped_of (by decide +kernel), State.bnIdle_of (by decide +kernel), by decide +kernel⟩⟩

theorem witness_BigNumberOperationsComputed_b :
    (v50_15.Safe ∧ v50_15.Shaped ∧ v50_15.BnIdle 32 (cmdC 32 addIn 0) ∧ (bnHdr (cmdC 32 addIn 0).input).lenOk v50_15.dev = true ∧ (bnHdr (cmdC 32 addIn 0).input).sa < slotCount (v50_15.dev.get F.BN_CFG_SLOT_LEN) ∧ (bnHdr (cmdC 32 addIn 0).input).sb < slotCount (v50_15.dev.get F.BN_CFG_SLOT_LEN) ∧ (bnHdr (cmdC 32 addIn 0).input).sm < slotCount (v50_15.dev.get F.BN_CFG_SLOT_LEN) ∧ (bnHdr (cmdC 32 addIn 0).input).sr < slotCount (v50_15.dev.get F.BN_CFG_SLOT_LEN) ∧ (3 = if v50_15.dev.operand (bnHdr (cmdC 32 addIn 0).input).sa (bnHdr (cmdC 32 addIn 0).input).len = 0 ∨ v50_15.dev.operand (bnHdr (cmdC 32 addIn 0).input).sb (bnHdr (cmdC 32 addIn 0).input).len = 0 ∨ v50_15.dev.operand (bnHdr (cmdC 32 addIn 0).input).sm (bnHdr (cmdC 32 addIn 0).input).len = 0 then 2 else if v50_15.dev.operand (bnHdr (cmdC 32 addIn 0).input).sm (bnHdr (cmdC 32 addIn 0).input).len = 1 then 3 else if v50_15.dev.operand (bnHdr (cmdC 32 addIn 0).input).sm (bnHdr (cmdC 32 addIn 0).input).len ≤ v50_15.dev.operand (bnHdr (cmdC 32 addIn 0).input).sa (bnHdr (cmdC 32 addIn 0).input).len ∨ v50_15.dev.operand (bnHdr (cmdC 32 addIn 0).input).sm (bnHdr (cmdC 32 addIn 0).input).len ≤ v50_15.dev.operand (bnHdr (cmdC 32 addIn 0).input).sb (bnHdr (cmdC 32 addIn 0).input).len then 4 else 0) ∧ 3 ≠ 0) ∧
    (v50_16.Safe ∧ v50_16.Shaped ∧ v50_16.BnIdle 32 (cmdC 32 addIn 0) ∧ (bnHdr (cmdC 32 addIn 0).input).lenOk v50_16.dev = true ∧ (bnHdr (cmdC 32 addIn 0).input).sa < slotCount (v50_16.dev.get F.BN_CFG_SLOT_LEN) ∧ (bnHdr (cmdC 32 addIn 0).input).sb < slotCount (v50_16.dev.get F.BN_CFG_SLOT_LEN) ∧ (bnHdr (cmdC 32 addIn 0).input).sm < slotCount (v50_16.dev.get F.BN_CFG_SLOT_LEN) ∧ (bnHdr (cmdC 32 addIn 0).input).sr < slotCount (v50_16.dev.get F.BN_CFG_SLOT_LEN) ∧ (4 = if v50_16.dev.operand (bnHdr (cmdC 32 addIn 0).input).sa (bnHdr (cmdC 32 addIn 0).input).len = 0 ∨ v50_16.dev.operand (bnHdr (cmdC 32 addIn 0).input).sb (bnHdr (cmdC 32 addIn 0).input).len = 0 ∨ v50_16.dev.operand (bnHdr (cmdC 32 addIn 0).input).sm (bnHdr (cmdC 32 addIn 0).input).len = 0 then 2 else if v50_16.dev.operand (bnHdr (cmdC 32 addIn 0).input).sm (bnHdr (cmdC 32 addIn 0).input).len = 1 then 3 else if v50_16.dev.operand (bnHdr (cmdC 32 addIn 0).input).sm (bnHdr (cmdC 32 addIn 0).input).len ≤ v50_16.dev.operand (bnHdr (cmdC 32 addIn 0).input).sa (bnHdr (cmdC 32 addIn 0).input).len ∨ v50_16.dev.operand (bnHdr (cmdC 32 addIn 0).input).sm (bnHdr (cmdC 32 addIn 0).input).len ≤ v50_16.dev.operand (bnHdr (cmdC 32 addIn 0).input).sb (bnHdr (cmdC 32 addIn 0).input).len then 4 else 0) ∧ 4 ≠ 0) ∧
    (v50_17.Safe ∧ v50_17.Shaped ∧ v50_17.BnIdle 35 (cmdC 35 addIn 0) ∧ (bnHdr (cmdC 35 addIn 0).input).lenOk v50_17.dev = true ∧ (bnHdr (cmdC 35 addIn 0).input).sa < slotCount (v50_17.dev.get F.BN_CFG_SLOT_LEN) ∧ (bnHdr (cmdC 35 addIn 0).input).sb < slotCount (v50_17.dev.get F.BN_CFG_SLOT_LEN) ∧ (bnHdr (cmdC 35 addIn 0).input).sm < slotCount (v50_17.dev.get F.BN_CFG_SLOT_LEN) ∧ (bnHdr (cmdC 35 addIn 0).input).sr < slotCount (v50_17.dev.get F.BN_CFG_SLOT_LEN) ∧ 1 < v50_17.dev.operand (bnHdr (cmdC 35 addIn 0).input).sa (bnHdr (cmdC 35 addIn 0).input).len ∧ 1 < v50_17.dev.operand (bnHdr (cmdC 35 addIn 0).input).sb (bnHdr (cmdC 35 addIn 0).input).len ∧ v50_17.dev.operand (bnHdr (cmdC 35 addIn 0).input).sa (bnHdr (cmdC 35 addIn 0).input).len < v50_17.dev.operand (bnHdr (cmdC 35 addIn 0).input).sm (bnHdr (cmdC 35 addIn 0).input).len ∧ v50_17.dev.operand (bnHdr (cmdC 35 addIn 0).input).sm (bnHdr (cmdC 35 addIn 0).input).len % 2 = 1) ∧
    (v50_18.Safe ∧ v50_18.Shaped ∧ v50_18.BnIdle 37 (cmdC 37 addIn 0) ∧ (bnHdr (cmdC 37 addIn 0).input).lenOk v50_18.dev = true ∧ (bnHdr (cmdC 37 addIn 0).input).sa < slotCount (v50_18.dev.get F.BN_CFG_SLOT_LEN) ∧ (bnHdr (cmdC 37 addIn 0).input).sb < slotCount (v50_18.dev.get F.BN_CFG_SLOT_LEN) ∧ (bnHdr (cmdC 37 addIn 0).input).sm < slotCount (v50_18.dev.get F.BN_CFG_SLOT_LEN) ∧ (bnHdr (cmdC 37 addIn 0).input).sr < slotCount (v50_18.dev.get F.BN_CFG_SLOT_LEN) ∧ v50_18.dev.operand (bnHdr (cmdC 37 addIn 0).input).sa (bnHdr (cmdC 37 addIn 0).input).len ≠ 0 ∧ v50_18.dev.operand (bnHdr (cmdC 37 addIn 0).input).sm (bnHdr (cmdC 37 addIn 0).input).len ≠ 1 ∧ v50_18.dev.operand (bnHdr (cmdC 37 addIn 0).input).sa (bnHdr (cmdC 37 addIn 0).input).len < v50_18.dev.operand (bnHdr (cmdC 37 addIn 0).input).sm (bnHdr (cmdC 37 addIn 0).input).len) :=
  ⟨⟨State.safe_of (by decide +kernel), State.shaped_of (by decide +kernel), State.bnIdle_of (by decide +kernel), by decide +kernel⟩,
    ⟨State.safe_of (by decide +kernel), State.shaped_of (by decide +kernel), State.bnIdle_of (by decide +kernel), by decide +kernel⟩,
    ⟨State.safe_of (by decide +kernel), State.shaped_of (by decide +kernel), State.bnIdle_of (by decide +kernel), by decide +kernel⟩,
    ⟨State.safe_of (by decide +kernel), State.shaped_of (by decide +kernel), State.bnIdle_of (by decide +kernel), by decide +kernel⟩⟩

theorem witness_BigNumberOperationsComputed_c :
    (v50_19.Safe ∧ v50_19.Shaped ∧ v50_19.BnIdle 37 (cmdC 37 addIn 0) ∧ (bnHdr (cmdC 37 addIn 0).input).lenOk v50_19.dev = true ∧ (bnHdr (cmdC 37 addIn 0).input).sa < slotCount (v50_19.dev.get F.BN_CFG_SLOT_LEN) ∧ (bnHdr (cmdC 37 addIn 0).input).sb < slotCount (v50_19.dev.get F.BN_CFG_SLOT_LEN) ∧ (bnHdr (cmdC 37 addIn 0).input).sm < slotCount (v50_19.dev.get F.BN_CFG_SLOT_LEN) ∧ (bnHdr (cmdC 37 addIn 0).input).sr < slotCount (v50_19.dev.get F.BN_CFG_SLOT_LEN) ∧ v50_19.dev.operand (bnHdr (cmdC 37 addIn 0).input).sa (bnHdr (cmdC 37 addIn 0).input).len ≠ 0 ∧ v50_19.dev.operand (bnHdr (cmdC 37 addIn 0).input).sm (bnHdr (cmdC 37 addIn 0).input).len ≠ 1 ∧ v50_19.dev.operand (bnHdr (cmdC 37 addIn 0).input).sa (bnHdr (cmdC 37 addIn 0).input).len < v50_19.dev.operand (bnHdr (cmdC 37 addIn 0).input).sm (bnHdr (cmdC 37 addIn 0).input).len) ∧
    (v50_20.Safe ∧ v50_20.Shaped ∧ v50_20.BnIdle 36 (cmdC 36 crtIn 0) ∧ (bnHdr (cmdC 36 crtIn 0).input).lenOk v50_20.dev = true ∧ (∀ (i : Nat), i ∈ [(bnHdr (cmdC 36 crtIn 0).input).sa, (bnHdr (cmdC 36 crtIn 0).input).sa + 1, (bnHdr (cmdC 36 crtIn 0).input).sb, (bnHdr (cmdC 36 crtIn 0).input).sc, (bnHdr (cmdC 36 crtIn 0).input).sm, (bnHdr (cmdC 36 crtIn 0).input).sm + 1, (bnHdr (cmdC 36 crtIn 0).input).sr] → i < slotCount (v50_20.dev.get F.BN_CFG_SLOT_LEN)) ∧ List.map (fun (x : Nat) => v50_20.dev.operand x ((bnHdr (cmdC 36 crtIn 0).input).len / 2)) [(bnHdr (cmdC 36 crtIn 0).input).sa, (bnHdr (cmdC 36 crtIn 0).input).sa + 1, (bnHdr (cmdC 36 crtIn 0).input).sb, (bnHdr (cmdC 36 crtIn 0).input).sm, (bnHdr (cmdC 36 crtIn 0).input).sm + 1] = [3, 5, 4, 11, 13] ∧ 60 = v50_20.dev.operand (bnHdr (cmdC 36 crtIn 0).input).sc (bnHdr (cmdC 36 crtIn 0).input).len ∧ (∀ (x : Nat), x ∈ [3, 5, 4, 60, 11, 13] → 1 < x) ∧ 3 < 11 ∧ 5 < 13 ∧ 4 < 11 ∧ 60 < 11 * 13 ∧ 11 % 2 = 1 ∧ 13 % 2 = 1) ∧
    (v50_21.Safe ∧ v50_21.Shaped ∧ v50_21.BnIdle 38 (cmdC 38 ecIn 0) ∧ (p256 = (if false = true then p384 else p256)) ∧ false = decide ((bnHdr (cmdC 38 ecIn 0).input).curve = 1) ∧ (bnHdr (cmdC 38 ecIn 0).input).curve < 2 ∧ 8 * p256.size ≤ v50_21.dev.slotLen ∧ (bnHdr (cmdC 38 ecIn 0).input).key = false ∧ (bnHdr (cmdC 38 ecIn 0).input).sa + 1 < slotCount (v50_21.dev.get F.BN_CFG_SLOT_LEN) ∧ (bnHdr (cmdC 38 ecIn 0).input).sb + 1 < slotCount (v50_21.dev.get F.BN_CFG_SLOT_LEN) ∧ (bnHdr (cmdC 38 ecIn 0).input).sr + 1 < slotCount (v50_21.dev.get F.BN_CFG_SLOT_LEN) ∧ (bnHdr (cmdC 38 ecIn 0).input).sc + 1 < slotCount (v50_21.dev.get F.BN_CFG_SLOT_LEN) ∧ 1 < v50_21.dev.operand (bnHdr (cmdC 38 ecIn 0).input).sa (8 * p256.size) ∧ v50_21.dev.operand (bnHdr (cmdC 38 ecIn 0).input).sa (8 * p256.size) < p256.n) ∧
    (v50_22.Safe ∧ v50_22.Shaped ∧ v50_22.BnIdle 39 (cmdC 39 ecIn 0) ∧ (p256 = (if false = true then p384 else p256)) ∧ false = decide ((bnHdr (cmdC 39 ecIn 0).input).curve = 1) ∧ (bnHdr (cmdC 39 ecIn 0).input).curve < 2 ∧ 8 * p256.size ≤ v50_22.dev.slotLen ∧ (bnHdr (cmdC 39 ecIn 0).input).key = false ∧ (bnHdr (cmdC 39 ecIn 0).input).sa + 1 < slotCount (v50_22.dev.get F.BN_CFG_SLOT_LEN) ∧ (bnHdr (cmdC 39 ecIn 0).input).sb + 1 < slotCount (v50_22.dev.get F.BN_CFG_SLOT_LEN) ∧ (bnHdr (cmdC 39 ecIn 0).input).sr + 1 < slotCount (v50_22.dev.get F.BN_CFG_SLOT_LEN) ∧ (bnHdr (cmdC 39 ecIn 0).input).sc + 1 < slotCount (v50_22.dev.get F.BN_CFG_SLOT_LEN) ∧ 0 < v50_22.dev.operand (bnHdr (cmdC 39 ecIn 0).input).sc (8 * p256.size) ∧ v50_22.dev.operand (bnHdr (cmdC 39 ecIn 0).input).sc (8 * p256.size) < p256.n ∧ 0 < v50_22.dev.operand ((bnHdr (cmdC 39 ecIn 0).input).sc + 1) (8 * p256.size) ∧ v50_22.dev.operand ((bnHdr (cmdC 39 ecIn 0).input).sc + 1) (8 * p256.size) < p256.n ∧ v50_22.dev.operand (bnHdr (cmdC 39 ecIn 0).input).sa (8 * p256.size) < p256.p ∧ v50_22.dev.operand ((bnHdr (cmdC 39 ecIn 0).input).sa + 1) (8 * p256.size) < p256.p ∧ p256.on (v50_22.dev.operand (bnHdr (cmdC 39 ecIn 0).input).sa (8 * p256.size)) (v50_22.dev.operand ((bnHdr (cmdC 39 ecIn 0).input).sa + 1) (8 * p256.size)) = true ∧ (¬(v50_22.dev.operand (bnHdr (cmdC 39 ecIn 0).input).sa (8 * p256.size) = 0 ∧ v50_22.dev.operand ((bnHdr (cmdC 39 ecIn 0).input).sa + 1) (8 * p256.size) = 0))) :=
  ⟨⟨State.safe_of (by decide +kernel), State.shaped_of (by decide +kernel), State.bnIdle_of (by decide +kernel), by decide +kernel⟩,
    ⟨State.safe_of (by decide +kernel), State.shaped_of (by decide +kernel), State.bnIdle_of (by decide +kernel), by decide +kernel⟩,
    ⟨State.safe_of (by decide +kernel), State.shaped_of (by decide +kernel), State.bnIdle_of (by decide +kernel), rfl, by decide +kernel⟩,
    ⟨State.safe_of (by decide +kernel), State.shaped_of (by decide +kernel), State.bnIdle_of (by decide +kernel), rfl, by decide +kernel⟩⟩

theorem witness_BigNumberOperationsComputed_d :
    (v50_23.Safe ∧ v50_23.Shaped ∧ v50_23.BnIdle 43 (cmdC 43 ecIn 0) ∧ (p256 = (if false = true then p384 else p256)) ∧ false = decide ((bnHdr (cmdC 43 ecIn 0).input).curve = 1) ∧ (bnHdr (cmdC 43 ecIn 0).input).curve < 2 ∧ 8 * p256.size ≤ v50_23.dev.slotLen ∧ (bnHdr (cmdC 43 ecIn 0).input).key = false ∧ (bnHdr (cmdC 43 ecIn 0).input).sa + 1 < slotCount (v50_23.dev.get F.BN_CFG_SLOT_LEN) ∧ (bnHdr (cmdC 43 ecIn 0).input).sb + 1 < slotCount (v50_23.dev.get F.BN_CFG_SLOT_LEN) ∧ (bnHdr (cmdC 43 ecIn 0).input).sr + 1 < slotCount (v50_23.dev.get F.BN_CFG_SLOT_LEN) ∧ (bnHdr (cmdC 43 ecIn 0).input).sc + 1 < slotCount (v50_23.dev.get F.BN_CFG_SLOT_LEN) ∧ 1 < v50_23.dev.operand (bnHdr (cmdC 43 ecIn 0).input).sa (8 * p256.size) ∧ v50_23.dev.operand (bnHdr (cmdC 43 ecIn 0).input).sa (8 * p256.size) < p256.n ∧ v50_23.dev.operand (bnHdr (cmdC 43 ecIn 0).input).sb (8 * p256.size) < p256.p ∧ v50_23.dev.operand ((bnHdr (cmdC 43 ecIn 0).input).sb + 1) (8 * p256.size) < p256.p ∧ p256.on (v50_23.dev.operand (bnHdr (cmdC 43 ecIn 0).input).sb (8 * p256.size)) (v50_23.dev.operand ((bnHdr (cmdC 43 ecIn 0).input).sb + 1) (8 * p256.size)) = true ∧ (¬(v50_23.dev.operand (bnHdr (cmdC 43 ecIn 0).input).sb (8 * p256.size) = 0 ∧ v50_23.dev.operand ((bnHdr (cmdC 43 ecIn 0).input).sb + 1) (8 * p256.size) = 0))) ∧
    (v50_24.Safe ∧ v50_24.Shaped ∧ v50_24.BnIdle 40 (cmdC 40 edIn 0) ∧ (bnHdr (cmdC 40 edIn 0).input).key = false ∧ (bnHdr (cmdC 40 edIn 0).input).sa < slotCount (v50_24.dev.get F.BN_CFG_SLOT_LEN) ∧ (bnHdr (cmdC 40 edIn 0).input).sr + 1 < slotCount (v50_24.dev.get F.BN_CFG_SLOT_LEN) ∧ v50_24.dev.operand (bnHdr (cmdC 40 edIn 0).input).sa 256 ≠ 0) ∧
    (v50_25.Safe ∧ v50_25.Shaped ∧ v50_25.BnIdle 41 (cmdC 41 edIn 0) ∧ edDecode (leBytes 32 (v50_25.dev.operand (bnHdr (cmdC 41 edIn 0).input).sa 256)) = some ((edDecode (leBytes 32 edB)).getD edZero) ∧ edDecode (leBytes 32 (v50_25.dev.operand (bnHdr (cmdC 41 edIn 0).input).sc 256)) = some ((edDecode (leBytes 32 edB)).getD edZero) ∧ (bnHdr (cmdC 41 edIn 0).input).sa < slotCount (v50_25.dev.get F.BN_CFG_SLOT_LEN) ∧ (bnHdr (cmdC 41 edIn 0).input).sc + 1 < slotCount (v50_25.dev.get F.BN_CFG_SLOT_LEN) ∧ 0 < v50_25.dev.operand ((bnHdr (cmdC 41 edIn 0).input).sc + 1) 256 ∧ v50_25.dev.operand ((bnHdr (cmdC 41 edIn 0).input).sc + 1) 256 < edL ∧ ((edDecode (leBytes 32 edB)).getD edZero).same edZero = false) ∧
    (v50_26.Safe ∧ v50_26.Shaped ∧ v50_26.BnIdle 44 (cmdC 44 edIn 32) ∧ ((if (bnHdr (cmdC 44 edIn 32).input).sha384 = true then sha384 (List.drop 16 (cmdC 44 edIn 32).input) else sha256 (List.drop 16 (cmdC 44 edIn 32).input)).length ≤ (cmdC 44 edIn 32).outMax)) ∧
    (v50_27.Safe ∧ v50_27.Shaped ∧ v50_27.BnIdle 42 (cmdC 42 ecIn 0) ∧ (bnHdr (cmdC 42 ecIn 0).input).key = false ∧ (bnHdr (cmdC 42 ecIn 0).input).sa < slotCount (v50_27.dev.get F.BN_CFG_SLOT_LEN) ∧ (bnHdr (cmdC 42 ecIn 0).input).sb < slotCount (v50_27.dev.get F.BN_CFG_SLOT_LEN) ∧ (bnHdr (cmdC 42 ecIn 0).input).sr < slotCount (v50_27.dev.get F.BN_CFG_SLOT_LEN) ∧ 1 < v50_27.dev.operand (bnHdr (cmdC 42 ecIn 0).input).sb 256 ∧ v50_27.dev.operand (bnHdr (cmdC 42 ecIn 0).input).sb 256 < p25519 ∧ v50_27.dev.operand (bnHdr (cmdC 42 ecIn 0).input).sa 256 ≠ 0) :=
  ⟨⟨State.safe_of (by decide +kernel), State.shaped_of (by decide +kernel), State.bnIdle_of (by decide +kernel), rfl, by decide +kernel⟩,
    ⟨State.safe_of (by decide +kernel), State.shaped_of (by decide +kernel), State.bnIdle_of (by decide +kernel), by decide +kernel⟩,
    ⟨State.safe_of (by decide +kernel), State.shaped_of (by decide +kernel), State.bnIdle_of (by decide +kernel), ed_some (by decide +kernel) (by decide +kernel), ed_some (by decide +kernel) (by decide +kernel), by decide +kernel⟩,
    ⟨State.safe_of (by decide +kernel), State.shaped_of (by decide +kernel), State.bnIdle_of (by decide +kernel), by decide +kernel⟩,
    ⟨State.safe_of (by decide +kernel), State.shaped_of (by decide +kernel), State.bnIdle_of (by decide +kernel), by decide +kernel⟩⟩

theorem witness_BigNumberEngineCompletesAndWipes :
    (v51_1.Safe ∧ v51_1.Shaped ∧ v51_1.dev.bn = some v51_2 ∧ v51_2.due ≤ v51_1.dev.raw ∧ v51_1.dev.get F.BN_CTRL_STATE = 0 ∧ (∀ (k : CmdRun), k ∈ v51_1.dev.pcie.cmds → k.result = none → cmdUnit k.opcode = some 2 → k.desc = v51_2.desc)) ∧
    (v51_3.Safe ∧ v51_3.Shaped ∧ v51_3.dev.bn = some (jb (KeyFx.put 3 mintKey) []) ∧ (jb (KeyFx.put 3 mintKey) []).due ≤ v51_3.dev.raw ∧ v51_3.dev.get F.BN_CTRL_STATE = 0 ∧ (∀ (k : CmdRun), k ∈ v51_3.dev.pcie.cmds → k.result = none → cmdUnit k.opcode = some 2 → k.desc = (jb (KeyFx.put 3 mintKey) []).desc)) ∧
    (v51_4.Safe ∧ v51_4.Shaped ∧ v51_4.dev.bn = some (jb (KeyFx.erase 5) []) ∧ (jb (KeyFx.erase 5) []).due ≤ v51_4.dev.raw ∧ v51_4.dev.get F.BN_CTRL_STATE = 0 ∧ (∀ (k : CmdRun), k ∈ v51_4.dev.pcie.cmds → k.result = none → cmdUnit k.opcode = some 2 → k.desc = (jb (KeyFx.erase 5) []).desc)) ∧
    (v51_5.Safe ∧ v51_5.Shaped ∧ v51_5.dev.bn = some (jb (KeyFx.session [1] [2]) []) ∧ (jb (KeyFx.session [1] [2]) []).due ≤ v51_5.dev.raw ∧ v51_5.dev.get F.BN_CTRL_STATE = 0 ∧ (∀ (k : CmdRun), k ∈ v51_5.dev.pcie.cmds → k.result = none → cmdUnit k.opcode = some 2 → k.desc = (jb (KeyFx.session [1] [2]) []).desc)) ∧
    (v51_6.Safe ∧ v51_6.Shaped ∧ v51_6.dev.bn = some (jb (KeyFx.challenge [1]) []) ∧ (jb (KeyFx.challenge [1]) []).due ≤ v51_6.dev.raw ∧ v51_6.dev.get F.BN_CTRL_STATE = 0 ∧ (∀ (k : CmdRun), k ∈ v51_6.dev.pcie.cmds → k.result = none → cmdUnit k.opcode = some 2 → k.desc = (jb (KeyFx.challenge [1]) []).desc)) ∧
    (v51_7.Safe ∧ v51_7.Shaped ∧ v51_7.dev.bn = some (jb KeyFx.lock []) ∧ (jb KeyFx.lock []).due ≤ v51_7.dev.raw ∧ v51_7.dev.get F.BN_CTRL_STATE = 0 ∧ (∀ (k : CmdRun), k ∈ v51_7.dev.pcie.cmds → k.result = none → cmdUnit k.opcode = some 2 → k.desc = (jb KeyFx.lock []).desc)) ∧
    (v51_8.Safe ∧ v51_8.Shaped ∧ v51_8.dev.bn = some (jb KeyFx.none []) ∧ (jb KeyFx.none []).due ≤ v51_8.dev.raw ∧ v51_8.dev.get F.BN_CTRL_STATE = 0 ∧ (∀ (k : CmdRun), k ∈ v51_8.dev.pcie.cmds → k.result = none → cmdUnit k.opcode = some 2 → k.desc = (jb KeyFx.none []).desc)) ∧
    (v51_9.Safe ∧ v51_9.Shaped ∧ v51_9.dev.bn = some v51_10 ∧ v51_9.dev.raw < v51_10.due) ∧
    (warm.Safe ∧ warm.Shaped ∧ warm.dev.bn = none) ∧
    (v51_8.Safe ∧ v51_8.Shaped ∧ v51_8.dev.loaded = true ∧ v51_8.dev.get F.BN_CTRL_STATE = 0) ∧
    (v51_11.Safe ∧ v51_11.Shaped ∧ v51_11.dev.get F.BN_CTRL_STATE = 1 ∧ (∀ (k : CmdRun), k ∈ v51_11.dev.pcie.cmds → k.result = none → cmdUnit k.opcode ≠ some 2)) ∧
    (v51_12.Safe ∧ v51_12.Shaped ∧ v51_12.dev.get F.BN_CTRL_STATE = 1 ∧ (∀ (k : CmdRun), k ∈ v51_12.dev.pcie.cmds → k.result = none → cmdUnit k.opcode ≠ some 2)) ∧
    (v51_13.Safe ∧ v51_13.Shaped ∧ v51_13.dev.get F.BN_CTRL_STATE = 3 ∧ v51_13.dev.flag F.BN_CTRL_LATCHED = false ∧ (∀ (k : CmdRun), k ∈ v51_13.dev.pcie.cmds → k.result = none → cmdUnit k.opcode ≠ some 2)) ∧
    (v51_14.Safe ∧ v51_14.Shaped ∧ v51_14.dev.get F.BN_CTRL_STATE = 3 ∧ v51_14.dev.flag F.BN_CTRL_LATCHED = true) ∧
    (v51_15.Safe ∧ v51_15.Shaped ∧ v51_15.dev.keys.session = some ([1], [2], 5) ∧ 5 + 60 * 800000000 ≤ v51_15.dev.raw) ∧
    (v51_16.Safe ∧ v51_16.Shaped ∧ v51_16.dev.keys.challenge = some ([1], 5) ∧ 5 + 60 * 800000000 ≤ v51_16.dev.raw) ∧
    (v51_17.Safe ∧ v51_17.Shaped ∧ v51_17.dev.keys.challenge = some ([1], 5) ∧ v51_17.dev.raw < 5 + 60 * 800000000) :=
  ⟨⟨State.safe_of (by decide +kernel), State.shaped_of (by decide +kernel), by decide +kernel⟩,
    ⟨State.safe_of (by decide +kernel), State.shaped_of (by decide +kernel), by decide +kernel⟩,
    ⟨State.safe_of (by decide +kernel), State.shaped_of (by decide +kernel), by decide +kernel⟩,
    ⟨State.safe_of (by decide +kernel), State.shaped_of (by decide +kernel), by decide +kernel⟩,
    ⟨State.safe_of (by decide +kernel), State.shaped_of (by decide +kernel), by decide +kernel⟩,
    ⟨State.safe_of (by decide +kernel), State.shaped_of (by decide +kernel), by decide +kernel⟩,
    ⟨State.safe_of (by decide +kernel), State.shaped_of (by decide +kernel), by decide +kernel⟩,
    ⟨State.safe_of (by decide +kernel), State.shaped_of (by decide +kernel), by decide +kernel⟩,
    ⟨State.safe_of (by decide +kernel), State.shaped_of (by decide +kernel), by decide +kernel⟩,
    ⟨State.safe_of (by decide +kernel), State.shaped_of (by decide +kernel), by decide +kernel⟩,
    ⟨State.safe_of (by decide +kernel), State.shaped_of (by decide +kernel), by decide +kernel⟩,
    ⟨State.safe_of (by decide +kernel), State.shaped_of (by decide +kernel), by decide +kernel⟩,
    ⟨State.safe_of (by decide +kernel), State.shaped_of (by decide +kernel), by decide +kernel⟩,
    ⟨State.safe_of (by decide +kernel), State.shaped_of (by decide +kernel), by decide +kernel⟩,
    ⟨State.safe_of (by decide +kernel), State.shaped_of (by decide +kernel), by decide +kernel⟩,
    ⟨State.safe_of (by decide +kernel), State.shaped_of (by decide +kernel), by decide +kernel⟩,
    ⟨State.safe_of (by decide +kernel), State.shaped_of (by decide +kernel), by decide +kernel⟩⟩

theorem witness_KeyCommandsTaken :
    (v51_18.Safe ∧ v51_18.Shaped ∧ v51_18.BnIdle 48 (cmdC 48 kgIn 256) ∧ 256 ≤ (cmdC 48 kgIn 256).outMax ∧ 3 = leAt (cmdC 48 kgIn 256).input 0 1 ∧ 1 = leAt (cmdC 48 kgIn 256).input 1 1 ∧ 8 = leAt (cmdC 48 kgIn 256).input 2 1 ∧ 3 ≤ 15 ∧ 1 ≤ 1 ∧ 1 ≤ 5 ∧ 8 &&& allowedPolicy 1 = 8 ∧ 8 ≤ 63 ∧ v51_18.dev.ntsUses 3 = false ∧ v51_18.dev.keySlot 3 = none) ∧
    (v51_19.Safe ∧ v51_19.Shaped ∧ v51_19.BnIdle 48 (cmdC 48 kgIn 256) ∧ 256 ≤ (cmdC 48 kgIn 256).outMax ∧ 3 = leAt (cmdC 48 kgIn 256).input 0 1 ∧ 1 = leAt (cmdC 48 kgIn 256).input 1 1 ∧ 8 = leAt (cmdC 48 kgIn 256).input 2 1 ∧ 3 ≤ 15 ∧ 1 ≤ 1 ∧ 1 ≤ 5 ∧ 8 &&& allowedPolicy 1 = 8 ∧ 8 ≤ 63 ∧ v51_19.dev.ntsUses 3 = false ∧ v51_19.dev.keySlot 3 ≠ none) ∧
    (v51_20.Safe ∧ v51_20.Shaped ∧ v51_20.BnIdle 48 (cmdC 48 [15, 4, 2, 0] 256) ∧ 256 ≤ (cmdC 48 [15, 4, 2, 0] 256).outMax ∧ 15 = leAt (cmdC 48 [15, 4, 2, 0] 256).input 0 1 ∧ 4 = leAt (cmdC 48 [15, 4, 2, 0] 256).input 1 1 ∧ 2 = leAt (cmdC 48 [15, 4, 2, 0] 256).input 2 1 ∧ 15 ≤ 15 ∧ 1 ≤ 4 ∧ 4 ≤ 5 ∧ 2 &&& allowedPolicy 4 = 2 ∧ 2 ≤ 63 ∧ v51_20.dev.ntsUses 15 = false ∧ v51_20.dev.keySlot 15 = none) ∧
    (v51_21.Safe ∧ v51_21.Shaped ∧ v51_21.BnIdle 49 (cmdC 49 [] 256) ∧ 256 ≤ (cmdC 49 [] 256).outMax) ∧
    (v51_22.Safe ∧ v51_22.Shaped ∧ v51_22.BnIdle 50 (cmdC 50 impIn 256) ∧ 256 ≤ (cmdC 50 impIn 256).outMax ∧ v51_22.dev.keys.session = none) ∧
    (v51_23.Safe ∧ v51_23.Shaped ∧ v51_23.BnIdle 50 (cmdC 50 impIn 256) ∧ 256 ≤ (cmdC 50 impIn 256).outMax ∧ v51_23.dev.keys.session = some (List.replicate 8 1, leBytes 32 77, 3) ∧ slice (cmdC 50 impIn 256).input 0 8 = List.replicate 8 1 ∧ 4 = leAt (cmdC 50 impIn 256).input 8 1 ∧ 1 = leAt (cmdC 50 impIn 256).input 9 1 ∧ 8 = leAt (cmdC 50 impIn 256).input 10 1 ∧ v51_23.dev.fillCode 4 1 8 = none ∧ (cmdC 50 impIn 256).input.length = 60 + matLen 1 ∧ sivOpen (importKek (List.replicate 8 1) (xPub (leBytes 32 77)) (slice (cmdC 50 impIn 256).input 12 32) (leBytes 32 (x25519 (leBytes 32 77) (leNat (slice (cmdC 50 impIn 256).input 12 32))))) [slice (cmdC 50 impIn 256).input 8 3] (slice (cmdC 50 impIn 256).input 44 16) (List.drop 60 (cmdC 50 impIn 256).input) = none) ∧
    (v51_24.Safe ∧ v51_24.Shaped ∧ v51_24.BnIdle 50 (cmdC 50 impOk 256) ∧ 256 ≤ (cmdC 50 impOk 256).outMax ∧ v51_24.dev.keys.session = some (List.replicate 8 1, leBytes 32 77, 3) ∧ slice (cmdC 50 impOk 256).input 0 8 = List.replicate 8 1 ∧ 4 = leAt (cmdC 50 impOk 256).input 8 1 ∧ 1 = leAt (cmdC 50 impOk 256).input 9 1 ∧ 8 = leAt (cmdC 50 impOk 256).input 10 1 ∧ v51_24.dev.fillCode 4 1 8 = none ∧ (cmdC 50 impOk 256).input.length = 60 + matLen 1 ∧ sivOpen (importKek (List.replicate 8 1) (xPub (leBytes 32 77)) (slice (cmdC 50 impOk 256).input 12 32) (leBytes 32 (x25519 (leBytes 32 77) (leNat (slice (cmdC 50 impOk 256).input 12 32))))) [slice (cmdC 50 impOk 256).input 8 3] (slice (cmdC 50 impOk 256).input 44 16) (List.drop 60 (cmdC 50 impOk 256).input) = some (zeros 32) ∧ matOk 1 (zeros 32) = true) ∧
    (v51_25.Safe ∧ v51_25.Shaped ∧ v51_25.BnIdle 51 (cmdC 51 expIn 256) ∧ 256 ≤ (cmdC 51 expIn 256).outMax ∧ 5 = leAt (cmdC 51 expIn 256).input 0 1 ∧ 5 ≤ 15 ∧ v51_25.dev.keySlot 5 = some mintKey ∧ bit mintKey.policy 4 = false) ∧
    (v51_26.Safe ∧ v51_26.Shaped ∧ v51_26.BnIdle 51 (cmdC 51 expIn 256) ∧ 256 ≤ (cmdC 51 expIn 256).outMax ∧ 5 = leAt (cmdC 51 expIn 256).input 0 1 ∧ 5 ≤ 15 ∧ v51_26.dev.keySlot 5 = none) ∧
    (v51_27.Safe ∧ v51_27.Shaped ∧ v51_27.BnIdle 52 (cmdC 52 [5, 0, 0, 0] 256) ∧ 256 ≤ (cmdC 52 [5, 0, 0, 0] 256).outMax ∧ 5 = leAt (cmdC 52 [5, 0, 0, 0] 256).input 0 1 ∧ 5 ≤ 15) ∧
    (v51_28.Safe ∧ v51_28.Shaped ∧ v51_28.BnIdle 52 (cmdC 52 [5, 0, 0, 0] 256) ∧ 256 ≤ (cmdC 52 [5, 0, 0, 0] 256).outMax ∧ 5 = leAt (cmdC 52 [5, 0, 0, 0] 256).input 0 1 ∧ 5 ≤ 15) ∧
    (v51_29.Safe ∧ v51_29.Shaped ∧ v51_29.BnIdle 53 (cmdC 53 [5, 0, 0, 0] 256) ∧ 256 ≤ (cmdC 53 [5, 0, 0, 0] 256).outMax ∧ 5 = leAt (cmdC 53 [5, 0, 0, 0] 256).input 0 1 ∧ 5 ≤ 15 ∧ v51_29.dev.keySlot 5 = some v51_30 ∧ v51_30.pub.length ≤ 96) ∧
    (v51_31.Safe ∧ v51_31.Shaped ∧ v51_31.BnIdle 53 (cmdC 53 [5, 0, 0, 0] 256) ∧ 256 ≤ (cmdC 53 [5, 0, 0, 0] 256).outMax ∧ 5 = leAt (cmdC 53 [5, 0, 0, 0] 256).input 0 1 ∧ 5 ≤ 15 ∧ v51_31.dev.keySlot 5 = none) ∧
    (v51_32.Safe ∧ v51_32.Shaped ∧ v51_32.BnIdle 54 (cmdC 54 (zeros 48) 256) ∧ 256 ≤ (cmdC 54 (zeros 48) 256).outMax ∧ v51_32.dev.flag F.FUSE_STATE_DEBUG_OPEN = true) ∧
    (v51_33.Safe ∧ v51_33.Shaped ∧ v51_33.BnIdle 56 (cmdC 56 [] 256) ∧ 256 ≤ (cmdC 56 [] 256).outMax) ∧
    (v51_34.Safe ∧ v51_34.Shaped ∧ v51_34.BnIdle 57 (cmdC 57 (zeros 280) 256) ∧ 256 ≤ (cmdC 57 (zeros 280) 256).outMax) ∧
    (v51_35.Safe ∧ v51_35.Shaped ∧ v51_35.BnIdle 58 (cmdC 58 (zeros 8) 256) ∧ 256 ≤ (cmdC 58 (zeros 8) 256).outMax) ∧
    (v51_36.Safe ∧ v51_36.Shaped ∧ v51_36.BnIdle 58 (cmdC 58 (fuIn 1 0 0) 256) ∧ 256 ≤ (cmdC 58 (fuIn 1 0 0) 256).outMax) ∧
    (v51_37.Safe ∧ v51_37.Shaped ∧ v51_37.BnIdle 58 (cmdC 58 (fuIn 2 3 4) 256) ∧ 256 ≤ (cmdC 58 (fuIn 2 3 4) 256).outMax) ∧
    (v51_38.Safe ∧ v51_38.Shaped ∧ v51_38.BnIdle 58 (cmdC 58 (fuIn 2 3 4) 256) ∧ 256 ≤ (cmdC 58 (fuIn 2 3 4) 256).outMax) :=
  ⟨⟨State.safe_of (by decide +kernel), State.shaped_of (by decide +kernel), State.bnIdle_of (by decide +kernel), by decide +kernel⟩,
    ⟨State.safe_of (by decide +kernel), State.shaped_of (by decide +kernel), State.bnIdle_of (by decide +kernel), by decide +kernel⟩,
    ⟨State.safe_of (by decide +kernel), State.shaped_of (by decide +kernel), State.bnIdle_of (by decide +kernel), by decide +kernel⟩,
    ⟨State.safe_of (by decide +kernel), State.shaped_of (by decide +kernel), State.bnIdle_of (by decide +kernel), by decide +kernel⟩,
    ⟨State.safe_of (by decide +kernel), State.shaped_of (by decide +kernel), State.bnIdle_of (by decide +kernel), by decide +kernel⟩,
    ⟨State.safe_of (by decide +kernel), State.shaped_of (by decide +kernel), State.bnIdle_of (by decide +kernel), by decide +kernel⟩,
    ⟨State.safe_of (by decide +kernel), State.shaped_of (by decide +kernel), State.bnIdle_of (by decide +kernel), by decide +kernel⟩,
    ⟨State.safe_of (by decide +kernel), State.shaped_of (by decide +kernel), State.bnIdle_of (by decide +kernel), by decide +kernel⟩,
    ⟨State.safe_of (by decide +kernel), State.shaped_of (by decide +kernel), State.bnIdle_of (by decide +kernel), by decide +kernel⟩,
    ⟨State.safe_of (by decide +kernel), State.shaped_of (by decide +kernel), State.bnIdle_of (by decide +kernel), by decide +kernel⟩,
    ⟨State.safe_of (by decide +kernel), State.shaped_of (by decide +kernel), State.bnIdle_of (by decide +kernel), by decide +kernel⟩,
    ⟨State.safe_of (by decide +kernel), State.shaped_of (by decide +kernel), State.bnIdle_of (by decide +kernel), by decide +kernel⟩,
    ⟨State.safe_of (by decide +kernel), State.shaped_of (by decide +kernel), State.bnIdle_of (by decide +kernel), by decide +kernel⟩,
    ⟨State.safe_of (by decide +kernel), State.shaped_of (by decide +kernel), State.bnIdle_of (by decide +kernel), by decide +kernel⟩,
    ⟨State.safe_of (by decide +kernel), State.shaped_of (by decide +kernel), State.bnIdle_of (by decide +kernel), by decide +kernel⟩,
    ⟨State.safe_of (by decide +kernel), State.shaped_of (by decide +kernel), State.bnIdle_of (by decide +kernel), by decide +kernel⟩,
    ⟨State.safe_of (by decide +kernel), State.shaped_of (by decide +kernel), State.bnIdle_of (by decide +kernel), by decide +kernel⟩,
    ⟨State.safe_of (by decide +kernel), State.shaped_of (by decide +kernel), State.bnIdle_of (by decide +kernel), by decide +kernel⟩,
    ⟨State.safe_of (by decide +kernel), State.shaped_of (by decide +kernel), State.bnIdle_of (by decide +kernel), by decide +kernel⟩,
    ⟨State.safe_of (by decide +kernel), State.shaped_of (by decide +kernel), State.bnIdle_of (by decide +kernel), by decide +kernel⟩⟩

theorem witness_KeyCommandsTaken_b :
    (v51_39.Safe ∧ v51_39.Shaped ∧ v51_39.BnIdle 65 (cmdC 65 (tlsIn 5 2) 256) ∧ 256 ≤ (cmdC 65 (tlsIn 5 2) 256).outMax ∧ 5 = leAt (cmdC 65 (tlsIn 5 2) 256).input 0 1 ∧ 2 = leAt (cmdC 65 (tlsIn 5 2) 256).input 1 1 ∧ 5 ≤ 15 ∧ 2 ≤ 2 ∧ (List.drop 4 (cmdC 65 (tlsIn 5 2) 256).input).length = leAt (cmdC 65 (tlsIn 5 2) 256).input 2 2 ∧ v51_39.dev.keySlot 5 = none) ∧
    (v51_40.Safe ∧ v51_40.Shaped ∧ v51_40.BnIdle 65 (cmdC 65 (tlsIn 5 2) 256) ∧ 256 ≤ (cmdC 65 (tlsIn 5 2) 256).outMax ∧ 5 = leAt (cmdC 65 (tlsIn 5 2) 256).input 0 1 ∧ 2 = leAt (cmdC 65 (tlsIn 5 2) 256).input 1 1 ∧ 5 ≤ 15 ∧ 2 ≤ 2 ∧ (List.drop 4 (cmdC 65 (tlsIn 5 2) 256).input).length = leAt (cmdC 65 (tlsIn 5 2) 256).input 2 2 ∧ v51_40.dev.keySlot 5 = some mintKey ∧ mintKey.ty ≠ 2 + 2) ∧
    (v51_41.Safe ∧ v51_41.Shaped ∧ v51_41.BnIdle 65 (cmdC 65 (tlsIn 5 2) 256) ∧ 256 ≤ (cmdC 65 (tlsIn 5 2) 256).outMax ∧ 5 = leAt (cmdC 65 (tlsIn 5 2) 256).input 0 1 ∧ 2 = leAt (cmdC 65 (tlsIn 5 2) 256).input 1 1 ∧ 5 ≤ 15 ∧ 2 ≤ 2 ∧ (List.drop 4 (cmdC 65 (tlsIn 5 2) 256).input).length = leAt (cmdC 65 (tlsIn 5 2) 256).input 2 2 ∧ v51_41.dev.keySlot 5 = some v51_42 ∧ v51_42.ty = 2 + 2 ∧ bit v51_42.policy 1 = false) ∧
    (v51_43.Safe ∧ v51_43.Shaped ∧ v51_43.BnIdle 65 (cmdC 65 (tlsIn 5 2) 256) ∧ 256 ≤ (cmdC 65 (tlsIn 5 2) 256).outMax ∧ 5 = leAt (cmdC 65 (tlsIn 5 2) 256).input 0 1 ∧ 2 = leAt (cmdC 65 (tlsIn 5 2) 256).input 1 1 ∧ 5 ≤ 15 ∧ 2 ≤ 2 ∧ (List.drop 4 (cmdC 65 (tlsIn 5 2) 256).input).length = leAt (cmdC 65 (tlsIn 5 2) 256).input 2 2 ∧ v51_43.dev.keySlot 5 = some edKey ∧ edKey.ty = 4 ∧ bit edKey.policy 1 = true ∧ (edSign edKey.material (List.drop 4 (cmdC 65 (tlsIn 5 2) 256).input)).length ≤ 64) ∧
    (v51_44.Safe ∧ v51_44.Shaped ∧ v51_44.BnIdle 51 (cmdC 51 expIn 256) ∧ 256 ≤ (cmdC 51 expIn 256).outMax ∧ 5 = leAt (cmdC 51 expIn 256).input 0 1 ∧ 5 ≤ 15 ∧ v51_44.dev.keySlot 5 = some expKey ∧ bit expKey.policy 4 = true ∧ expKey.material.length ≤ 48) :=
  ⟨⟨State.safe_of (by decide +kernel), State.shaped_of (by decide +kernel), State.bnIdle_of (by decide +kernel), by decide +kernel⟩,
    ⟨State.safe_of (by decide +kernel), State.shaped_of (by decide +kernel), State.bnIdle_of (by decide +kernel), by decide +kernel⟩,
    ⟨State.safe_of (by decide +kernel), State.shaped_of (by decide +kernel), State.bnIdle_of (by decide +kernel), by decide +kernel⟩,
    ⟨State.safe_of (by decide +kernel), State.shaped_of (by decide +kernel), State.bnIdle_of (by decide +kernel), by decide +kernel⟩,
    ⟨State.safe_of (by decide +kernel), State.shaped_of (by decide +kernel), State.bnIdle_of (by decide +kernel), by decide +kernel⟩⟩

theorem witness_UpdateSessionsOfTheHost :
    (v53_1.Safe ∧ v53_1.Shaped ∧ v53_1.Takes 80 (cmdC 80 (openIn 0 0 5 0 dig2) 64) ∧ 0 = leAt (cmdC 80 (openIn 0 0 5 0 dig2) 64).input 0 1 ∧ 0 = leAt (cmdC 80 (openIn 0 0 5 0 dig2) 64).input 1 1 ∧ 77 = leAt (cmdC 80 (openIn 0 0 5 0 dig2) 64).input 4 4 ∧ 5 = leAt (cmdC 80 (openIn 0 0 5 0 dig2) 64).input 8 4 ∧ 0 = leAt (cmdC 80 (openIn 0 0 5 0 dig2) 64).input 12 4 ∧ (false = true ↔ v53_1.dev.mode ≠ Mode.safe ∧ 5 < if 0 = 0 then (v53_1.dev.hdr.rec' 0 v53_1.dev.hdr.active).gen else BitVec.toNat (v53_1.dev.reg A.POS_GEN)) ∧ (4 = if v53_1.dev.upd ≠ none then 1 else if v53_1.dev.flag F.MODE_STATUS_ON_TRIAL = true then 5 else if 1 < 0 ∨ 0 = 0 ∨ (if 0 = 0 then 25165824 else 2097152) < 0 then 4 else if 0 = 0 ∧ 5 < v53_1.dev.get F.FUSE_STATE_MIN_GEN then 3 else if false = true ∧ v53_1.dev.priv (6 + 0) = false then 2 else if ∃ (k : Fin 2), (v53_1.dev.hdr.activeOf 0 = ↑k ∨ (v53_1.dev.hdr.rec' 0 ↑k).state = 2) ∧ (v53_1.dev.hdr.rec' 0 ↑k).digest = slice (cmdC 80 (openIn 0 0 5 0 dig2) 64).input 16 48 then 12 else 0) ∧ 4 ≠ 0 ∧ 4 ≠ 12) ∧
    (v53_2.Safe ∧ v53_2.Shaped ∧ v53_2.Takes 80 (cmdC 80 (openIn 0 0 5 200000 dig2) 64) ∧ 0 = leAt (cmdC 80 (openIn 0 0 5 200000 dig2) 64).input 0 1 ∧ 0 = leAt (cmdC 80 (openIn 0 0 5 200000 dig2) 64).input 1 1 ∧ 77 = leAt (cmdC 80 (openIn 0 0 5 200000 dig2) 64).input 4 4 ∧ 5 = leAt (cmdC 80 (openIn 0 0 5 200000 dig2) 64).input 8 4 ∧ 200000 = leAt (cmdC 80 (openIn 0 0 5 200000 dig2) 64).input 12 4 ∧ (false = true ↔ v53_2.dev.mode ≠ Mode.safe ∧ 5 < if 0 = 0 then (v53_2.dev.hdr.rec' 0 v53_2.dev.hdr.active).gen else BitVec.toNat (v53_2.dev.reg A.POS_GEN)) ∧ (0 = if v53_2.dev.upd ≠ none then 1 else if v53_2.dev.flag F.MODE_STATUS_ON_TRIAL = true then 5 else if 1 < 0 ∨ 200000 = 0 ∨ (if 0 = 0 then 25165824 else 2097152) < 200000 then 4 else if 0 = 0 ∧ 5 < v53_2.dev.get F.FUSE_STATE_MIN_GEN then 3 else if false = true ∧ v53_2.dev.priv (6 + 0) = false then 2 else if ∃ (k : Fin 2), (v53_2.dev.hdr.activeOf 0 = ↑k ∨ (v53_2.dev.hdr.rec' 0 ↑k).state = 2) ∧ (v53_2.dev.hdr.rec' 0 ↑k).digest = slice (cmdC 80 (openIn 0 0 5 200000 dig2) 64).input 16 48 then 12 else 0)) ∧
    (v53_3.Safe ∧ v53_3.Shaped ∧ v53_3.Takes 80 (cmdC 80 (openIn 0 0 4 200000 dig2) 64) ∧ 0 = leAt (cmdC 80 (openIn 0 0 4 200000 dig2) 64).input 0 1 ∧ 0 = leAt (cmdC 80 (openIn 0 0 4 200000 dig2) 64).input 1 1 ∧ 77 = leAt (cmdC 80 (openIn 0 0 4 200000 dig2) 64).input 4 4 ∧ 4 = leAt (cmdC 80 (openIn 0 0 4 200000 dig2) 64).input 8 4 ∧ 200000 = leAt (cmdC 80 (openIn 0 0 4 200000 dig2) 64).input 12 4 ∧ (true = true ↔ v53_3.dev.mode ≠ Mode.safe ∧ 4 < if 0 = 0 then (v53_3.dev.hdr.rec' 0 v53_3.dev.hdr.active).gen else BitVec.toNat (v53_3.dev.reg A.POS_GEN)) ∧ (2 = if v53_3.dev.upd ≠ none then 1 else if v53_3.dev.flag F.MODE_STATUS_ON_TRIAL = true then 5 else if 1 < 0 ∨ 200000 = 0 ∨ (if 0 = 0 then 25165824 else 2097152) < 200000 then 4 else if 0 = 0 ∧ 4 < v53_3.dev.get F.FUSE_STATE_MIN_GEN then 3 else if true = true ∧ v53_3.dev.priv (6 + 0) = false then 2 else if ∃ (k : Fin 2), (v53_3.dev.hdr.activeOf 0 = ↑k ∨ (v53_3.dev.hdr.rec' 0 ↑k).state = 2) ∧ (v53_3.dev.hdr.rec' 0 ↑k).digest = slice (cmdC 80 (openIn 0 0 4 200000 dig2) 64).input 16 48 then 12 else 0) ∧ 2 ≠ 0 ∧ 2 ≠ 12) ∧
    (v53_4.Safe ∧ v53_4.Shaped ∧ v53_4.Takes 80 (cmdC 80 (openIn 0 0 5 200000 dig1) 64) ∧ 0 = leAt (cmdC 80 (openIn 0 0 5 200000 dig1) 64).input 0 1 ∧ 0 = leAt (cmdC 80 (openIn 0 0 5 200000 dig1) 64).input 1 1 ∧ 77 = leAt (cmdC 80 (openIn 0 0 5 200000 dig1) 64).input 4 4 ∧ 5 = leAt (cmdC 80 (openIn 0 0 5 200000 dig1) 64).input 8 4 ∧ 200000 = leAt (cmdC 80 (openIn 0 0 5 200000 dig1) 64).input 12 4 ∧ (false = true ↔ v53_4.dev.mode ≠ Mode.safe ∧ 5 < if 0 = 0 then (v53_4.dev.hdr.rec' 0 v53_4.dev.hdr.active).gen else BitVec.toNat (v53_4.dev.reg A.POS_GEN)) ∧ (12 = if v53_4.dev.upd ≠ none then 1 else if v53_4.dev.flag F.MODE_STATUS_ON_TRIAL = true then 5 else if 1 < 0 ∨ 200000 = 0 ∨ (if 0 = 0 then 25165824 else 2097152) < 200000 then 4 else if 0 = 0 ∧ 5 < v53_4.dev.get F.FUSE_STATE_MIN_GEN then 3 else if false = true ∧ v53_4.dev.priv (6 + 0) = false then 2 else if ∃ (k : Fin 2), (v53_4.dev.hdr.activeOf 0 = ↑k ∨ (v53_4.dev.hdr.rec' 0 ↑k).state = 2) ∧ (v53_4.dev.hdr.rec' 0 ↑k).digest = slice (cmdC 80 (openIn 0 0 5 200000 dig1) 64).input 16 48 then 12 else 0)) :=
  ⟨⟨State.safe_of (by decide +kernel), State.shaped_of (by decide +kernel), State.takes_of (by decide +kernel), by decide +kernel⟩,
    ⟨State.safe_of (by decide +kernel), State.shaped_of (by decide +kernel), State.takes_of (by decide +kernel), by decide +kernel⟩,
    ⟨State.safe_of (by decide +kernel), State.shaped_of (by decide +kernel), State.takes_of (by decide +kernel), by decide +kernel⟩,
    ⟨State.safe_of (by decide +kernel), State.shaped_of (by decide +kernel), State.takes_of (by decide +kernel), by decide +kernel⟩⟩

theorem witness_UpdateSessionsOfTheHost_b :
    (v53_5.Safe ∧ v53_5.Shaped ∧ v53_5.Takes 80 (cmdC 80 (openIn 0 1 5 200000 dig2) 64) ∧ 0 = leAt (cmdC 80 (openIn 0 1 5 200000 dig2) 64).input 0 1 ∧ 1 = leAt (cmdC 80 (openIn 0 1 5 200000 dig2) 64).input 1 1 ∧ 77 = leAt (cmdC 80 (openIn 0 1 5 200000 dig2) 64).input 4 4 ∧ 5 = leAt (cmdC 80 (openIn 0 1 5 200000 dig2) 64).input 8 4 ∧ 200000 = leAt (cmdC 80 (openIn 0 1 5 200000 dig2) 64).input 12 4 ∧ (false = true ↔ v53_5.dev.mode ≠ Mode.safe ∧ 5 < if 0 = 0 then (v53_5.dev.hdr.rec' 0 v53_5.dev.hdr.active).gen else BitVec.toNat (v53_5.dev.reg A.POS_GEN)) ∧ (0 = if v53_5.dev.upd ≠ none then 1 else if v53_5.dev.flag F.MODE_STATUS_ON_TRIAL = true then 5 else if 1 < 0 ∨ 200000 = 0 ∨ (if 0 = 0 then 25165824 else 2097152) < 200000 then 4 else if 0 = 0 ∧ 5 < v53_5.dev.get F.FUSE_STATE_MIN_GEN then 3 else if false = true ∧ v53_5.dev.priv (6 + 0) = false then 2 else if ∃ (k : Fin 2), (v53_5.dev.hdr.activeOf 0 = ↑k ∨ (v53_5.dev.hdr.rec' 0 ↑k).state = 2) ∧ (v53_5.dev.hdr.rec' 0 ↑k).digest = slice (cmdC 80 (openIn 0 1 5 200000 dig2) 64).input 16 48 then 12 else 0) ∧ 1 = 1 ∧ v53_5.dev.portUp 1 = true) ∧
    (v53_6.Safe ∧ v53_6.Shaped ∧ v53_6.Takes 80 (cmdC 80 (openIn 0 2 5 200000 dig2) 64) ∧ 0 = leAt (cmdC 80 (openIn 0 2 5 200000 dig2) 64).input 0 1 ∧ 2 = leAt (cmdC 80 (openIn 0 2 5 200000 dig2) 64).input 1 1 ∧ 77 = leAt (cmdC 80 (openIn 0 2 5 200000 dig2) 64).input 4 4 ∧ 5 = leAt (cmdC 80 (openIn 0 2 5 200000 dig2) 64).input 8 4 ∧ 200000 = leAt (cmdC 80 (openIn 0 2 5 200000 dig2) 64).input 12 4 ∧ (false = true ↔ v53_6.dev.mode ≠ Mode.safe ∧ 5 < if 0 = 0 then (v53_6.dev.hdr.rec' 0 v53_6.dev.hdr.active).gen else BitVec.toNat (v53_6.dev.reg A.POS_GEN)) ∧ (0 = if v53_6.dev.upd ≠ none then 1 else if v53_6.dev.flag F.MODE_STATUS_ON_TRIAL = true then 5 else if 1 < 0 ∨ 200000 = 0 ∨ (if 0 = 0 then 25165824 else 2097152) < 200000 then 4 else if 0 = 0 ∧ 5 < v53_6.dev.get F.FUSE_STATE_MIN_GEN then 3 else if false = true ∧ v53_6.dev.priv (6 + 0) = false then 2 else if ∃ (k : Fin 2), (v53_6.dev.hdr.activeOf 0 = ↑k ∨ (v53_6.dev.hdr.rec' 0 ↑k).state = 2) ∧ (v53_6.dev.hdr.rec' 0 ↑k).digest = slice (cmdC 80 (openIn 0 2 5 200000 dig2) 64).input 16 48 then 12 else 0) ∧ 0 = 0 ∧ v53_6.dev.portUp 0 = true) ∧
    (v53_7.Safe ∧ v53_7.Shaped ∧ v53_7.Takes 81 (cmdC 81 (blkIn 0 (crc32c blk)) 64) ∧ v53_7.dev.upd = some (uOpen 5) ∧ (uOpen 5).source = 0 ∧ (uOpen 5).fwd = none ∧ (uOpen 5).held = false ∧ (uOpen 5).kind ≤ 1 ∧ (uOpen 5).target ≤ 1 ∧ 0 = leAt (cmdC 81 (blkIn 0 (crc32c blk)) 64).input 0 4 ∧ 0 < ((uOpen 5).size + 65535) / 65536 ∧ (List.drop 8 (cmdC 81 (blkIn 0 (crc32c blk)) 64).input).length = min 65536 ((uOpen 5).size - 65536 * 0) ∧ crc32c (List.drop 8 (cmdC 81 (blkIn 0 (crc32c blk)) 64).input) = leAt (cmdC 81 (blkIn 0 (crc32c blk)) 64).input 4 4 ∧ ¬0 ∈ (uOpen 5).stored) ∧
    (v53_8.Safe ∧ v53_8.Shaped ∧ v53_8.Takes 81 (cmdC 81 (blkIn 1 (crc32c blk)) 64) ∧ v53_8.dev.upd = some (uOpen 65541) ∧ (uOpen 65541).source = 0 ∧ (uOpen 65541).fwd = none ∧ (uOpen 65541).held = false ∧ (uOpen 65541).kind ≤ 1 ∧ (uOpen 65541).target ≤ 1 ∧ 1 = leAt (cmdC 81 (blkIn 1 (crc32c blk)) 64).input 0 4 ∧ 1 < ((uOpen 65541).size + 65535) / 65536 ∧ (List.drop 8 (cmdC 81 (blkIn 1 (crc32c blk)) 64).input).length = min 65536 ((uOpen 65541).size - 65536 * 1) ∧ crc32c (List.drop 8 (cmdC 81 (blkIn 1 (crc32c blk)) 64).input) = leAt (cmdC 81 (blkIn 1 (crc32c blk)) 64).input 4 4 ∧ ¬1 ∈ (uOpen 65541).stored) ∧
    (v53_9.Safe ∧ v53_9.Shaped ∧ v53_9.Takes 81 (cmdC 81 (blkIn 0 7) 64) ∧ v53_9.dev.upd = some (uOpen 5) ∧ (uOpen 5).source = 0 ∧ (uOpen 5).fwd = none ∧ (uOpen 5).held = false ∧ (uOpen 5).kind ≤ 1 ∧ (uOpen 5).target ≤ 1 ∧ 0 = leAt (cmdC 81 (blkIn 0 7) 64).input 0 4 ∧ 0 < ((uOpen 5).size + 65535) / 65536 ∧ (List.drop 8 (cmdC 81 (blkIn 0 7) 64).input).length = min 65536 ((uOpen 5).size - 65536 * 0) ∧ crc32c (List.drop 8 (cmdC 81 (blkIn 0 7) 64).input) ≠ leAt (cmdC 81 (blkIn 0 7) 64).input 4 4) ∧
    (v53_10.Safe ∧ v53_10.Shaped ∧ v53_10.Takes 81 (cmdC 81 (blkIn 1 (crc32c blk)) 64) ∧ v53_10.dev.upd = some (uOpen 5) ∧ (uOpen 5).source = 0 ∧ (uOpen 5).fwd = none ∧ (uOpen 5).held = false ∧ (uOpen 5).kind ≤ 1 ∧ (uOpen 5).target ≤ 1 ∧ 1 = leAt (cmdC 81 (blkIn 1 (crc32c blk)) 64).input 0 4 ∧ ((uOpen 5).size + 65535) / 65536 ≤ 1 ∧ crc32c (List.drop 8 (cmdC 81 (blkIn 1 (crc32c blk)) 64).input) = leAt (cmdC 81 (blkIn 1 (crc32c blk)) 64).input 4 4) ∧
    (v53_11.Safe ∧ v53_11.Shaped ∧ v53_11.Takes 81 (cmdC 81 (blkIn 0 (crc32c blk)) 64) ∧ v53_11.dev.upd = some v53_12 ∧ v53_12.source = 0 ∧ v53_12.fwd = none ∧ v53_12.held = false ∧ v53_12.kind ≤ 1 ∧ v53_12.target ≤ 1 ∧ 0 = leAt (cmdC 81 (blkIn 0 (crc32c blk)) 64).input 0 4 ∧ 0 ∈ v53_12.stored ∧ (List.drop 8 (cmdC 81 (blkIn 0 (crc32c blk)) 64).input).length = min 65536 (v53_12.size - 65536 * 0) ∧ crc32c (List.drop 8 (cmdC 81 (blkIn 0 (crc32c blk)) 64).input) = leAt (cmdC 81 (blkIn 0 (crc32c blk)) 64).input 4 4) ∧
    (v53_13.Safe ∧ v53_13.Shaped ∧ v53_13.Takes 81 (cmdC 81 (blkIn 0 7) 64) ∧ v53_13.dev.upd = none) :=
  ⟨⟨State.safe_of (by decide +kernel), State.shaped_of (by decide +kernel), State.takes_of (by decide +kernel), by decide +kernel⟩,
    ⟨State.safe_of (by decide +kernel), State.shaped_of (by decide +kernel), State.takes_of (by decide +kernel), by decide +kernel⟩,
    ⟨State.safe_of (by decide +kernel), State.shaped_of (by decide +kernel), State.takes_of (by decide +kernel), by decide +kernel⟩,
    ⟨State.safe_of (by decide +kernel), State.shaped_of (by decide +kernel), State.takes_of (by decide +kernel), by decide +kernel⟩,
    ⟨State.safe_of (by decide +kernel), State.shaped_of (by decide +kernel), State.takes_of (by decide +kernel), by decide +kernel⟩,
    ⟨State.safe_of (by decide +kernel), State.shaped_of (by decide +kernel), State.takes_of (by decide +kernel), by decide +kernel⟩,
    ⟨State.safe_of (by decide +kernel), State.shaped_of (by decide +kernel), State.takes_of (by decide +kernel), by decide +kernel⟩,
    ⟨State.safe_of (by decide +kernel), State.shaped_of (by decide +kernel), State.takes_of (by decide +kernel), by decide +kernel⟩⟩

theorem witness_UpdateSessionsOfTheHost_c :
    (v53_14.Safe ∧ v53_14.Shaped ∧ v53_14.Takes 82 (cmdC 82 [] 64) ∧ v53_14.dev.upd = some (uOpen 5) ∧ (uOpen 5).source = 0 ∧ (uOpen 5).fwd = none ∧ (uOpen 5).held = false ∧ (uOpen 5).kind ≤ 1 ∧ (uOpen 5).target ≤ 1 ∧ (uOpen 5).stored.length < ((uOpen 5).size + 65535) / 65536) ∧
    (v53_15.Safe ∧ v53_15.Shaped ∧ v53_15.Takes 82 (cmdC 82 [] 64) ∧ v53_15.dev.upd = some uFull ∧ uFull.source = 0 ∧ uFull.fwd = none ∧ uFull.held = false ∧ uFull.kind ≤ 1 ∧ uFull.target ≤ 1 ∧ (uFull.size + 65535) / 65536 ≤ uFull.stored.length) ∧
    (v53_16.Safe ∧ v53_16.Shaped ∧ v53_16.Takes 82 (cmdC 82 [] 64) ∧ v53_16.dev.upd = some uGood ∧ uGood.source = 0 ∧ uGood.fwd = none ∧ uGood.held = false ∧ uGood.kind ≤ 1 ∧ uGood.target ≤ 1 ∧ (uGood.size + 65535) / 65536 ≤ uGood.stored.length) ∧
    (v53_17.Safe ∧ v53_17.Shaped ∧ v53_17.Takes 83 (cmdC 83 [] 64) ∧ v53_17.dev.upd = some (uOpen 5) ∧ (uOpen 5).source = 0 ∧ (uOpen 5).fwd = none ∧ (uOpen 5).held = false ∧ (uOpen 5).kind ≤ 1 ∧ (uOpen 5).target ≤ 1) ∧
    (v53_18.Safe ∧ v53_18.Shaped ∧ v53_18.Takes 88 (cmdC 88 [1, 0, 0, 0] 64) ∧ 1 = leAt (cmdC 88 [1, 0, 0, 0] 64).input 0 2 ∧ 1 ≤ (cmdC 88 [1, 0, 0, 0] 64).outMax ∧ v53_18.dev.setting 1 0 = none) ∧
    (v53_19.Safe ∧ v53_19.Shaped ∧ v53_19.Takes 88 (cmdC 88 [32, 0, 0, 0] 64) ∧ 32 = leAt (cmdC 88 [32, 0, 0, 0] 64).input 0 2 ∧ 1 ≤ (cmdC 88 [32, 0, 0, 0] 64).outMax ∧ 32 ∈ [1, 2, 32, 33, 34] ∧ v53_19.dev.setting 32 0 = some [7] ∧ [7].length ≤ (cmdC 88 [32, 0, 0, 0] 64).outMax) ∧
    (v53_20.Safe ∧ v53_20.Shaped ∧ v53_20.Takes 88 (cmdC 88 [3, 0, 0, 0] 64) ∧ 3 = leAt (cmdC 88 [3, 0, 0, 0] 64).input 0 2 ∧ 1 ≤ (cmdC 88 [3, 0, 0, 0] 64).outMax ∧ ¬3 ∈ [1, 2, 16, 32, 33, 34]) ∧
    (v53_21.Safe ∧ v53_21.Shaped ∧ v53_21.Takes 89 (cmdC 89 [2, 0, 1, 0, 9] 64) ∧ 2 = leAt (cmdC 89 [2, 0, 1, 0, 9] 64).input 0 2 ∧ (cmdC 89 [2, 0, 1, 0, 9] 64).input.length = 5) ∧
    (v53_22.Safe ∧ v53_22.Shaped ∧ v53_22.Takes 89 (cmdC 89 [3, 0, 1, 0, 9] 64) ∧ 3 = leAt (cmdC 89 [3, 0, 1, 0, 9] 64).input 0 2 ∧ ¬3 ∈ [1, 2, 16, 32, 33, 34]) :=
  ⟨⟨State.safe_of (by decide +kernel), State.shaped_of (by decide +kernel), State.takes_of (by decide +kernel), by decide +kernel⟩,
    ⟨State.safe_of (by decide +kernel), State.shaped_of (by decide +kernel), State.takes_of (by decide +kernel), by decide +kernel⟩,
    ⟨State.safe_of (by decide +kernel), State.shaped_of (by decide +kernel), State.takes_of (by decide +kernel), by decide +kernel⟩,
    ⟨State.safe_of (by decide +kernel), State.shaped_of (by decide +kernel), State.takes_of (by decide +kernel), by decide +kernel⟩,
    ⟨State.safe_of (by decide +kernel), State.shaped_of (by decide +kernel), State.takes_of (by decide +kernel), by decide +kernel⟩,
    ⟨State.safe_of (by decide +kernel), State.shaped_of (by decide +kernel), State.takes_of (by decide +kernel), by decide +kernel⟩,
    ⟨State.safe_of (by decide +kernel), State.shaped_of (by decide +kernel), State.takes_of (by decide +kernel), by decide +kernel⟩,
    ⟨State.safe_of (by decide +kernel), State.shaped_of (by decide +kernel), State.takes_of (by decide +kernel), by decide +kernel⟩,
    ⟨State.safe_of (by decide +kernel), State.shaped_of (by decide +kernel), State.takes_of (by decide +kernel), by decide +kernel⟩⟩

theorem witness_UpdatesOnTheRingAndTrials :
    (v53_23.Safe ∧ v53_23.Shaped ∧ v53_23.Arrives (1) mOwn.bytes 16 mOwn ∧ mOwn.origin = selfId ∧ mOwn.payload.length = 64) ∧
    (v53_24.Safe ∧ v53_24.Shaped ∧ v53_24.Arrives (1) mOp.bytes 16 mOp ∧ mOp.origin ≠ selfId ∧ mOp.payload.length = 64 ∧ v53_24.dev.upd ≠ none) ∧
    (v53_23.Safe ∧ v53_23.Shaped ∧ v53_23.Arrives (1) mOp.bytes 16 mOp ∧ mOp.origin ≠ selfId ∧ mOp.payload.length = 64 ∧ v53_23.dev.upd = none ∧ v53_23.dev.flag F.MODE_STATUS_ON_TRIAL = false ∧ 0 = beAt mOp.payload 0 1 ∧ 5 = beAt mOp.payload 8 4 ∧ 200000 = beAt mOp.payload 12 4 ∧ 0 ≤ 1 ∧ 0 < 200000 ∧ (200000 ≤ if 0 = 0 then 25165824 else 2097152) ∧ (0 = 0 → v53_23.dev.get F.FUSE_STATE_MIN_GEN ≤ 5) ∧ ((if 0 = 0 then (v53_23.dev.hdr.rec' 0 v53_23.dev.hdr.active).gen else BitVec.toNat (v53_23.dev.reg A.POS_GEN)) ≤ 5) ∧ (∀ (k : Fin 2), (v53_23.dev.hdr.rec' 0 ↑k).digest ≠ slice mOp.payload 16 48) ∧ mOp.hops = 15) ∧
    (v53_25.Safe ∧ v53_25.Shaped ∧ v53_25.Arrives (1) mBlk.bytes 17 mBlk ∧ v53_25.dev.upd = some uRing ∧ uRing.source = 1 + 1 ∧ uRing.fwd = none ∧ uRing.held = false ∧ uRing.kind ≤ 1 ∧ uRing.target ≤ 1 ∧ mBlk.origin = uRing.origin ∧ mBlk.seq = uRing.seq ∧ 0 = beAt mBlk.payload 0 4 ∧ blk = List.drop 12 mBlk.payload ∧ beAt mBlk.payload 8 2 = 1 ∧ 1 ≤ blk.length ∧ blk.length ≤ 1024 ∧ uRing.parts = [] ∧ 0 < (uRing.size + 65535) / 65536 ∧ blk.length = min 65536 (uRing.size - 65536 * 0) ∧ crc32c blk = beAt mBlk.payload 4 4 ∧ ¬0 ∈ uRing.stored) ∧
    (v53_25.Safe ∧ v53_25.Shaped ∧ v53_25.Arrives (1) mCl.bytes 18 mCl ∧ v53_25.dev.upd = some uRing ∧ uRing.source = 1 + 1 ∧ uRing.fwd = none ∧ uRing.held = false ∧ uRing.kind ≤ 1 ∧ uRing.target ≤ 1 ∧ mCl.origin = uRing.origin ∧ mCl.seq = uRing.seq ∧ uRing.stored.length < (uRing.size + 65535) / 65536) ∧
    (v53_26.Safe ∧ v53_26.Shaped ∧ v53_26.Arrives (1) mCl.bytes 18 mCl ∧ v53_26.dev.upd = some uRf ∧ uRf.source = 1 + 1 ∧ uRf.fwd = none ∧ uRf.held = false ∧ uRf.kind ≤ 1 ∧ uRf.target ≤ 1 ∧ mCl.origin = uRf.origin ∧ mCl.seq = uRf.seq ∧ (uRf.size + 65535) / 65536 ≤ uRf.stored.length ∧ (uRf.digest = sha384 (v53_26.flash.read (if uRf.kind = 0 then 16777216 + uRf.target * 25165824 else 131072 + uRf.target * 2097152) uRf.size))) ∧
    (v53_25.Safe ∧ v53_25.Shaped ∧ v53_25.Arrives (1) mAb.bytes 19 mAb ∧ v53_25.dev.upd = some uRing ∧ uRing.source = 1 + 1 ∧ uRing.fwd = none ∧ uRing.held = false ∧ uRing.kind ≤ 1 ∧ uRing.target ≤ 1 ∧ mAb.origin = uRing.origin ∧ mAb.seq = uRing.seq) ∧
    (v53_27.Safe ∧ v53_27.Shaped ∧ v53_27.dev.upd = some uRing ∧ uRing.source = 1 + 1 ∧ uRing.fwd = none ∧ uRing.held = false ∧ uRing.kind ≤ 1 ∧ uRing.target ≤ 1 ∧ uRing.last + 8000000000 ≤ v53_27.dev.raw) ∧
    (v53_28.Safe ∧ v53_28.Shaped ∧ v53_28.dev.upd = some uRing ∧ uRing.source = 1 + 1 ∧ uRing.fwd = none ∧ uRing.held = false ∧ uRing.kind ≤ 1 ∧ uRing.target ≤ 1 ∧ v53_28.dev.raw < uRing.last + 8000000000) ∧
    (v53_29.Safe ∧ v53_29.Shaped ∧ v53_29.Arrives (1) (mRep 16 0 0).bytes 20 (mRep 16 0 0) ∧ v53_29.dev.upd = some uFw ∧ uFw.fwd = some fwW ∧ fwW.closing = false ∧ uFw.held = false ∧ fwW.port = 1 ∧ (mRep 16 0 0).origin = uFw.origin ∧ (mRep 16 0 0).seq = uFw.seq ∧ beAt (mRep 16 0 0).payload 0 1 = 16 ∧ beAt (mRep 16 0 0).payload 1 1 = 0 ∧ fwW.queue = []) ∧
    (v53_29.Safe ∧ v53_29.Shaped ∧ v53_29.Arrives (1) (mRep 16 3 0).bytes 20 (mRep 16 3 0) ∧ v53_29.dev.upd = some uFw ∧ uFw.fwd = some fwW ∧ fwW.closing = false ∧ uFw.held = false ∧ fwW.port = 1 ∧ (mRep 16 3 0).origin = uFw.origin ∧ (mRep 16 3 0).seq = uFw.seq ∧ beAt (mRep 16 3 0).payload 0 1 = 16 ∧ 3 = beAt (mRep 16 3 0).payload 1 1 ∧ 1 ≤ 3 ∧ 3 ≤ 15 ∧ 3 ≠ 12) ∧
    (v53_29.Safe ∧ v53_29.Shaped ∧ v53_29.Arrives (1) (mRep 17 0 0).bytes 20 (mRep 17 0 0) ∧ v53_29.dev.upd = some uFw ∧ uFw.fwd = some fwW ∧ fwW.closing = false ∧ uFw.held = false ∧ fwW.port = 1 ∧ (mRep 17 0 0).origin = uFw.origin ∧ (mRep 17 0 0).seq = uFw.seq ∧ beAt (mRep 17 0 0).payload 0 1 = 17 ∧ beAt (mRep 17 0 0).payload 1 1 = 0 ∧ 0 = beAt (mRep 17 0 0).payload 4 4 ∧ fwW.queue = [] ∧ (∃ (x : SentBlock), x ∈ fwW.sent ∧ x.index = 0)) ∧
    (v53_30.Safe ∧ v53_30.Shaped ∧ v53_30.dev.upd = some uFw ∧ uFw.fwd = some fwW ∧ fwW.closing = false ∧ uFw.held = false ∧ (∃ (x : SentBlock), x ∈ fwW.sent ∧ x.at' + 1600000000 ≤ v53_30.dev.raw ∧ 3 ≤ x.tries)) ∧
    (v53_31.Safe ∧ v53_31.Shaped ∧ v53_31.Takes 84 (cmdC 84 [] 64) ∧ (∀ (r : BankRec), (if r.state = 3 then { state := 4, gen := r.gen, id := r.id, size := r.size, digest := r.digest, dgOk := r.dgOk } else r) = if r.state = 3 then { state := 4, gen := r.gen, id := r.id, size := r.size, digest := r.digest, dgOk := r.dgOk } else r) ∧ v53_31.dev.flag F.MODE_STATUS_ON_TRIAL = true) ∧
    (v53_32.Safe ∧ v53_32.Shaped ∧ (∀ (r : BankRec), (if r.state = 3 then { state := 4, gen := r.gen, id := r.id, size := r.size, digest := r.digest, dgOk := r.dgOk } else r) = if r.state = 3 then { state := 4, gen := r.gen, id := r.id, size := r.size, digest := r.digest, dgOk := r.dgOk } else r) ∧ v53_32.dev.flag F.MODE_STATUS_ON_TRIAL = true ∧ v53_32.dev.mode = Mode.trial ∧ v53_32.dev.get F.TRIAL_HOLD_S ≠ 0 ∧ v53_32.dev.get F.TRIAL_REMAIN_S = 0) :=
  ⟨⟨State.safe_of (by decide +kernel), State.shaped_of (by decide +kernel), State.arrives_of (by decide +kernel) rfl (by decide +kernel) (selfId_length), rfl, by decide +kernel⟩,
    ⟨State.safe_of (by decide +kernel), State.shaped_of (by decide +kernel), State.arrives_of (by decide +kernel) rfl (by decide +kernel) (otherId_length), otherId_ne, by decide +kernel⟩,
    ⟨State.safe_of (by decide +kernel), State.shaped_of (by decide +kernel), State.arrives_of (by decide +kernel) rfl (by decide +kernel) (otherId_length), otherId_ne, by decide +kernel⟩,
    ⟨State.safe_of (by decide +kernel), State.shaped_of (by decide +kernel), State.arrives_of (by decide +kernel) rfl (by decide +kernel) (by decide +kernel), by decide +kernel⟩,
    ⟨State.safe_of (by decide +kernel), State.shaped_of (by decide +kernel), State.arrives_of (by decide +kernel) rfl (by decide +kernel) (by decide +kernel), by decide +kernel⟩,
    ⟨State.safe_of (by decide +kernel), State.shaped_of (by decide +kernel), State.arrives_of (by decide +kernel) rfl (by decide +kernel) (by decide +kernel), by decide +kernel⟩,
    ⟨State.safe_of (by decide +kernel), State.shaped_of (by decide +kernel), State.arrives_of (by decide +kernel) rfl (by decide +kernel) (by decide +kernel), by decide +kernel⟩,
    ⟨State.safe_of (by decide +kernel), State.shaped_of (by decide +kernel), by decide +kernel⟩,
    ⟨State.safe_of (by decide +kernel), State.shaped_of (by decide +kernel), by decide +kernel⟩,
    ⟨State.safe_of (by decide +kernel), State.shaped_of (by decide +kernel), State.arrives_of (by decide +kernel) rfl (by decide +kernel) (by decide +kernel), by decide +kernel⟩,
    ⟨State.safe_of (by decide +kernel), State.shaped_of (by decide +kernel), State.arrives_of (by decide +kernel) rfl (by decide +kernel) (by decide +kernel), by decide +kernel⟩,
    ⟨State.safe_of (by decide +kernel), State.shaped_of (by decide +kernel), State.arrives_of (by decide +kernel) rfl (by decide +kernel) (by decide +kernel), by decide +kernel⟩,
    ⟨State.safe_of (by decide +kernel), State.shaped_of (by decide +kernel), by decide +kernel⟩,
    ⟨State.safe_of (by decide +kernel), State.shaped_of (by decide +kernel), State.takes_of (by decide +kernel), fun _ => rfl, by decide +kernel⟩,
    ⟨State.safe_of (by decide +kernel), State.shaped_of (by decide +kernel), fun _ => rfl, by decide +kernel⟩⟩

theorem witness_UpdatesOnTheRingAndTrials_b :
    (v53_33.Safe ∧ v53_33.Shaped ∧ v53_33.Takes 85 (cmdC 85 [] 64) ∧ v53_33.dev.flag F.MODE_STATUS_ON_TRIAL = true) ∧
    (v53_34.Safe ∧ v53_34.Shaped ∧ v53_34.Takes 85 (cmdC 85 [] 64) ∧ v53_34.dev.flag F.MODE_STATUS_ON_TRIAL = false) ∧
    (v53_35.Safe ∧ v53_35.Shaped ∧ v53_35.Takes 84 (cmdC 84 [] 64) ∧ v53_35.dev.flag F.MODE_STATUS_ON_TRIAL = false) :=
  ⟨⟨State.safe_of (by decide +kernel), State.shaped_of (by decide +kernel), State.takes_of (by decide +kernel), by decide +kernel⟩,
    ⟨State.safe_of (by decide +kernel), State.shaped_of (by decide +kernel), State.takes_of (by decide +kernel), by decide +kernel⟩,
    ⟨State.safe_of (by decide +kernel), State.shaped_of (by decide +kernel), State.takes_of (by decide +kernel), by decide +kernel⟩⟩

theorem witness_RingNeighboursComparedEventsAndQueriesPassed :
    (v54_1.Safe ∧ v54_1.Shaped ∧ v54_1.dev.mode ≠ Mode.bypass ∧ v54_1.dev.coarse = false ∧ v54_1.dev.flag (F.GR_PCFG_ENABLE 1) = true ∧ v54_1.dev.flag (F.GR_PSTATUS_LINK_UP 1) = false) ∧
    (v54_2.Safe ∧ v54_2.Shaped ∧ v54_2.dev.flag (F.GR_PSTATUS_LINK_UP 1) = true) ∧
    (v54_3.Safe ∧ v54_3.Shaped ∧ v54_3.dev.portUp 1 = true ∧ v54_3.dev.flag (F.GR_PCFG_CMP_EN 1) = true ∧ v54_3.dev.mode ≠ Mode.safe ∧ v54_3.dev.raw % 800000 = 1 * 400000) ∧
    (v54_4.Safe ∧ v54_4.Shaped ∧ v54_4.dev.portUp 1 = true ∧ v54_4.dev.flag (F.GR_PCFG_CMP_EN 1) = true ∧ v54_4.dev.mode ≠ Mode.safe ∧ v54_4.dev.raw % 800000 ≠ 1 * 400000) ∧
    (v54_5.Safe ∧ v54_5.Shaped ∧ v54_5.Arrives (1) mCmp.bytes 1 mCmp ∧ mCmp.payload.length = 64 ∧ (v54_5.dev.rport 1).origin = some mCmp.origin ∧ (v54_5.dev.rport 1).pairs < 15 ∧ List.find? (fun (y : Nat × Nat) => decide (y.fst = beAt mCmp.payload 32 4)) (v54_5.dev.rport 1).sent = some (beAt mCmp.payload 32 4, 800000 * 65536) ∧ v54_5.dev.ts.time16 0 (800000 * 65536) = some (((wRp 900000 xRp []).dev.ts.time16 0 (800000 * 65536)).getD 0) ∧ v54_5.dev.ts.time16 0 ((5 * ↑(900100 * 65536) - 4 * (40 * 65536 + toSigned 32 (v54_5.dev.get (F.GR_RX_ASYM_ASYM 1)))) / 5).toNat = some (((wRp 900000 xRp []).dev.ts.time16 0 cmpB2).getD 0)) ∧
    (v54_6.Safe ∧ v54_6.Shaped ∧ v54_6.Takes 87 (cmdC 87 evIn 4096) ∧ leAt (cmdC 87 evIn 4096).input 0 1 = 1 ∧ v54_6.dev.portUp 1 = true) ∧
    (v54_7.Safe ∧ v54_7.Shaped ∧ v54_7.Takes 87 (cmdC 87 evIn 4096) ∧ leAt (cmdC 87 evIn 4096).input 0 1 = 1 ∧ v54_7.dev.portUp 1 = false) ∧
    (v54_5.Safe ∧ v54_5.Shaped ∧ v54_5.Arrives (1) mEvOwn.bytes 2 mEvOwn ∧ mEvOwn.origin = selfId) ∧
    (v54_5.Safe ∧ v54_5.Shaped ∧ v54_5.Arrives (1) (mEv 15).bytes 2 (mEv 15) ∧ (mEv 15).origin ≠ selfId) ∧
    (v54_8.Safe ∧ v54_8.Shaped ∧ v54_8.Arrives (1) (mEv 14).bytes 2 (mEv 14) ∧ (mEv 14).origin ≠ selfId) ∧
    (v54_9.Safe ∧ v54_9.Shaped ∧ v54_9.Takes 86 (cmdC 86 [2, 0, 0, 0] 4096) ∧ 1 < leAt (cmdC 86 [2, 0, 0, 0] 4096).input 0 1) ∧
    (v54_10.Safe ∧ v54_10.Shaped ∧ v54_10.Takes 86 (cmdC 86 [1, 0, 16, 0] 4096) ∧ leAt (cmdC 86 [1, 0, 16, 0] 4096).input 0 1 = 1 ∧ 15 < leAt (cmdC 86 [1, 0, 16, 0] 4096).input 2 1) ∧
    (v54_11.Safe ∧ v54_11.Shaped ∧ v54_11.Takes 86 (cmdC 86 [1, 1, 15, 0] 4096) ∧ leAt (cmdC 86 [1, 1, 15, 0] 4096).input 0 1 = 1 ∧ 1 ≤ leAt (cmdC 86 [1, 1, 15, 0] 4096).input 2 1 ∧ leAt (cmdC 86 [1, 1, 15, 0] 4096).input 2 1 ≤ 15 ∧ leAt (cmdC 86 [1, 1, 15, 0] 4096).input 1 1 = 1 ∧ v54_11.dev.portUp 1 = false) ∧
    (v54_12.Safe ∧ v54_12.Shaped ∧ v54_12.Takes 86 (cmdC 86 [1, 1, 15, 0] 4096) ∧ leAt (cmdC 86 [1, 1, 15, 0] 4096).input 0 1 = 1 ∧ 1 ≤ leAt (cmdC 86 [1, 1, 15, 0] 4096).input 2 1 ∧ leAt (cmdC 86 [1, 1, 15, 0] 4096).input 2 1 ≤ 15 ∧ leAt (cmdC 86 [1, 1, 15, 0] 4096).input 1 1 = 1 ∧ v54_12.dev.portUp 1 = true) ∧
    (wQy.Safe ∧ wQy.Shaped ∧ wQy.Arrives (1) (mQ 0 0 3).bytes 4 (mQ 0 0 3) ∧ (mQ 0 0 3).origin ≠ selfId ∧ (qyRec = selfId ++ [byte (wQy.dev.get F.MODE_STATUS_MODE), byte ((wQy.dev.get F.MODE_STATUS_ON_TRIAL + if wQy.dev.mode = Mode.safe then 2 else 0) + 4 * wQy.dev.get F.BOOT_STATUS_IMAGE_BANK), byte (BitVec.toNat (wQy.dev.reg A.UPD_SESSION) % 16), byte (wQy.dev.get F.UPD_SESSION_LAST_CODE)] ++ beBytes 4 (hdrS.rec' 0 hdrS.active).gen ++ slice (hdrS.rec' 0 hdrS.active).digest 0 8 ++ slice dig2 0 8) ∧ 4 ≤ (mQ 0 0 3).payload.length ∧ beAt (mQ 0 0 3).payload 0 1 = 0 ∧ (mQ 0 0 3).hops < 15 ∧ wQy.dev.portUp (1 - 1) = true ∧ hdrS = wQy.dev.hdr ∧ (hdrS.rec' 0 0).state ≠ 2 ∧ (hdrS.rec' 0 1).state = 2 ∧ slice dig2 0 8 = slice (hdrS.rec' 0 1).digest 0 8) ∧
    (wQy.Safe ∧ wQy.Shaped ∧ wQy.Arrives (1) (mQ 1 4 3).bytes 4 (mQ 1 4 3) ∧ (mQ 1 4 3).origin ≠ selfId ∧ 4 ≤ (mQ 1 4 3).payload.length ∧ beAt (mQ 1 4 3).payload 0 1 = 1 ∧ (mQ 1 4 3).hops + 1 = beAt (mQ 1 4 3).payload 1 1) ∧
    (v54_13.Safe ∧ v54_13.Shaped ∧ v54_13.Arrives (1) mQOwn.bytes 4 mQOwn ∧ mQOwn.origin = selfId ∧ v54_13.dev.ring.query = some (qOut 0 []) ∧ 4 ≤ mQOwn.payload.length ∧ (qOut 0 []).seq = mQOwn.seq ∧ (qOut 0 []).kind = 0 ∧ beAt mQOwn.payload 0 1 = 0 ∧ [[1, 2, 3]] = [List.drop 4 mQOwn.payload]) ∧
    (v54_14.Safe ∧ v54_14.Shaped ∧ v54_14.Arrives (1) mQr.bytes 5 mQr ∧ mQr.origin = selfId ∧ v54_14.dev.ring.query = some (qOut 1 [[1], [2], [3]]) ∧ 4 ≤ mQr.payload.length ∧ (qOut 1 [[1], [2], [3]]).seq = mQr.seq ∧ (qOut 1 [[1], [2], [3]]).kind = 1 ∧ beAt mQr.payload 0 1 = 1 ∧ (qOut 1 [[1], [2], [3]]).recs.length = 3 ∧ [[1], [2], [3], [7, 7]] = (qOut 1 [[1], [2], [3]]).recs ++ [List.drop 4 mQr.payload]) ∧
    (v54_15.Safe ∧ v54_15.Shaped ∧ v54_15.dev.ring.query = some (qOut 1 [[1]]) ∧ (qOut 1 [[1]]).since + 40000000 ≤ v54_15.dev.raw ∧ [[1]] = (qOut 1 [[1]]).recs) ∧
    (v54_16.Safe ∧ v54_16.Shaped ∧ v54_16.Arrives (1) mQr.bytes 5 mQr ∧ mQr.origin = selfId ∧ v54_16.dev.ring.query = some (qOut 1 [[1], [2]]) ∧ 4 ≤ mQr.payload.length ∧ (qOut 1 [[1], [2]]).seq = mQr.seq ∧ (qOut 1 [[1], [2]]).kind = 1 ∧ beAt mQr.payload 0 1 = 1 ∧ (qOut 1 [[1], [2]]).recs.length < 3) ∧
    (v54_16.Safe ∧ v54_16.Shaped ∧ v54_16.dev.ring.query = some (qOut 1 [[1], [2]]) ∧ v54_16.dev.raw < (qOut 1 [[1], [2]]).since + 40000000) :=
  ⟨⟨State.safe_of (by decide +kernel), State.shaped_of (by decide +kernel), by decide +kernel⟩,
    ⟨State.safe_of (by decide +kernel), State.shaped_of (by decide +kernel), by decide +kernel⟩,
    ⟨State.safe_of (by decide +kernel), State.shaped_of (by decide +kernel), by decide +kernel⟩,
    ⟨State.safe_of (by decide +kernel), State.shaped_of (by decide +kernel), by decide +kernel⟩,
    ⟨State.safe_of (by decide +kernel), State.shaped_of (by decide +kernel), State.arrives_of (by decide +kernel) rfl (by decide +kernel) (by decide +kernel), by decide +kernel⟩,
    ⟨State.safe_of (by decide +kernel), State.shaped_of (by decide +kernel), State.takes_of (by decide +kernel), by decide +kernel⟩,
    ⟨State.safe_of (by decide +kernel), State.shaped_of (by decide +kernel), State.takes_of (by decide +kernel), by decide +kernel⟩,
    ⟨State.safe_of (by decide +kernel), State.shaped_of (by decide +kernel), State.arrives_of (by decide +kernel) rfl (by decide +kernel) (selfId_length), rfl⟩,
    ⟨State.safe_of (by decide +kernel), State.shaped_of (by decide +kernel), State.arrives_of (by decide +kernel) rfl (by decide +kernel) (otherId_length), otherId_ne⟩,
    ⟨State.safe_of (by decide +kernel), State.shaped_of (by decide +kernel), State.arrives_of (by decide +kernel) rfl (by decide +kernel) (otherId_length), otherId_ne⟩,
    ⟨State.safe_of (by decide +kernel), State.shaped_of (by decide +kernel), State.takes_of (by decide +kernel), by decide +kernel⟩,
    ⟨State.safe_of (by decide +kernel), State.shaped_of (by decide +kernel), State.takes_of (by decide +kernel), by decide +kernel⟩,
    ⟨State.safe_of (by decide +kernel), State.shaped_of (by decide +kernel), State.takes_of (by decide +kernel), by decide +kernel⟩,
    ⟨State.safe_of (by decide +kernel), State.shaped_of (by decide +kernel), State.takes_of (by decide +kernel), by decide +kernel⟩,
    ⟨State.safe_of (by decide +kernel), State.shaped_of (by decide +kernel), State.arrives_of (by decide +kernel) rfl (by decide +kernel) (otherId_length), otherId_ne, congrArg (fun x => selfId ++ x) (by decide +kernel), by decide +kernel⟩,
    ⟨State.safe_of (by decide +kernel), State.shaped_of (by decide +kernel), State.arrives_of (by decide +kernel) rfl (by decide +kernel) (otherId_length), otherId_ne, by decide +kernel⟩,
    ⟨State.safe_of (by decide +kernel), State.shaped_of (by decide +kernel), State.arrives_of (by decide +kernel) rfl (by decide +kernel) (selfId_length), rfl, by decide +kernel⟩,
    ⟨State.safe_of (by decide +kernel), State.shaped_of (by decide +kernel), State.arrives_of (by decide +kernel) rfl (by decide +kernel) (selfId_length), rfl, by decide +kernel⟩,
    ⟨State.safe_of (by decide +kernel), State.shaped_of (by decide +kernel), by decide +kernel⟩,
    ⟨State.safe_of (by decide +kernel), State.shaped_of (by decide +kernel), State.arrives_of (by decide +kernel) rfl (by decide +kernel) (selfId_length), rfl, by decide +kernel⟩,
    ⟨State.safe_of (by decide +kernel), State.shaped_of (by decide +kernel), by decide +kernel⟩⟩

theorem witness_RingNeighboursComparedEventsAndQueriesPassed_b :
    wQy.Safe ∧ wQy.Shaped ∧ wQy.Arrives (1) mQo.bytes 5 mQo ∧ mQo.origin ≠ selfId ∧ 4 ≤ mQo.payload.length ∧ mQo.hops < 15 ∧ wQy.dev.portUp (1 - 1) = true :=
  ⟨State.safe_of (by decide +kernel), State.shaped_of (by decide +kernel), State.arrives_of (by decide +kernel) rfl (by decide +kernel) (otherId_length), otherId_ne, by decide +kernel⟩

theorem witness_SummariesTakenAndManagementBusAnswers :
    (v55_1.Safe ∧ v55_1.Shaped ∧ (0 = if v55_1.dev.sums.host ≠ none then 1 else if v55_1.dev.pcie.perstN = false ∨ v55_1.dev.dmaOk = false then 2 else if v55_1.dev.mode = Mode.bypass ∨ v55_1.dev.mode = Mode.load then 3 else 0)) ∧
    (v55_2.Safe ∧ v55_2.Shaped ∧ (1 = if v55_2.dev.sums.host ≠ none then 1 else if v55_2.dev.pcie.perstN = false ∨ v55_2.dev.dmaOk = false then 2 else if v55_2.dev.mode = Mode.bypass ∨ v55_2.dev.mode = Mode.load then 3 else 0)) ∧
    (v55_3.Safe ∧ v55_3.Shaped ∧ (2 = if v55_3.dev.sums.host ≠ none then 1 else if v55_3.dev.pcie.perstN = false ∨ v55_3.dev.dmaOk = false then 2 else if v55_3.dev.mode = Mode.bypass ∨ v55_3.dev.mode = Mode.load then 3 else 0)) ∧
    (v55_4.Safe ∧ v55_4.Shaped ∧ (3 = if v55_4.dev.sums.host ≠ none then 1 else if v55_4.dev.pcie.perstN = false ∨ v55_4.dev.dmaOk = false then 2 else if v55_4.dev.mode = Mode.bypass ∨ v55_4.dev.mode = Mode.load then 3 else 0)) ∧
    (v55_5.Safe ∧ v55_5.Shaped ∧ 0 = 0 ∧ v55_5.dev.sums.host = some { s := 900000 } ∧ 900000 ≤ v55_5.dev.raw) ∧
    (v55_6.Safe ∧ v55_6.Shaped ∧ 1 = 1 ∧ v55_6.dev.md.coresDown = none ∧ v55_6.dev.sums.smb = some { s := 900000 } ∧ 900000 ≤ v55_6.dev.raw) ∧
    (v55_7.Safe ∧ v55_7.Shaped ∧ 2 = 2 ∧ v55_7.dev.md.coresDown = none ∧ v55_7.dev.ring.sums = [rsW, rsW] ∧ rsW.s ≤ v55_7.dev.raw) ∧
    (v55_8.Safe ∧ v55_8.Shaped ∧ (∀ (r : SumRun), v55_8.dev.sums.host = some r → r.data ≠ none ∨ v55_8.dev.raw < r.s) ∧ 0 = 0) ∧
    (v55_9.Safe ∧ v55_9.Shaped ∧ (∀ (r : SumRun), v55_9.dev.sums.smb = some r → v55_9.dev.raw < r.s) ∧ 1 = 1) ∧
    (v55_10.Safe ∧ v55_10.Shaped ∧ (∀ (q : RingSum) (rest : List RingSum), v55_10.dev.ring.sums = q :: rest → v55_10.dev.raw < q.s) ∧ 2 = 2) ∧
    (v55_11.Safe ∧ v55_11.Shaped ∧ v55_11.dev.sums.host = some srW ∧ srW.data = some [1, 2, 3] ∧ v55_11.dev.dmaOk = true) ∧
    (v55_11.Safe ∧ v55_11.Shaped ∧ v55_11.dev.sums.host = some srW ∧ srW.data = some [1, 2, 3]) ∧
    (wSmb.Safe ∧ wSmb.Shaped ∧ wSmb.dev.mode ≠ Mode.bypass) ∧
    (wSmb.Safe ∧ wSmb.Shaped ∧ wSmb.dev.mode ≠ Mode.bypass ∧ ([2] = [if wSmb.dev.sums.smb ≠ none then 1 else if wSmb.dev.sums.smbBuf ≠ none then 2 else 0])) ∧
    (v55_12.Safe ∧ v55_12.Shaped ∧ (∃ (k : Fin 7), ∃ (v : Int), Instr.temp 5 3 = Instr.temp k v ∧ [0, 128] = [0, 128] ∧ (1 ≤ ↑k ∧ ↑k ≤ 4 ∧ v55_12.dev.diePowered (↑k - 1) = false ∨ 5 ≤ ↑k ∧ (v55_12.dev.mode = Mode.standby ∨ v55_12.dev.mode = Mode.safe))) ∧ v55_12.dev.mode ≠ Mode.bypass) ∧
    (wSmb.Safe ∧ wSmb.Shaped ∧ wSmb.dev.mode ≠ Mode.bypass ∧ (1 ≤ 5 → 5 ≤ 4 → wSmb.dev.diePowered (5 - 1) = true) ∧ (5 ≤ 5 → wSmb.dev.mode ≠ Mode.standby ∧ wSmb.dev.mode ≠ Mode.safe)) ∧
    (wSmb.Safe ∧ wSmb.Shaped ∧ wSmb.dev.mode ≠ Mode.bypass ∧ wSmb.dev.sums.smb = none) ∧
    (v55_9.Safe ∧ v55_9.Shaped ∧ v55_9.dev.mode ≠ Mode.bypass ∧ v55_9.dev.sums.smb ≠ none) ∧
    (wSmb.Safe ∧ wSmb.Shaped ∧ wSmb.dev.mode ≠ Mode.bypass ∧ Instr.resetReq 42330 true ∈ [Instr.sumTake true, Instr.sumPtr 42330 true, Instr.resetReq 42330 true]) ∧
    (wSmb.Safe ∧ wSmb.Shaped ∧ wSmb.dev.mode ≠ Mode.bypass ∧ Instr.sumTake true ∈ [Instr.sumTake true, Instr.sumPtr 42330 true, Instr.resetReq 42330 true]) ∧
    (wSmb.Safe ∧ wSmb.Shaped) :=
  ⟨⟨State.safe_of (by decide +kernel), State.shaped_of (by decide +kernel), by decide +kernel⟩,
    ⟨State.safe_of (by decide +kernel), State.shaped_of (by decide +kernel), by decide +kernel⟩,
    ⟨State.safe_of (by decide +kernel), State.shaped_of (by decide +kernel), by decide +kernel⟩,
    ⟨State.safe_of (by decide +kernel), State.shaped_of (by decide +kernel), by decide +kernel⟩,
    ⟨State.safe_of (by decide +kernel), State.shaped_of (by decide +kernel), by decide +kernel⟩,
    ⟨State.safe_of (by decide +kernel), State.shaped_of (by decide +kernel), by decide +kernel⟩,
    ⟨State.safe_of (by decide +kernel), State.shaped_of (by decide +kernel), by decide +kernel⟩,
    ⟨State.safe_of (by decide +kernel), State.shaped_of (by decide +kernel), all_some (by decide +kernel), by decide +kernel⟩,
    ⟨State.safe_of (by decide +kernel), State.shaped_of (by decide +kernel), all_some (by decide +kernel), by decide +kernel⟩,
    ⟨State.safe_of (by decide +kernel), State.shaped_of (by decide +kernel), all_head (by decide +kernel), by decide +kernel⟩,
    ⟨State.safe_of (by decide +kernel), State.shaped_of (by decide +kernel), by decide +kernel⟩,
    ⟨State.safe_of (by decide +kernel), State.shaped_of (by decide +kernel), by decide +kernel⟩,
    ⟨State.safe_of (by decide +kernel), State.shaped_of (by decide +kernel), by decide +kernel⟩,
    ⟨State.safe_of (by decide +kernel), State.shaped_of (by decide +kernel), by decide +kernel⟩,
    ⟨State.safe_of (by decide +kernel), State.shaped_of (by decide +kernel), ⟨5, 3, by decide +kernel⟩, by decide +kernel⟩,
    ⟨State.safe_of (by decide +kernel), State.shaped_of (by decide +kernel), by decide +kernel⟩,
    ⟨State.safe_of (by decide +kernel), State.shaped_of (by decide +kernel), by decide +kernel⟩,
    ⟨State.safe_of (by decide +kernel), State.shaped_of (by decide +kernel), by decide +kernel⟩,
    ⟨State.safe_of (by decide +kernel), State.shaped_of (by decide +kernel), by decide +kernel⟩,
    ⟨State.safe_of (by decide +kernel), State.shaped_of (by decide +kernel), by decide +kernel⟩,
    ⟨State.safe_of (by decide +kernel), State.shaped_of (by decide +kernel)⟩⟩

theorem witness_SnapshotsAndEpochUpdates :
    (v56_1.Safe ∧ v56_1.Shaped ∧ v56_1.dev.loaded = true ∧ ({ value := 916384, seq := 1 } = ({ scale := if v56_1.dev.get F.STAT_SNAP_CTRL_AT_TIME = 1 ∧ v56_1.dev.get F.STAT_SNAP_CTRL_SCALE ≠ 3 then some (v56_1.dev.get F.STAT_SNAP_CTRL_SCALE) else none, value := if v56_1.dev.get F.STAT_SNAP_CTRL_AT_TIME = 0 then ↑v56_1.dev.raw + 16384 else if v56_1.dev.get F.STAT_SNAP_CTRL_SCALE = 3 then ↑(v56_1.dev.get64 A.STAT_SNAP_RAW) else v56_1.dev.getTime A.STAT_SNAP_TIME, seq := (BitVec.toNat (v56_1.dev.reg A.STAT_SNAP_SEQ) + 1) % 2 ^ 32 } : StatRun)) ∧ (0 = if v56_1.dev.statRun ≠ none then 1 else if (if v56_1.dev.get F.STAT_SNAP_CTRL_AT_TIME = 0 then v56_1.dev.raw + 16384 else if v56_1.dev.get F.STAT_SNAP_CTRL_SCALE = 3 then v56_1.dev.get64 A.STAT_SNAP_RAW else v56_1.dev.reachTick (v56_1.dev.get F.STAT_SNAP_CTRL_SCALE) 916384) < v56_1.dev.raw + 16384 then 2 else if v56_1.dev.raw + 2 ^ 40 < if v56_1.dev.get F.STAT_SNAP_CTRL_AT_TIME = 0 then v56_1.dev.raw + 16384 else if v56_1.dev.get F.STAT_SNAP_CTRL_SCALE = 3 then v56_1.dev.get64 A.STAT_SNAP_RAW else v56_1.dev.reachTick (v56_1.dev.get F.STAT_SNAP_CTRL_SCALE) 916384 then 3 else if v56_1.dev.get F.STAT_SNAP_CTRL_AT_TIME = 1 ∧ v56_1.dev.get F.STAT_SNAP_CTRL_SCALE ≠ 3 ∧ v56_1.dev.codeInit (v56_1.dev.get F.STAT_SNAP_CTRL_SCALE) = false then 4 else if v56_1.dev.flag F.STAT_SNAP_CTRL_RING = true ∧ v56_1.dev.get F.STAT_SNAP_CTRL_SCALE = 3 then 7 else 0) ∧ v56_1.dev.flag F.STAT_SNAP_CTRL_RING = false) ∧
    (v56_2.Safe ∧ v56_2.Shaped ∧ v56_2.dev.loaded = true ∧ ({ value := 916383, seq := 1 } = ({ scale := if v56_2.dev.get F.STAT_SNAP_CTRL_AT_TIME = 1 ∧ v56_2.dev.get F.STAT_SNAP_CTRL_SCALE ≠ 3 then some (v56_2.dev.get F.STAT_SNAP_CTRL_SCALE) else none, value := if v56_2.dev.get F.STAT_SNAP_CTRL_AT_TIME = 0 then ↑v56_2.dev.raw + 16384 else if v56_2.dev.get F.STAT_SNAP_CTRL_SCALE = 3 then ↑(v56_2.dev.get64 A.STAT_SNAP_RAW) else v56_2.dev.getTime A.STAT_SNAP_TIME, seq := (BitVec.toNat (v56_2.dev.reg A.STAT_SNAP_SEQ) + 1) % 2 ^ 32 } : StatRun)) ∧ (2 = if v56_2.dev.statRun ≠ none then 1 else if (if v56_2.dev.get F.STAT_SNAP_CTRL_AT_TIME = 0 then v56_2.dev.raw + 16384 else if v56_2.dev.get F.STAT_SNAP_CTRL_SCALE = 3 then v56_2.dev.get64 A.STAT_SNAP_RAW else v56_2.dev.reachTick (v56_2.dev.get F.STAT_SNAP_CTRL_SCALE) 916383) < v56_2.dev.raw + 16384 then 2 else if v56_2.dev.raw + 2 ^ 40 < if v56_2.dev.get F.STAT_SNAP_CTRL_AT_TIME = 0 then v56_2.dev.raw + 16384 else if v56_2.dev.get F.STAT_SNAP_CTRL_SCALE = 3 then v56_2.dev.get64 A.STAT_SNAP_RAW else v56_2.dev.reachTick (v56_2.dev.get F.STAT_SNAP_CTRL_SCALE) 916383 then 3 else if v56_2.dev.get F.STAT_SNAP_CTRL_AT_TIME = 1 ∧ v56_2.dev.get F.STAT_SNAP_CTRL_SCALE ≠ 3 ∧ v56_2.dev.codeInit (v56_2.dev.get F.STAT_SNAP_CTRL_SCALE) = false then 4 else if v56_2.dev.flag F.STAT_SNAP_CTRL_RING = true ∧ v56_2.dev.get F.STAT_SNAP_CTRL_SCALE = 3 then 7 else 0) ∧ 2 ≠ 0) ∧
    (v56_3.Safe ∧ v56_3.Shaped ∧ v56_3.dev.loaded = true ∧ ({ value := 916384, seq := 1 } = ({ scale := if v56_3.dev.get F.STAT_SNAP_CTRL_AT_TIME = 1 ∧ v56_3.dev.get F.STAT_SNAP_CTRL_SCALE ≠ 3 then some (v56_3.dev.get F.STAT_SNAP_CTRL_SCALE) else none, value := if v56_3.dev.get F.STAT_SNAP_CTRL_AT_TIME = 0 then ↑v56_3.dev.raw + 16384 else if v56_3.dev.get F.STAT_SNAP_CTRL_SCALE = 3 then ↑(v56_3.dev.get64 A.STAT_SNAP_RAW) else v56_3.dev.getTime A.STAT_SNAP_TIME, seq := (BitVec.toNat (v56_3.dev.reg A.STAT_SNAP_SEQ) + 1) % 2 ^ 32 } : StatRun)) ∧ (7 = if v56_3.dev.statRun ≠ none then 1 else if (if v56_3.dev.get F.STAT_SNAP_CTRL_AT_TIME = 0 then v56_3.dev.raw + 16384 else if v56_3.dev.get F.STAT_SNAP_CTRL_SCALE = 3 then v56_3.dev.get64 A.STAT_SNAP_RAW else v56_3.dev.reachTick (v56_3.dev.get F.STAT_SNAP_CTRL_SCALE) 916384) < v56_3.dev.raw + 16384 then 2 else if v56_3.dev.raw + 2 ^ 40 < if v56_3.dev.get F.STAT_SNAP_CTRL_AT_TIME = 0 then v56_3.dev.raw + 16384 else if v56_3.dev.get F.STAT_SNAP_CTRL_SCALE = 3 then v56_3.dev.get64 A.STAT_SNAP_RAW else v56_3.dev.reachTick (v56_3.dev.get F.STAT_SNAP_CTRL_SCALE) 916384 then 3 else if v56_3.dev.get F.STAT_SNAP_CTRL_AT_TIME = 1 ∧ v56_3.dev.get F.STAT_SNAP_CTRL_SCALE ≠ 3 ∧ v56_3.dev.codeInit (v56_3.dev.get F.STAT_SNAP_CTRL_SCALE) = false then 4 else if v56_3.dev.flag F.STAT_SNAP_CTRL_RING = true ∧ v56_3.dev.get F.STAT_SNAP_CTRL_SCALE = 3 then 7 else 0) ∧ 7 ≠ 0) :=
  ⟨⟨State.safe_of (by decide +kernel), State.shaped_of (by decide +kernel), by decide +kernel⟩,
    ⟨State.safe_of (by decide +kernel), State.shaped_of (by decide +kernel), by decide +kernel⟩,
    ⟨State.safe_of (by decide +kernel), State.shaped_of (by decide +kernel), by decide +kernel⟩⟩

theorem witness_SnapshotsAndEpochUpdates_b :
    (wSnT.Safe ∧ wSnT.Shaped ∧ wSnT.dev.loaded = true ∧ ({ scale := some 0, value := snT, seq := 1 } = ({ scale := if wSnT.dev.get F.STAT_SNAP_CTRL_AT_TIME = 1 ∧ wSnT.dev.get F.STAT_SNAP_CTRL_SCALE ≠ 3 then some (wSnT.dev.get F.STAT_SNAP_CTRL_SCALE) else none, value := if wSnT.dev.get F.STAT_SNAP_CTRL_AT_TIME = 0 then ↑wSnT.dev.raw + 16384 else if wSnT.dev.get F.STAT_SNAP_CTRL_SCALE = 3 then ↑(wSnT.dev.get64 A.STAT_SNAP_RAW) else wSnT.dev.getTime A.STAT_SNAP_TIME, seq := (BitVec.toNat (wSnT.dev.reg A.STAT_SNAP_SEQ) + 1) % 2 ^ 32 } : StatRun)) ∧ (0 = if wSnT.dev.statRun ≠ none then 1 else if (if wSnT.dev.get F.STAT_SNAP_CTRL_AT_TIME = 0 then wSnT.dev.raw + 16384 else if wSnT.dev.get F.STAT_SNAP_CTRL_SCALE = 3 then wSnT.dev.get64 A.STAT_SNAP_RAW else wSnT.dev.reachTick (wSnT.dev.get F.STAT_SNAP_CTRL_SCALE) snT) < wSnT.dev.raw + 16384 then 2 else if wSnT.dev.raw + 2 ^ 40 < if wSnT.dev.get F.STAT_SNAP_CTRL_AT_TIME = 0 then wSnT.dev.raw + 16384 else if wSnT.dev.get F.STAT_SNAP_CTRL_SCALE = 3 then wSnT.dev.get64 A.STAT_SNAP_RAW else wSnT.dev.reachTick (wSnT.dev.get F.STAT_SNAP_CTRL_SCALE) snT then 3 else if wSnT.dev.get F.STAT_SNAP_CTRL_AT_TIME = 1 ∧ wSnT.dev.get F.STAT_SNAP_CTRL_SCALE ≠ 3 ∧ wSnT.dev.codeInit (wSnT.dev.get F.STAT_SNAP_CTRL_SCALE) = false then 4 else if wSnT.dev.flag F.STAT_SNAP_CTRL_RING = true ∧ wSnT.dev.get F.STAT_SNAP_CTRL_SCALE = 3 then 7 else 0) ∧ wSnT.dev.flag F.STAT_SNAP_CTRL_RING = true ∧ wSnT.dev.get F.STAT_SNAP_CTRL_AT_TIME = 1 ∧ wSnT.dev.portUp 1 = true ∧ 1 = 1) ∧
    (v56_1.Safe ∧ v56_1.Shaped ∧ v56_1.dev.loaded = true ∧ v56_1.dev.statRun = none) ∧
    (v56_4.Safe ∧ v56_4.Shaped ∧ v56_4.dev.loaded = true ∧ v56_4.dev.statRun = some (runR 916383) ∧ v56_4.dev.snapTick (runR 916383) < v56_4.dev.raw + 16384) ∧
    (v56_5.Safe ∧ v56_5.Shaped ∧ v56_5.dev.loaded = true ∧ v56_5.dev.statRun = some (runR 916384) ∧ (runR 916384).latched = none ∧ v56_5.dev.raw + 16384 ≤ v56_5.dev.snapTick (runR 916384)) ∧
    (v56_6.Safe ∧ v56_6.Shaped ∧ v56_6.dev.statRun = some (runR 900000) ∧ (runR 900000).latched = none ∧ (runR 900000).scale = none ∧ (runR 900000).value ≤ ↑v56_6.dev.raw ∧ v56_6.dev.flag F.STAT_SNAP_STATUS_PENDING = true) ∧
    (v56_30.Safe ∧ v56_30.Shaped ∧ v56_30.dev.statRun = some runL ∧ runL.latched = some 5 ∧ v56_30.dev.flag F.STAT_SNAP_STATUS_PENDING = true) ∧
    (v56_7.Safe ∧ v56_7.Shaped ∧ v56_7.dev.statRun = some (runR 900001) ∧ (runR 900001).latched = none ∧ (runR 900001).scale = none ∧ ↑v56_7.dev.raw < (runR 900001).value) ∧
    (v56_8.Safe ∧ v56_8.Shaped ∧ v56_8.dev.statRun = some v56_9 ∧ v56_9.latched = some 5 ∧ v56_8.dev.flag F.STAT_SNAP_STATUS_LATCHING = true) ∧
    (wSnR.Safe ∧ wSnR.Shaped ∧ wSnR.Arrives (1) (mSnap 3 snT).bytes 3 (mSnap 3 snT) ∧ (mSnap 3 snT).origin ≠ selfId ∧ (mSnap 3 snT).payload.length = 24 ∧ beAt (mSnap 3 snT).payload 4 1 ≤ 2 ∧ wSnR.dev.loaded = true ∧ (0 = if wSnR.dev.statRun ≠ none then 1 else if wSnR.dev.reachTick (beAt (mSnap 3 snT).payload 4 1) (joinTime (leAt (mSnap 3 snT).payload 8 6) (leAt (mSnap 3 snT).payload 14 4) (leAt (mSnap 3 snT).payload 18 2)) < wSnR.dev.raw + 16384 then 2 else if wSnR.dev.raw + 2 ^ 40 < wSnR.dev.reachTick (beAt (mSnap 3 snT).payload 4 1) (joinTime (leAt (mSnap 3 snT).payload 8 6) (leAt (mSnap 3 snT).payload 14 4) (leAt (mSnap 3 snT).payload 18 2)) then 3 else if wSnR.dev.codeInit (beAt (mSnap 3 snT).payload 4 1) = false then 4 else 0) ∧ wSnR.dev.reached (beAt (mSnap 3 snT).payload 4 1) (joinTime (leAt (mSnap 3 snT).payload 8 6) (leAt (mSnap 3 snT).payload 14 4) (leAt (mSnap 3 snT).payload 18 2)) = false ∧ (mSnap 3 snT).hops < 15 ∧ wSnR.dev.portUp (1 - 1) = true) ∧
    (v56_10.Safe ∧ v56_10.Shaped ∧ v56_10.Arrives (1) (mSnap 15 snT).bytes 3 (mSnap 15 snT) ∧ (mSnap 15 snT).origin ≠ selfId ∧ (mSnap 15 snT).payload.length = 24 ∧ beAt (mSnap 15 snT).payload 4 1 ≤ 2 ∧ v56_10.dev.loaded = true ∧ (1 = if v56_10.dev.statRun ≠ none then 1 else if v56_10.dev.reachTick (beAt (mSnap 15 snT).payload 4 1) (joinTime (leAt (mSnap 15 snT).payload 8 6) (leAt (mSnap 15 snT).payload 14 4) (leAt (mSnap 15 snT).payload 18 2)) < v56_10.dev.raw + 16384 then 2 else if v56_10.dev.raw + 2 ^ 40 < v56_10.dev.reachTick (beAt (mSnap 15 snT).payload 4 1) (joinTime (leAt (mSnap 15 snT).payload 8 6) (leAt (mSnap 15 snT).payload 14 4) (leAt (mSnap 15 snT).payload 18 2)) then 3 else if v56_10.dev.codeInit (beAt (mSnap 15 snT).payload 4 1) = false then 4 else 0) ∧ v56_10.dev.statRun ≠ none ∧ (mSnap 15 snT).hops = 15) ∧
    (wSnR.Safe ∧ wSnR.Shaped ∧ wSnR.Arrives (1) (mSnap 15 65536).bytes 3 (mSnap 15 65536) ∧ (mSnap 15 65536).origin ≠ selfId ∧ (mSnap 15 65536).payload.length = 24 ∧ beAt (mSnap 15 65536).payload 4 1 ≤ 2 ∧ wSnR.dev.loaded = true ∧ wSnR.dev.statRun = none ∧ wSnR.dev.reached (beAt (mSnap 15 65536).payload 4 1) (joinTime (leAt (mSnap 15 65536).payload 8 6) (leAt (mSnap 15 65536).payload 14 4) (leAt (mSnap 15 65536).payload 18 2)) = true ∧ (mSnap 15 65536).hops = 15) :=
  ⟨⟨State.safe_of (by decide +kernel), State.shaped_of (by decide +kernel), by decide +kernel⟩,
    ⟨State.safe_of (by decide +kernel), State.shaped_of (by decide +kernel), by decide +kernel⟩,
    ⟨State.safe_of (by decide +kernel), State.shaped_of (by decide +kernel), by decide +kernel⟩,
    ⟨State.safe_of (by decide +kernel), State.shaped_of (by decide +kernel), by decide +kernel⟩,
    ⟨State.safe_of (by decide +kernel), State.shaped_of (by decide +kernel), by decide +kernel⟩,
    ⟨State.safe_of (by decide +kernel), State.shaped_of (by decide +kernel), by decide +kernel⟩,
    ⟨State.safe_of (by decide +kernel), State.shaped_of (by decide +kernel), by decide +kernel⟩,
    ⟨State.safe_of (by decide +kernel), State.shaped_of (by decide +kernel), by decide +kernel⟩,
    ⟨State.safe_of (by decide +kernel), State.shaped_of (by decide +kernel), State.arrives_of (by decide +kernel) rfl (by decide +kernel) (otherId_length), otherId_ne, by decide +kernel⟩,
    ⟨State.safe_of (by decide +kernel), State.shaped_of (by decide +kernel), State.arrives_of (by decide +kernel) rfl (by decide +kernel) (otherId_length), otherId_ne, by decide +kernel⟩,
    ⟨State.safe_of (by decide +kernel), State.shaped_of (by decide +kernel), State.arrives_of (by decide +kernel) rfl (by decide +kernel) (otherId_length), otherId_ne, by decide +kernel⟩⟩

theorem witness_SnapshotsAndEpochUpdates_c :
    (v56_11.Safe ∧ v56_11.Shaped ∧ (2 = if v56_11.dev.eu.epoch (v56_11.dev.get F.EU_CTRL_KIND) ≠ none ∨ v56_11.dev.eu.req (v56_11.dev.get F.EU_CTRL_KIND) ≠ none then 4 else if v56_11.dev.get64 A.EU_EPOCH < v56_11.dev.raw + 16384 then 2 else if v56_11.dev.raw + 2 ^ 40 < v56_11.dev.get64 A.EU_EPOCH then 3 else 0) ∧ 2 ≠ 0) ∧
    (v56_12.Safe ∧ v56_12.Shaped ∧ (0 = if v56_12.dev.eu.epoch (v56_12.dev.get F.EU_CTRL_KIND) ≠ none ∨ v56_12.dev.eu.req (v56_12.dev.get F.EU_CTRL_KIND) ≠ none then 4 else if v56_12.dev.get64 A.EU_EPOCH < v56_12.dev.raw + 16384 then 2 else if v56_12.dev.raw + 2 ^ 40 < v56_12.dev.get64 A.EU_EPOCH then 3 else 0)) ∧
    (v56_13.Safe ∧ v56_13.Shaped ∧ (4 = if v56_13.dev.eu.epoch (v56_13.dev.get F.EU_CTRL_KIND) ≠ none ∨ v56_13.dev.eu.req (v56_13.dev.get F.EU_CTRL_KIND) ≠ none then 4 else if v56_13.dev.get64 A.EU_EPOCH < v56_13.dev.raw + 16384 then 2 else if v56_13.dev.raw + 2 ^ 40 < v56_13.dev.get64 A.EU_EPOCH then 3 else 0) ∧ v56_13.dev.eu.epoch (v56_13.dev.get F.EU_CTRL_KIND) = some 916383 ∧ 916383 < v56_13.dev.raw + 16384) ∧
    (v56_14.Safe ∧ v56_14.Shaped ∧ (4 = if v56_14.dev.eu.epoch (v56_14.dev.get F.EU_CTRL_KIND) ≠ none ∨ v56_14.dev.eu.req (v56_14.dev.get F.EU_CTRL_KIND) ≠ none then 4 else if v56_14.dev.get64 A.EU_EPOCH < v56_14.dev.raw + 16384 then 2 else if v56_14.dev.raw + 2 ^ 40 < v56_14.dev.get64 A.EU_EPOCH then 3 else 0) ∧ v56_14.dev.eu.epoch (v56_14.dev.get F.EU_CTRL_KIND) = some 916384 ∧ v56_14.dev.raw + 16384 ≤ 916384) ∧
    (v56_15.Safe ∧ v56_15.Shaped ∧ (2 = if v56_15.dev.eu.epoch (v56_15.dev.get F.EU_CTRL_KIND) ≠ none ∨ v56_15.dev.eu.req (v56_15.dev.get F.EU_CTRL_KIND) ≠ none then 4 else if v56_15.dev.get64 A.EU_EPOCH < v56_15.dev.raw + 16384 then 2 else if v56_15.dev.raw + 2 ^ 40 < v56_15.dev.get64 A.EU_EPOCH then 3 else 0) ∧ v56_15.dev.eu.epoch (v56_15.dev.get F.EU_CTRL_KIND) = none) ∧
    (v56_16.Safe ∧ v56_16.Shaped ∧ v56_16.dev.eu.req 1 = some (reqW 12) ∧ v56_16.dev.dmaOk = true ∧ 1 = 1 ∧ (reqW 12).len % 8 ≠ 0 ∧ v56_16.dev.pos.limits = [] ∧ v56_16.dev.eu.patch = none ∧ (∀ (x : Nat × Word), x ∈ List.map (fun (j : Nat) => (leAt (v56_16.host.read (reqW 12).addr (reqW 12).len) (8 * j) 4, BitVec.ofNat 32 (leAt (v56_16.host.read (reqW 12).addr (reqW 12).len) (8 * j + 4) 4))) (List.range ((v56_16.host.read (reqW 12).addr (reqW 12).len).length / 8)) → ∃ (h : Hit), lookup x.fst = some h ∧ h.row.sched = true ∧ h.row.writable = true ∧ x.fst % 4 = 0 ∧ h.row.gwords = 1)) ∧
    (v56_17.Safe ∧ v56_17.Shaped ∧ v56_17.dev.eu.req 0 = some (reqW 400) ∧ v56_17.dev.dmaOk = true ∧ 0 = 0 ∧ v56_17.dev.posSigned (v56_17.host.read (reqW 400).addr (reqW 400).len) = false) ∧
    (v56_18.Safe ∧ v56_18.Shaped ∧ v56_18.dev.eu.req 1 = some (reqW 16) ∧ v56_18.dev.dmaOk = true ∧ 1 = 1 ∧ (reqW 16).len % 8 = 0 ∧ 8 ≤ (reqW 16).len ∧ (reqW 16).len ≤ 8192 ∧ v56_18.dev.pos.limits = [] ∧ v56_18.dev.eu.patch = none ∧ (∀ (x : Nat × Word), x ∈ List.map (fun (j : Nat) => (leAt (v56_18.host.read (reqW 16).addr (reqW 16).len) (8 * j) 4, BitVec.ofNat 32 (leAt (v56_18.host.read (reqW 16).addr (reqW 16).len) (8 * j + 4) 4))) (List.range ((v56_18.host.read (reqW 16).addr (reqW 16).len).length / 8)) → ∃ (h : Hit), lookup x.fst = some h ∧ h.row.sched = true ∧ h.row.writable = true ∧ x.fst % 4 = 0 ∧ h.row.gwords = 1)) ∧
    (v56_19.Safe ∧ v56_19.Shaped ∧ v56_19.dev.eu.req 1 = some (reqW 8) ∧ v56_19.dev.dmaOk = true ∧ 1 = 1 ∧ (reqW 8).len % 8 = 0 ∧ 8 ≤ (reqW 8).len ∧ (reqW 8).len ≤ 8192 ∧ v56_19.dev.pos.limits = [] ∧ v56_19.dev.eu.patch = none ∧ (∃ (x : Nat × Word), (List.map (fun (j : Nat) => (leAt (v56_19.host.read (reqW 8).addr (reqW 8).len) (8 * j) 4, BitVec.ofNat 32 (leAt (v56_19.host.read (reqW 8).addr (reqW 8).len) (8 * j + 4) 4))) (List.range ((v56_19.host.read (reqW 8).addr (reqW 8).len).length / 8)))[0]? = some x ∧ lookup x.fst = none)) ∧
    (v56_20.Safe ∧ v56_20.Shaped ∧ v56_20.dev.batches = [] ∧ v56_20.dev.eu.patch = none ∧ v56_20.dev.eu.batch = some (900000, [(A.SLOT_WTR 3, 60)]) ∧ 900000 ≤ v56_20.dev.raw ∧ (60 : Word).toNat % 4096 ≤ 3600 ∧ v56_20.dev.pos.limits = []) ∧
    (v56_21.Safe ∧ v56_21.Shaped ∧ v56_21.dev.batches = [] ∧ v56_21.dev.eu.batch = none ∧ v56_21.dev.eu.patch = some patW ∧ patW.epoch ≤ v56_21.dev.raw ∧ patW.regs = [(A.SLOT_WTR 3, 60)]) ∧
    (v56_22.Safe ∧ v56_22.Shaped ∧ (∀ (k e : Nat), v56_22.dev.eu.epoch k = some e → v56_22.dev.raw < e) ∧ v56_22.dev.batches = []) :=
  ⟨⟨State.safe_of (by decide +kernel), State.shaped_of (by decide +kernel), by decide +kernel⟩,
    ⟨State.safe_of (by decide +kernel), State.shaped_of (by decide +kernel), by decide +kernel⟩,
    ⟨State.safe_of (by decide +kernel), State.shaped_of (by decide +kernel), by decide +kernel⟩,
    ⟨State.safe_of (by decide +kernel), State.shaped_of (by decide +kernel), by decide +kernel⟩,
    ⟨State.safe_of (by decide +kernel), State.shaped_of (by decide +kernel), by decide +kernel⟩,
    ⟨State.safe_of (by decide +kernel), State.shaped_of (by decide +kernel), by decide +kernel⟩,
    ⟨State.safe_of (by decide +kernel), State.shaped_of (by decide +kernel), by decide +kernel⟩,
    ⟨State.safe_of (by decide +kernel), State.shaped_of (by decide +kernel), by decide +kernel⟩,
    ⟨State.safe_of (by decide +kernel), State.shaped_of (by decide +kernel), by decide +kernel⟩,
    ⟨State.safe_of (by decide +kernel), State.shaped_of (by decide +kernel), by decide +kernel⟩,
    ⟨State.safe_of (by decide +kernel), State.shaped_of (by decide +kernel), by decide +kernel⟩,
    ⟨State.safe_of (by decide +kernel), State.shaped_of (by decide +kernel), all_epochs (by decide +kernel), by decide +kernel⟩⟩

theorem witness_ClockPairLossResetsOnBoth :
    (v60_1.Safe ∧ v60_1.Shaped ∧ v60_1.dev.dieSt 1 ≠ 2 ∧ (v60_1.dev.die 1).pairsLost = 0) ∧
    (v60_2.Safe ∧ v60_2.Shaped ∧ v60_2.dev.dieSt 1 ≠ 2 ∧ (v60_2.dev.die 1).pairsLost = 2 ^ (1 - 0)) :=
  ⟨⟨State.safe_of (by decide +kernel), State.shaped_of (by decide +kernel), by decide +kernel⟩,
    ⟨State.safe_of (by decide +kernel), State.shaped_of (by decide +kernel), by decide +kernel⟩⟩

theorem witness_ReplicasAndDieLinksKept :
    (v60_3.Safe ∧ v60_3.Shaped ∧ v60_3.dev.dieSt 1 ≠ 2 ∧ v60_3.dev.raw % 8192 = 0) ∧
    (v60_4.Safe ∧ v60_4.Shaped ∧ v60_4.dev.raw % 8192 ≠ 0) ∧
    (v60_5.Safe ∧ v60_5.Shaped ∧ v60_5.dev.dieSt 1 ≠ 2) ∧
    (v60_6.Safe ∧ v60_6.Shaped ∧ (∀ (q : Int) (m0 : Nat), (v60_6.dev.die 1).replica = some (q, m0) → ∀ (y : Int), y = q + (16384 - ↑m0) → (16488 = if y < 16384 + 100 then y + 1 else if 16384 + 100 < y then y - 1 else y) ∧ 4 = 16488 - (16384 + 100)) ∧ v60_6.dev.dieSt 1 ≠ 2 ∧ (v60_6.dev.die 1).sync = some (16384, 100) ∧ ((v60_6.dev.die 1).replica = none → 16488 = 16384 + 100 ∧ 4 = 0) ∧ Int.natAbs 4 * 1250 ≤ 200 * 65536) ∧
    (v60_7.Safe ∧ v60_7.Shaped ∧ (∀ (q : Int) (m0 : Nat), (v60_7.dev.die 1).replica = some (q, m0) → ∀ (y : Int), y = q + (16384 - ↑m0) → (16484 = if y < 16384 + 100 then y + 1 else if 16384 + 100 < y then y - 1 else y) ∧ 0 = 16484 - (16384 + 100)) ∧ v60_7.dev.dieSt 1 ≠ 2 ∧ (v60_7.dev.die 1).sync = some (16384, 100) ∧ ((v60_7.dev.die 1).replica = none → 16484 = 16384 + 100 ∧ 0 = 0) ∧ Int.natAbs 0 * 1250 ≤ 200 * 65536) ∧
    (v60_8.Safe ∧ v60_8.Shaped ∧ (∀ (q : Int) (m0 : Nat), (v60_8.dev.die 1).replica = some (q, m0) → ∀ (y : Int), y = q + (16384 - ↑m0) → (66383 = if y < 16384 + 100 then y + 1 else if 16384 + 100 < y then y - 1 else y) ∧ 49899 = 66383 - (16384 + 100)) ∧ v60_8.dev.dieSt 1 ≠ 2 ∧ (v60_8.dev.die 1).sync = some (16384, 100) ∧ ((v60_8.dev.die 1).replica = none → 66383 = 16384 + 100 ∧ 49899 = 0) ∧ 200 * 65536 < Int.natAbs 49899 * 1250 ∧ (∀ (l : Fin 4), v60_8.dev.get (F.LOG_WR_WR 1 ↑l) < BitVec.toNat (v60_8.dev.reg (A.LOG_SIZE 1 ↑l)) * 256 ∨ v60_8.dev.reg (A.LOG_SIZE 1 ↑l) = 0)) ∧
    (v60_9.Safe ∧ v60_9.Shaped ∧ v60_9.dev.dieSt 1 ≠ 2 ∧ (v60_9.dev.die 1).lastSync + 8192 ≤ v60_9.dev.raw) ∧
    (v60_10.Safe ∧ v60_10.Shaped ∧ v60_10.dev.raw < (v60_10.dev.die 1).lastSync + 8192) ∧
    (v60_11.Safe ∧ v60_11.Shaped ∧ 4 ≤ (v60_11.dev.die 1).badSync ∧ v60_11.dev.flag (F.REPLICA_STATUS_ALIGNED 1) = true) ∧
    (v60_12.Safe ∧ v60_12.Shaped ∧ 4 ≤ (v60_12.dev.die 1).goodSync ∧ v60_12.dev.flag (F.REPLICA_STATUS_ALIGNED 1) = false) ∧
    (v60_1.Safe ∧ v60_1.Shaped ∧ (∀ (m : Nat), (if 2 < 4 then some 2 else if 2 < 6 then none else some ((2 - 6) / 2)) = some m → v60_1.dev.dieSt m ≠ 2) ∧ (v60_1.dev.flag { addr := if 2 < 4 then A.LINK_STATUS_DL 2 else A.LMC_LINK (2 - 4), hi := if true = true then 1 else 0, lo := if true = true then 1 else 0 } = false)) ∧
    (v60_1.Safe ∧ v60_1.Shaped ∧ (∀ (m : Nat), (if 7 < 4 then some 7 else if 7 < 6 then none else some ((7 - 6) / 2)) = some m → v60_1.dev.dieSt m ≠ 2) ∧ (v60_1.dev.flag { addr := if 7 < 4 then A.LINK_STATUS_DL 7 else A.LMC_LINK (7 - 4), hi := if false = true then 1 else 0, lo := if false = true then 1 else 0 } = false)) ∧
    (v60_13.Safe ∧ v60_13.Shaped ∧ (∀ (m : Nat), (if 2 < 4 then some 2 else if 2 < 6 then none else some ((2 - 6) / 2)) = some m → v60_13.dev.dieSt m ≠ 2) ∧ (v60_13.dev.flag { addr := if 2 < 4 then A.LINK_STATUS_DL 2 else A.LMC_LINK (2 - 4), hi := if true = true then 1 else 0, lo := if true = true then 1 else 0 } = true) ∧ 2 = 2) ∧
    (v60_14.Safe ∧ v60_14.Shaped ∧ (∀ (m : Nat), (if 7 < 4 then some 7 else if 7 < 6 then none else some ((7 - 6) / 2)) = some m → v60_14.dev.dieSt m ≠ 2) ∧ (v60_14.dev.flag { addr := if 7 < 4 then A.LINK_STATUS_DL 7 else A.LMC_LINK (7 - 4), hi := if true = true then 1 else 0, lo := if true = true then 1 else 0 } = true) ∧ 4 ≤ 7) ∧
    (v60_15.Safe ∧ v60_15.Shaped ∧ (∀ (m : Nat), (if 2 < 4 then some 2 else if 2 < 6 then none else some ((2 - 6) / 2)) = some m → v60_15.dev.dieSt m ≠ 2)) ∧
    (v60_16.Safe ∧ v60_16.Shaped ∧ v60_16.dev.flag { addr := A.DIE_STATE, hi := 8 + 1, lo := 8 + 1 } = false ∧ v60_16.dev.dieSt 1 = 1 ∧ v60_16.dev.dieDrained 1 = true) ∧
    (v60_17.Safe ∧ v60_17.Shaped ∧ v60_17.dev.flag { addr := A.DIE_STATE, hi := 8 + 1, lo := 8 + 1 } = false ∧ v60_17.dev.dieSt 1 = 3 ∧ v60_17.dev.flag (F.REPLICA_STATUS_ALIGNED 1) = true ∧ v60_17.dev.flag (pllLocked (4 + 1)) = true ∧ v60_17.dev.flag (pllLocked (8 + 1)) = true) ∧
    (v60_18.Safe ∧ v60_18.Shaped ∧ v60_18.dev.dieSt 1 ≠ 2) ∧
    (v60_19.Safe ∧ v60_19.Shaped ∧ v60_19.dev.dieSt 1 ≠ 2) ∧
    (v60_21.Safe ∧ v60_21.Shaped ∧ v60_21.dev.dieSt 1 ≠ 2) ∧
    (v60_19.Safe ∧ v60_19.Shaped) ∧
    (v60_20.Safe ∧ v60_20.Shaped ∧ bit (v60_20.dev.get F.LMC_STATUS_TRAINED) 1 = true) ∧
    (v60_20.Safe ∧ v60_20.Shaped ∧ bit (v60_20.dev.get F.LMC_STATUS_TRAINED) 0 = false) :=
  ⟨⟨State.safe_of (by decide +kernel), State.shaped_of (by decide +kernel), by decide +kernel⟩,
    ⟨State.safe_of (by decide +kernel), State.shaped_of (by decide +kernel), by decide +kernel⟩,
    ⟨State.safe_of (by decide +kernel), State.shaped_of (by decide +kernel), by decide +kernel⟩,
    ⟨State.safe_of (by decide +kernel), State.shaped_of (by decide +kernel), all_replica (by decide +kernel), by decide +kernel⟩,
    ⟨State.safe_of (by decide +kernel), State.shaped_of (by decide +kernel), all_replica (by decide +kernel), by decide +kernel⟩,
    ⟨State.safe_of (by decide +kernel), State.shaped_of (by decide +kernel), all_replica (by decide +kernel), by decide +kernel⟩,
    ⟨State.safe_of (by decide +kernel), State.shaped_of (by decide +kernel), by decide +kernel⟩,
    ⟨State.safe_of (by decide +kernel), State.shaped_of (by decide +kernel), by decide +kernel⟩,
    ⟨State.safe_of (by decide +kernel), State.shaped_of (by decide +kernel), by decide +kernel⟩,
    ⟨State.safe_of (by decide +kernel), State.shaped_of (by decide +kernel), by decide +kernel⟩,
    ⟨State.safe_of (by decide +kernel), State.shaped_of (by decide +kernel), all_some (by decide +kernel), by decide +kernel⟩,
    ⟨State.safe_of (by decide +kernel), State.shaped_of (by decide +kernel), all_some (by decide +kernel), by decide +kernel⟩,
    ⟨State.safe_of (by decide +kernel), State.shaped_of (by decide +kernel), all_some (by decide +kernel), by decide +kernel⟩,
    ⟨State.safe_of (by decide +kernel), State.shaped_of (by decide +kernel), all_some (by decide +kernel), by decide +kernel⟩,
    ⟨State.safe_of (by decide +kernel), State.shaped_of (by decide +kernel), all_some (by decide +kernel)⟩,
    ⟨State.safe_of (by decide +kernel), State.shaped_of (by decide +kernel), by decide +kernel⟩,
    ⟨State.safe_of (by decide +kernel), State.shaped_of (by decide +kernel), by decide +kernel⟩,
    ⟨State.safe_of (by decide +kernel), State.shaped_of (by decide +kernel), by decide +kernel⟩,
    ⟨State.safe_of (by decide +kernel), State.shaped_of (by decide +kernel), by decide +kernel⟩,
    ⟨State.safe_of (by decide +kernel), State.shaped_of (by decide +kernel), by decide +kernel⟩,
    ⟨State.safe_of (by decide +kernel), State.shaped_of (by decide +kernel)⟩,
    ⟨State.safe_of (by decide +kernel), State.shaped_of (by decide +kernel), by decide +kernel⟩,
    ⟨State.safe_of (by decide +kernel), State.shaped_of (by decide +kernel), by decide +kernel⟩⟩

theorem witness_FaultsRecordedAndActedOn :
    (v62_1.Safe ∧ v62_1.Shaped ∧ v62_1.dev.openFaults = [fDone, fOsc] ∧ (∀ (x : OpenFault), x ∈ [fDone, fOsc] → x.logged = false) ∧ v62_1.dev.loaded = true ∧ false = decide (fDone.fr.code ∈ [4, 11, 12, 13]) ∧ fDone.afterLoad = false ∧ (∃ (e : Nat), fDone.ended = some e ∧ e ≤ v62_1.dev.raw) ∧ (fDone.afterLoad = true → v62_1.dev.md.resetDue = false)) ∧
    (v62_2.Safe ∧ v62_2.Shaped ∧ v62_2.dev.openFaults = [fQuiet] ∧ (∀ (x : OpenFault), x ∈ [fQuiet] → x.logged = false) ∧ v62_2.dev.loaded = true ∧ true = decide (fQuiet.fr.code ∈ [4, 11, 12, 13]) ∧ (fQuiet.afterLoad = true → v62_2.dev.md.resetDue = false)) ∧
    (v62_3.Safe ∧ v62_3.Shaped ∧ v62_3.dev.openFaults = [fLate, fOsc] ∧ (∀ (x : OpenFault), x ∈ [fLate, fOsc] → x.logged = false) ∧ v62_3.dev.loaded = true ∧ false = decide (fLate.fr.code ∈ [4, 11, 12, 13]) ∧ fLate.afterLoad = true ∧ v62_3.dev.md.resetDue = false ∧ (fLate.afterLoad = true → v62_3.dev.md.resetDue = false)) ∧
    (v62_4.Safe ∧ v62_4.Shaped ∧ (∀ (e : Nat), v62_5.ended = some e → v62_4.dev.raw < e) ∧ v62_4.dev.openFaults = [v62_5] ∧ (∀ (x : OpenFault), x ∈ [v62_5] → x.logged = false) ∧ ¬v62_5.fr.code ∈ [4, 11, 12, 13] ∧ v62_5.afterLoad = false) ∧
    (warm.Safe ∧ warm.Shaped ∧ (∀ (x : Nat), warm.dev.md.coresUp = some x → x + 8000000000 ≤ warm.dev.raw) ∧ warm.dev.mode ≠ Mode.bypass ∧ warm.dev.md.coresDown = none) ∧
    (v62_6.Safe ∧ v62_6.Shaped ∧ v62_6.dev.mode ≠ Mode.bypass ∧ v62_6.dev.md.coresDown = none ∧ (∃ (x : Nat), v62_6.dev.md.coresUp = some x ∧ v62_6.dev.raw < x + 8000000000)) ∧
    (v62_7.Safe ∧ v62_7.Shaped ∧ v62_7.dev.md.coresDown ≠ none) ∧
    (v62_8.Safe ∧ v62_8.Shaped ∧ v62_8.dev.mode ≠ Mode.bypass) ∧
    (v62_9.Safe ∧ v62_9.Shaped ∧ v62_9.dev.md.powerBad = false) ∧
    (v62_8.Safe ∧ v62_8.Shaped ∧ 841 < 920) ∧
    (v62_8.Safe ∧ v62_8.Shaped ∧ 920 ≤ 920 ∧ v62_8.dev.mode ≠ Mode.bypass) ∧
    (v62_8.Safe ∧ v62_8.Shaped ∧ 919 < 920) ∧
    (v62_10.Safe ∧ v62_10.Shaped ∧ (∀ (n : Fin 4), some 1 = some n → v62_10.dev.diePowered ↑n = true ∧ A.D_CNT_CFG 1 3 = A.D_CNT_CFG ↑n 3 ∧ A.D_CNT_OVF 1 = A.D_CNT_OVF ↑n ∧ A.D_CNT 1 3 = if 3 < 8 then A.D_CNT ↑n 3 else A.D_CYCLE ↑n) ∧ (some 1 = none → (3 < 4 ∨ 3 = 8) ∧ A.D_CNT_CFG 1 3 = A.K_CNT_CFG 3 ∧ A.D_CNT_OVF 1 = A.K_CNT_OVF ∧ A.D_CNT 1 3 = if 3 < 8 then A.K_CNT 3 else A.K_CYCLE) ∧ 3 < 8 ∧ bit (BitVec.toNat (v62_10.dev.reg (A.D_CNT_CFG 1 3))) 12 = true ∧ bits 7 0 (v62_10.dev.reg (A.D_CNT_CFG 1 3)) ≠ 0 ∧ v62_10.dev.get64 (A.D_CNT 1 3) = 2 ^ 48 - 1) ∧
    (v62_11.Safe ∧ v62_11.Shaped ∧ (∀ (n : Fin 4), none = some n → v62_11.dev.diePowered ↑n = true ∧ A.K_CNT_CFG 8 = A.D_CNT_CFG ↑n 8 ∧ A.K_CNT_OVF = A.D_CNT_OVF ↑n ∧ A.K_CYCLE = if 8 < 8 then A.D_CNT ↑n 8 else A.D_CYCLE ↑n) ∧ ((8 < 4 ∨ 8 = 8) ∧ A.K_CNT_CFG 8 = A.K_CNT_CFG 8 ∧ A.K_CNT_OVF = A.K_CNT_OVF ∧ A.K_CYCLE = if 8 < 8 then A.K_CNT 8 else A.K_CYCLE) ∧ 8 = 8 ∧ v62_11.dev.get64 A.K_CYCLE = 2 ^ 64 - 1) ∧
    (v62_12.Safe ∧ v62_12.Shaped ∧ (∀ (n : Fin 4), none = some n → v62_12.dev.diePowered ↑n = true ∧ A.K_CNT_CFG 3 = A.D_CNT_CFG ↑n 3 ∧ A.K_CNT_OVF = A.D_CNT_OVF ↑n ∧ A.K_CNT 3 = if 3 < 8 then A.D_CNT ↑n 3 else A.D_CYCLE ↑n) ∧ ((3 < 4 ∨ 3 = 8) ∧ A.K_CNT_CFG 3 = A.K_CNT_CFG 3 ∧ A.K_CNT_OVF = A.K_CNT_OVF ∧ A.K_CNT 3 = if 3 < 8 then A.K_CNT 3 else A.K_CYCLE) ∧ 3 < 8 ∧ bit (BitVec.toNat (v62_12.dev.reg (A.K_CNT_CFG 3))) 12 = true ∧ bits 7 0 (v62_12.dev.reg (A.K_CNT_CFG 3)) ≠ 0 ∧ v62_12.dev.get64 (A.K_CNT 3) = 2 ^ 48 - 1) :=
  ⟨⟨State.safe_of (by decide +kernel), State.shaped_of (by decide +kernel), by decide +kernel⟩,
    ⟨State.safe_of (by decide +kernel), State.shaped_of (by decide +kernel), by decide +kernel⟩,
    ⟨State.safe_of (by decide +kernel), State.shaped_of (by decide +kernel), by decide +kernel⟩,
    ⟨State.safe_of (by decide +kernel), State.shaped_of (by decide +kernel), all_some (by decide +kernel), by decide +kernel⟩,
    ⟨State.safe_of (by decide +kernel), State.shaped_of (by decide +kernel), all_some (by decide +kernel), by decide +kernel⟩,
    ⟨State.safe_of (by decide +kernel), State.shaped_of (by decide +kernel), by decide +kernel⟩,
    ⟨State.safe_of (by decide +kernel), State.shaped_of (by decide +kernel), by decide +kernel⟩,
    ⟨State.safe_of (by decide +kernel), State.shaped_of (by decide +kernel), by decide +kernel⟩,
    ⟨State.safe_of (by decide +kernel), State.shaped_of (by decide +kernel), by decide +kernel⟩,
    ⟨State.safe_of (by decide +kernel), State.shaped_of (by decide +kernel), by decide +kernel⟩,
    ⟨State.safe_of (by decide +kernel), State.shaped_of (by decide +kernel), by decide +kernel⟩,
    ⟨State.safe_of (by decide +kernel), State.shaped_of (by decide +kernel), by decide +kernel⟩,
    ⟨State.safe_of (by decide +kernel), State.shaped_of (by decide +kernel), all_some (by decide +kernel), by decide +kernel⟩,
    ⟨State.safe_of (by decide +kernel), State.shaped_of (by decide +kernel), all_some (by decide +kernel), by decide +kernel⟩,
    ⟨State.safe_of (by decide +kernel), State.shaped_of (by decide +kernel), all_some (by decide +kernel), by decide +kernel⟩⟩

theorem witness_ModesChangeResetsAndLoad :
    (v64_1.Safe ∧ v64_1.Shaped ∧ v64_1.dev.md.run = none ∧ rq 2 true = { mode := v64_1.dev.get F.MODE_CTRL_REQ_MODE, standbyTb := v64_1.dev.flag F.MODE_CTRL_STANDBY_TB, useEpoch := v64_1.dev.flag F.MODE_CTRL_USE_EPOCH, epoch := v64_1.dev.get64 A.MODE_EPOCH } ∧ v64_1.dev.mode = Mode.warm ∧ (rq 2 true).mode = 2) ∧
    (v64_2.Safe ∧ v64_2.Shaped ∧ v64_2.dev.md.run = none ∧ rq 3 = { mode := v64_2.dev.get F.MODE_CTRL_REQ_MODE, standbyTb := v64_2.dev.flag F.MODE_CTRL_STANDBY_TB, useEpoch := v64_2.dev.flag F.MODE_CTRL_USE_EPOCH, epoch := v64_2.dev.get64 A.MODE_EPOCH } ∧ v64_2.dev.mode = Mode.standby ∧ v64_2.dev.coarse = false ∧ (rq 3).mode = 3) ∧
    (v64_3.Safe ∧ v64_3.Shaped ∧ v64_3.dev.md.run = none ∧ rq 3 = { mode := v64_3.dev.get F.MODE_CTRL_REQ_MODE, standbyTb := v64_3.dev.flag F.MODE_CTRL_STANDBY_TB, useEpoch := v64_3.dev.flag F.MODE_CTRL_USE_EPOCH, epoch := v64_3.dev.get64 A.MODE_EPOCH } ∧ v64_3.dev.mode = Mode.standby ∧ v64_3.dev.coarse = true ∧ (rq 3).mode = 3) ∧
    (v64_4.Safe ∧ v64_4.Shaped ∧ v64_4.dev.md.run = none ∧ rq 4 = { mode := v64_4.dev.get F.MODE_CTRL_REQ_MODE, standbyTb := v64_4.dev.flag F.MODE_CTRL_STANDBY_TB, useEpoch := v64_4.dev.flag F.MODE_CTRL_USE_EPOCH, epoch := v64_4.dev.get64 A.MODE_EPOCH } ∧ v64_4.dev.mode = Mode.standby ∧ (rq 4).mode = 4) ∧
    (v64_5.Safe ∧ v64_5.Shaped ∧ v64_5.dev.md.run = none ∧ rq 2 = { mode := v64_5.dev.get F.MODE_CTRL_REQ_MODE, standbyTb := v64_5.dev.flag F.MODE_CTRL_STANDBY_TB, useEpoch := v64_5.dev.flag F.MODE_CTRL_USE_EPOCH, epoch := v64_5.dev.get64 A.MODE_EPOCH } ∧ v64_5.dev.mode = Mode.standby ∧ (rq 2).mode = 2 ∧ (rq 2).standbyTb = v64_5.dev.coarse) ∧
    (v64_6.Safe ∧ v64_6.Shaped ∧ v64_6.dev.md.run = none ∧ rq 2 = { mode := v64_6.dev.get F.MODE_CTRL_REQ_MODE, standbyTb := v64_6.dev.flag F.MODE_CTRL_STANDBY_TB, useEpoch := v64_6.dev.flag F.MODE_CTRL_USE_EPOCH, epoch := v64_6.dev.get64 A.MODE_EPOCH } ∧ v64_6.dev.mode = Mode.standby ∧ (rq 2).mode = 2 ∧ (rq 2).standbyTb = !v64_6.dev.coarse) ∧
    (v64_7.Safe ∧ v64_7.Shaped ∧ v64_7.dev.md.run = none ∧ rq 4 = { mode := v64_7.dev.get F.MODE_CTRL_REQ_MODE, standbyTb := v64_7.dev.flag F.MODE_CTRL_STANDBY_TB, useEpoch := v64_7.dev.flag F.MODE_CTRL_USE_EPOCH, epoch := v64_7.dev.get64 A.MODE_EPOCH } ∧ v64_7.dev.mode = Mode.warm ∧ (rq 4).mode = 4 ∧ (0 = if (if (rq 4).useEpoch = true then (rq 4).epoch else v64_7.dev.raw + 16384) < v64_7.dev.raw + 16384 then 4 else if true = true ∧ v64_7.dev.serveReady = false then 3 else 0)) ∧
    (v64_8.Safe ∧ v64_8.Shaped ∧ v64_8.dev.md.run = none ∧ rq 3 false true 116383 = { mode := v64_8.dev.get F.MODE_CTRL_REQ_MODE, standbyTb := v64_8.dev.flag F.MODE_CTRL_STANDBY_TB, useEpoch := v64_8.dev.flag F.MODE_CTRL_USE_EPOCH, epoch := v64_8.dev.get64 A.MODE_EPOCH } ∧ v64_8.dev.mode = Mode.serve ∧ (rq 3 false true 116383).mode = 3 ∧ (4 = if (if (rq 3 false true 116383).useEpoch = true then (rq 3 false true 116383).epoch else v64_8.dev.raw + 16384) < v64_8.dev.raw + 16384 then 4 else if false = true ∧ v64_8.dev.serveReady = false then 3 else 0)) ∧
    (v64_9.Safe ∧ v64_9.Shaped ∧ v64_9.dev.md.run = none ∧ rq 3 false true 116384 = { mode := v64_9.dev.get F.MODE_CTRL_REQ_MODE, standbyTb := v64_9.dev.flag F.MODE_CTRL_STANDBY_TB, useEpoch := v64_9.dev.flag F.MODE_CTRL_USE_EPOCH, epoch := v64_9.dev.get64 A.MODE_EPOCH } ∧ v64_9.dev.mode = Mode.serve ∧ (rq 3 false true 116384).mode = 3 ∧ (0 = if (if (rq 3 false true 116384).useEpoch = true then (rq 3 false true 116384).epoch else v64_9.dev.raw + 16384) < v64_9.dev.raw + 16384 then 4 else if false = true ∧ v64_9.dev.serveReady = false then 3 else 0)) ∧
    (v64_10.Safe ∧ v64_10.Shaped ∧ v64_10.dev.md.run = none ∧ rq 6 = { mode := v64_10.dev.get F.MODE_CTRL_REQ_MODE, standbyTb := v64_10.dev.flag F.MODE_CTRL_STANDBY_TB, useEpoch := v64_10.dev.flag F.MODE_CTRL_USE_EPOCH, epoch := v64_10.dev.get64 A.MODE_EPOCH } ∧ v64_10.dev.mode = Mode.test ∧ (rq 6).mode = 6) ∧
    (v64_11.Safe ∧ v64_11.Shaped ∧ v64_11.dev.md.run = none ∧ rq 6 = { mode := v64_11.dev.get F.MODE_CTRL_REQ_MODE, standbyTb := v64_11.dev.flag F.MODE_CTRL_STANDBY_TB, useEpoch := v64_11.dev.flag F.MODE_CTRL_USE_EPOCH, epoch := v64_11.dev.get64 A.MODE_EPOCH } ∧ v64_11.dev.mode = Mode.serve ∧ ¬(rq 6).mode ∈ [3, 4]) ∧
    (v64_12.Safe ∧ v64_12.Shaped ∧ v64_12.dev.md.run = some runW ∧ v64_12.dev.mode ≠ Mode.bypass ∧ rq 4 = { mode := v64_12.dev.get F.MODE_CTRL_REQ_MODE, standbyTb := v64_12.dev.flag F.MODE_CTRL_STANDBY_TB, useEpoch := v64_12.dev.flag F.MODE_CTRL_USE_EPOCH, epoch := v64_12.dev.get64 A.MODE_EPOCH } ∧ (true = true ↔ ((rq 4).mode = runW.target ∨ (rq 4).mode = 4 ∧ runW.target = 5) ∧ ((rq 4).mode = 2 → (rq 4).standbyTb = runW.tb))) ∧
    (v64_13.Safe ∧ v64_13.Shaped ∧ v64_13.dev.md.run = some runW ∧ v64_13.dev.mode ≠ Mode.bypass ∧ rq 2 = { mode := v64_13.dev.get F.MODE_CTRL_REQ_MODE, standbyTb := v64_13.dev.flag F.MODE_CTRL_STANDBY_TB, useEpoch := v64_13.dev.flag F.MODE_CTRL_USE_EPOCH, epoch := v64_13.dev.get64 A.MODE_EPOCH } ∧ (false = true ↔ ((rq 2).mode = runW.target ∨ (rq 2).mode = 4 ∧ runW.target = 5) ∧ ((rq 2).mode = 2 → (rq 2).standbyTb = runW.tb))) :=
  ⟨⟨State.safe_of (by decide +kernel), State.shaped_of (by decide +kernel), by decide +kernel⟩,
    ⟨State.safe_of (by decide +kernel), State.shaped_of (by decide +kernel), by decide +kernel⟩,
    ⟨State.safe_of (by decide +kernel), State.shaped_of (by decide +kernel), by decide +kernel⟩,
    ⟨State.safe_of (by decide +kernel), State.shaped_of (by decide +kernel), by decide +kernel⟩,
    ⟨State.safe_of (by decide +kernel), State.shaped_of (by decide +kernel), by decide +kernel⟩,
    ⟨State.safe_of (by decide +kernel), State.shaped_of (by decide +kernel), by decide +kernel⟩,
    ⟨State.safe_of (by decide +kernel), State.shaped_of (by decide +kernel), by decide +kernel⟩,
    ⟨State.safe_of (by decide +kernel), State.shaped_of (by decide +kernel), by decide +kernel⟩,
    ⟨State.safe_of (by decide +kernel), State.shaped_of (by decide +kernel), by decide +kernel⟩,
    ⟨State.safe_of (by decide +kernel), State.shaped_of (by decide +kernel), by decide +kernel⟩,
    ⟨State.safe_of (by decide +kernel), State.shaped_of (by decide +kernel), by decide +kernel⟩,
    ⟨State.safe_of (by decide +kernel), State.shaped_of (by decide +kernel), by decide +kernel⟩,
    ⟨State.safe_of (by decide +kernel), State.shaped_of (by decide +kernel), by decide +kernel⟩⟩

theorem witness_ModesChangeResetsAndLoad_b :
    (v64_14.Safe ∧ v64_14.Shaped ∧ v64_14.dev.md.run = some (runE 4 false) ∧ (runE 4 false).epoch = some 100000 ∧ (runE 4 false).passed = false ∧ 100000 ≤ v64_14.dev.raw) ∧
    (v64_15.Safe ∧ v64_15.Shaped ∧ v64_15.dev.md.run = some (runE 4 false) ∧ (runE 4 false).epoch = some 100000 ∧ v64_15.dev.raw < 100000) ∧
    (v64_16.Safe ∧ v64_16.Shaped ∧ v64_16.dev.md.run = some (runE 3 true) ∧ (runE 3 true).epoch = some 100000 ∧ (runE 3 true).passed = true ∧ ((runE 3 true).target = 3 → v64_16.dev.allDrained = true) ∧ (runE 3 true).next = none ∧ v64_16.dev.md.latched = none) ∧
    (v64_17.Safe ∧ v64_17.Shaped ∧ v64_17.dev.md.run = some { target := 6 } ∧ v64_17.dev.md.latched = none ∧ v64_17.dev.mode = Mode.warm) ∧
    (v64_18.Safe ∧ v64_18.Shaped ∧ v64_18.dev.md.run = some { target := 3 } ∧ v64_18.dev.md.latched = none ∧ v64_18.dev.mode = Mode.test) ∧
    (v64_19.Safe ∧ v64_19.Shaped ∧ v64_19.dev.md.run = some { target := 2 } ∧ v64_19.dev.md.latched = none ∧ v64_19.dev.mode = Mode.warm) ∧
    (sUp.Safe ∧ sUp.Shaped ∧ sUp.dev.md.run = some { target := 3 } ∧ sUp.dev.md.latched = none ∧ sUp.dev.mode = Mode.standby ∧ sUp.dev.coarse = false) ∧
    (v64_20.Safe ∧ v64_20.Shaped ∧ v64_20.dev.coarse = true ∧ v64_20.dev.md.restart = some 5 ∧ v64_20.dev.flag (pllLocked 0) = true ∧ v64_20.dev.clk.cycRes = 0) ∧
    (sDeb.Safe ∧ sDeb.Shaped) ∧
    (v64_21.Safe ∧ v64_21.Shaped ∧ v64_21.dev.md.resetDue = true ∧ v64_21.dev.mode ≠ Mode.bypass) ∧
    (v64_22.Safe ∧ v64_22.Shaped ∧ v64_22.dev.md.resetDue = false) ∧
    (v64_22.Safe ∧ v64_22.Shaped) ∧
    (v64_23.Safe ∧ v64_23.Shaped ∧ v64_23.dev.armOf Req.host A.GUARD = some { req := Req.host, target := A.RESET_CTRL, since := 92001 } ∧ v64_23.dev.raw < 92001 + 8000 ∧ bit ((1 : Word).toNat) 0 = true ∧ v64_23.dev.limitOk [(A.RESET_CTRL, 1)] = true) ∧
    (v64_24.Safe ∧ v64_24.Shaped) ∧
    (v64_23.Safe ∧ v64_23.Shaped) ∧
    (v64_25.Safe ∧ v64_25.Shaped ∧ v64_25.dev.md.powerBad = false ∧ v64_25.dev.md.pulse = false ∧ v64_25.dev.md.hot = false ∧ v64_25.dev.mode = Mode.bypass) ∧
    (v64_26.Safe ∧ v64_26.Shaped ∧ v64_26.dev.md.pulse = true ∧ 800000 ≤ v64_26.dev.md.age ∧ v64_26.dev.md.resetLow = false ∧ v64_26.dev.md.powerBad = false ∧ v64_26.dev.md.hot = false ∧ v64_26.dev.mode = Mode.bypass) ∧
    (v64_27.Safe ∧ v64_27.Shaped ∧ v64_27.dev.mode = Mode.load ∧ 4000 ≤ v64_27.dev.md.age ∧ v64_27.dev.md.safePin = none) ∧
    (v64_28.Safe ∧ v64_28.Shaped ∧ v64_28.dev.mode = Mode.load ∧ v64_28.dev.md.age < 4000) ∧
    (v64_29.Safe ∧ v64_29.Shaped ∧ v64_29.dev.mode = Mode.load ∧ v64_29.dev.md.load = 0) ∧
    (v64_30.Safe ∧ v64_30.Shaped ∧ v64_30.dev.mode = Mode.load ∧ v64_30.dev.md.load = 1 ∧ 25 ∈ [10, 20, 25] ∧ 920 * 25 ≤ 23000 ∧ 23000 ≤ 1080 * 25 ∧ (true = true → 25 = 25)) ∧
    (v64_30.Safe ∧ v64_30.Shaped ∧ v64_30.dev.mode = Mode.load ∧ v64_30.dev.md.load = 1 ∧ (∀ (m : Nat), m ∈ [10, 20, 25] → 22999 < 920 * m ∨ 1080 * m < 22999 ∨ true = true ∧ m ≠ 25)) ∧
    (v64_31.Safe ∧ v64_31.Shaped ∧ v64_31.dev.mode = Mode.load ∧ v64_31.dev.md.load = 2 ∧ v64_31.dev.clk.running = true ∧ v64_31.dev.md.run = none ∧ v64_31.dev.md.latched = none ∧ v64_31.dev.md.safePin = some true) ∧
    (v64_32.Safe ∧ v64_32.Shaped ∧ v64_32.dev.mode = Mode.load ∧ v64_32.dev.md.load = 2 ∧ v64_32.dev.clk.running = true ∧ v64_32.dev.md.run = none ∧ v64_32.dev.md.latched = none ∧ v64_32.dev.md.safePin ≠ some true ∧ v64_32.dev.nv.hdr = none) ∧
    (sBt.Safe ∧ sBt.Shaped ∧ sBt.dev.mode = Mode.load ∧ sBt.dev.md.load = 2 ∧ sBt.dev.clk.running = true ∧ sBt.dev.md.run = none ∧ sBt.dev.md.latched = none ∧ sBt.dev.md.safePin ≠ some true) ∧
    (sBt.Safe ∧ sBt.Shaped ∧ sBt.dev.mode = Mode.load ∧ sBt.dev.md.load = 2 ∧ sBt.dev.clk.running = true ∧ sBt.dev.md.run = none ∧ sBt.dev.md.latched = none ∧ sBt.dev.md.safePin ≠ some true ∧ sBt.dev.nv.hdr = some v64_33 ∧ 0 = v64_33.active ∧ 0 = v64_33.posActive ∧ 0 ≤ 1 ∧ (v64_33.rec' 0 0).state = 4 ∧ ¬(v64_33.rec' 0 (1 - 0)).state ∈ [2, 3] ∧ (v64_33.rec' 1 0).state = 4 ∧ ¬(v64_33.rec' 1 (1 - 0)).state ∈ [2, 3, 4] ∧ ((if 0 = 0 then true else false) = true) ∧ List.foldl (fun (n w : Nat) => n + popCount 32 (BitVec.toNat (sBt.dev.reg (A.FUSE_MIN_GEN w)))) 0 (List.range 8) ≤ (v64_33.rec' 0 0).gen ∧ (v64_33.rec' 0 0).gen < 2 ^ 32) :=
  ⟨⟨State.safe_of (by decide +kernel), State.shaped_of (by decide +kernel), by decide +kernel⟩,
    ⟨State.safe_of (by decide +kernel), State.shaped_of (by decide +kernel), by decide +kernel⟩,
    ⟨State.safe_of (by decide +kernel), State.shaped_of (by decide +kernel), by decide +kernel⟩,
    ⟨State.safe_of (by decide +kernel), State.shaped_of (by decide +kernel), by decide +kernel⟩,
    ⟨State.safe_of (by decide +kernel), State.shaped_of (by decide +kernel), by decide +kernel⟩,
    ⟨State.safe_of (by decide +kernel), State.shaped_of (by decide +kernel), by decide +kernel⟩,
    ⟨State.safe_of (by decide +kernel), State.shaped_of (by decide +kernel), by decide +kernel⟩,
    ⟨State.safe_of (by decide +kernel), State.shaped_of (by decide +kernel), by decide +kernel⟩,
    ⟨State.safe_of (by decide +kernel), State.shaped_of (by decide +kernel)⟩,
    ⟨State.safe_of (by decide +kernel), State.shaped_of (by decide +kernel), by decide +kernel⟩,
    ⟨State.safe_of (by decide +kernel), State.shaped_of (by decide +kernel), by decide +kernel⟩,
    ⟨State.safe_of (by decide +kernel), State.shaped_of (by decide +kernel)⟩,
    ⟨State.safe_of (by decide +kernel), State.shaped_of (by decide +kernel), by decide +kernel⟩,
    ⟨State.safe_of (by decide +kernel), State.shaped_of (by decide +kernel)⟩,
    ⟨State.safe_of (by decide +kernel), State.shaped_of (by decide +kernel)⟩,
    ⟨State.safe_of (by decide +kernel), State.shaped_of (by decide +kernel), by decide +kernel⟩,
    ⟨State.safe_of (by decide +kernel), State.shaped_of (by decide +kernel), by decide +kernel⟩,
    ⟨State.safe_of (by decide +kernel), State.shaped_of (by decide +kernel), by decide +kernel⟩,
    ⟨State.safe_of (by decide +kernel), State.shaped_of (by decide +kernel), by decide +kernel⟩,
    ⟨State.safe_of (by decide +kernel), State.shaped_of (by decide +kernel), by decide +kernel⟩,
    ⟨State.safe_of (by decide +kernel), State.shaped_of (by decide +kernel), by decide +kernel⟩,
    ⟨State.safe_of (by decide +kernel), State.shaped_of (by decide +kernel), by decide +kernel⟩,
    ⟨State.safe_of (by decide +kernel), State.shaped_of (by decide +kernel), by decide +kernel⟩,
    ⟨State.safe_of (by decide +kernel), State.shaped_of (by decide +kernel), by decide +kernel⟩,
    ⟨State.safe_of (by decide +kernel), State.shaped_of (by decide +kernel), by decide +kernel⟩,
    ⟨State.safe_of (by decide +kernel), State.shaped_of (by decide +kernel), by decide +kernel⟩⟩

theorem witness_ShapedKept : State.reset.Shaped ∧ ∃ t, step State.reset = .next t :=
  ⟨State.shaped_of (by decide +kernel), _, rfl⟩

end Sys2Proof.Machine
end

section
/-! SUPPORT. Answer dies: reading and writing their records and states, and all that the drop of a link and the loss of a die's power can change (R228, R416). -/

namespace Sys2Proof.Machine

/-! ## Lists, maps and single bits -/

theorem setAt_eq_set {α : Type} (l : List α) (i : Nat) (x : α) : setAt l i x = l.set i x := by
  induction l generalizing i with
  | nil => rfl
  | cons y l ih => cases i with
    | zero => rfl
    | succ i => simp [setAt, ih]

/-- A filter that keeps every entry of a key keeps what the map holds there. -/
theorem SMap.find_filter_keep {α : Type} (f : Nat → α) (m : SMap α) (q : Nat × α → Bool) (a : Nat) (h : ∀ v, q (a, v) = true) :
    SMap.find f (m.filter q) a = SMap.find f m a := by
  induction m with
  | nil => rfl
  | cons p m ih =>
    obtain ⟨k, v⟩ := p
    simp only [List.filter_cons]
    by_cases e : a = k
    · subst e
      simp [h, SMap.find]
    · split <;> simp [SMap.find, e, ih]

theorem bits_beyond (b : Nat) (w : Word) (h : 32 ≤ b) : bits b b w = 0 := by
  have : w.toNat < 2 ^ b := Nat.lt_of_lt_of_le w.isLt (Nat.pow_le_pow_right (by decide) h)
  simp [bits, Nat.shiftRight_eq_div_pow, Nat.div_eq_of_lt this]

/-- Writing one bit of a register leaves its other bits, and the places beyond its width, as they were. -/
theorem Dev.flag_setFlag_other (d : Dev) (a k b : Nat) (v : Bool) (hk : k < 32) (h : b ≠ k) :
    (d.setFlag ⟨a, k, k⟩ v).flag ⟨a, b, b⟩ = d.flag ⟨a, b, b⟩ := by
  unfold Dev.flag Dev.setFlag
  by_cases hb : b < 32
  · rw [Dev.get_set_bits _ _ _ _ ⟨Nat.le_refl k, hk⟩ ⟨Nat.le_refl b, hb⟩ (by simp only; omega)]
  · simp only [Dev.get, bits_beyond b _ (Nat.le_of_not_lt hb)]

/-! ## The answer dies of the device -/

section Dies
variable (d : Dev) (n : Nat) (x : Die)

@[simp] theorem Dev.length_setDie : (d.setDie n x).dies.length = d.dies.length := by
  simp [Dev.setDie, setAt_eq_set]

theorem Dev.die_setDie_self (h : n < d.dies.length) : (d.setDie n x).die n = x := by
  simp [Dev.die, Dev.setDie, setAt_eq_set, h]

theorem Dev.die_setDie_ne {m : Nat} (h : m ≠ n) : (d.setDie n x).die m = d.die m := by
  simp [Dev.die, Dev.setDie, setAt_eq_set, List.getElem?_set_ne (Ne.symm h)]

/-- A part of a die that the new record shares with the old one stays, also where there is no such die. -/
theorem Dev.die_setDie_part {β : Type} (p : Die → β) (h : p x = p (d.die n)) : p ((d.setDie n x).die n) = p (d.die n) := by
  by_cases k : n < d.dies.length
  · rw [Dev.die_setDie_self _ _ _ k, h]
  · simp [Dev.die, Dev.setDie, setAt_eq_set, List.set_eq_of_length_le (Nat.le_of_not_lt k)]

end Dies

theorem Dev.pll_setPll_ne (d : Dev) {p q : Nat} (x : Pll) (h : q ≠ p) : (d.setPll p x).pll q = d.pll q := by
  simp [Dev.pll, Dev.setPll, setAt_eq_set, List.getElem?_set_ne (Ne.symm h)]

/-! ## DIE_STATE -/

theorem Dev.dieSt_congr {d e : Dev} (m : Nat) (h : e.get F.DIE_STATE_STATE = d.get F.DIE_STATE_STATE) : e.dieSt m = d.dieSt m := by
  simp only [Dev.dieSt, h]

/-- Writing one state among the four, which are the digits of STATE to base 4. -/
theorem Dev.dieSt_setDieSt (d : Dev) (n m st : Nat) (hn : n < 4) (hm : m < 4) (hs : st < 4) :
    (d.setDieSt n st).dieSt m = if m = n then st else d.dieSt m := by
  have lt : d.get F.DIE_STATE_STATE < 256 := bits_lt 7 0 _
  simp only [Dev.dieSt, Dev.setDieSt]
  rw [Dev.get_set_self _ _ _ ⟨by decide, by decide⟩]
  generalize d.get F.DIE_STATE_STATE = y at lt
  simp only [F.DIE_STATE_STATE]
  interval_cases n <;> interval_cases m <;> simp <;> omega

theorem Dev.dieSt_setDieSt_self (d : Dev) (n st : Nat) (hn : n < 4) (hs : st < 4) : (d.setDieSt n st).dieSt n = st := by
  rw [Dev.dieSt_setDieSt d n n st hn hn hs, if_pos rfl]

/-- A write of a field of DIE_STATE above the states leaves the states. -/
theorem Dev.dieSt_set_above (d : Dev) (f : Fld) (v m : Nat) (hf : f.Ok) (h : 8 ≤ f.lo) : (d.set f v).dieSt m = d.dieSt m :=
  Dev.dieSt_congr m (Dev.get_set_bits _ _ _ _ hf ⟨by decide, by decide⟩ (Or.inl h))

theorem Dev.dieSt_set_addr (d : Dev) (f : Fld) (v m : Nat) (h : f.addr ≠ A.DIE_STATE) : (d.set f v).dieSt m = d.dieSt m :=
  Dev.dieSt_congr m (Dev.get_set_addr _ _ _ _ (Ne.symm h))

theorem dieEnableF_ok {n : Nat} (hn : n < 4) : (dieEnableF n).Ok := ⟨Nat.le_refl _, by simp only [dieEnableF]; omega⟩

theorem dieLatchF_ok {n : Nat} (hn : n < 4) : (dieLatchF n).Ok := ⟨Nat.le_refl _, by simp only [dieLatchF]; omega⟩

theorem dieParkF_ok {n : Nat} (hn : n < 4) : (dieParkF n).Ok := ⟨Nat.le_refl _, by simp only [dieParkF]; omega⟩

theorem dieCodeF_ok {n : Nat} (hn : n < 4) : (dieCodeF n).Ok := ⟨by simp only [dieCodeF]; omega, by simp only [dieCodeF]; omega⟩

theorem dieLatchF_above (n : Nat) : 8 ≤ (dieLatchF n).lo := Nat.le_add_right 8 n

theorem dieParkF_above (n : Nat) : 8 ≤ (dieParkF n).lo := by simp only [dieParkF]; omega

theorem dieCodeF_above (n : Nat) : 8 ≤ (dieCodeF n).lo := by simp only [dieCodeF]; omega

/-- Moving the state of a die leaves the fields above the states. -/
theorem Dev.flag_setDieSt (d : Dev) (n st : Nat) (f : Fld) (hf : f.Ok) (h : 8 ≤ f.lo) : (d.setDieSt n st).flag f = d.flag f := by
  simp only [Dev.flag, Dev.setDieSt]
  rw [Dev.get_set_bits _ _ _ _ ⟨by decide, by decide⟩ hf (Or.inr (show F.DIE_STATE_STATE.hi < f.lo from h))]

/-! ## Changes that sweep over whole parts of the device -/

/-- Device d with its dies, its PLLs, the sources of its slots, its open faults, its rings and its count of free values as in e. -/
def Dev.carry (d e : Dev) : Dev :=
  { d with dies := e.dies, cks.plls := e.cks.plls, refs.srcs := e.refs.srcs, openFaults := e.openFaults,
           pcie.rings := e.pcie.rings, freeCtr := e.freeCtr }

/-- From d to e nothing changes but the parts that `Dev.carry` takes from e, registers of R, and what events change. -/
def Dev.Sweeps (R : Nat → Prop) (d e : Dev) : Prop := Dev.Only R (d.carry e) e

section Sweeps
variable {R : Nat → Prop} {d e f : Dev}

theorem Dev.Only.carry (h : Dev.Only R d e) (f : Dev) : Dev.Only R (d.carry f) (e.carry f) where
  rest := congrArg (fun x : Dev => x.carry f) h.rest
  bus := h.bus
  pcie := congrArg (fun p : Pcie => { p with rings := f.pcie.rings }) h.pcie
  reg := h.reg
  vectors := h.vectors
  rings := fun _ _ => rfl
  place := h.place
  head := h.head
  posted := h.posted
  out := h.out

theorem Dev.Only.sweeps (h : Dev.Only R d e) : Dev.Sweeps R d e := h.carry e

/-- A device that differs in the carried parts alone. -/
theorem Dev.Sweeps.of_carry (h : d.carry e = e) : Dev.Sweeps R d e := by
  unfold Dev.Sweeps
  rw [h]
  exact Dev.Only.refl e

theorem Dev.Sweeps.trans (h : Dev.Sweeps R d e) (k : Dev.Sweeps R e f) : Dev.Sweeps R d f := (Dev.Only.carry h f).trans k

theorem Dev.Sweeps.mono {R' : Nat → Prop} (h : Dev.Sweeps R d e) (k : ∀ a, R a → R' a) : Dev.Sweeps R' d e := Dev.Only.mono h k

theorem Dev.Sweeps.raw (h : Dev.Sweeps R d e) : e.raw = d.raw := by
  have k : Dev.Only R (d.carry e) e := h
  exact congrArg Clk.raw k.clk

end Sweeps

/-! ## A link drops, a die loses its power (R228, R416) -/

/-- Registers that the drop of a link of die n may change: the die's own, and those of the reference slots. -/
def dropReg (n a : Nat) : Prop := Span (dieBase n) 0x100000 a ∨ Span 0x20100 0x300 a

/-- From d to e links of die n have dropped or the die's power has gone: the clocks, the open faults, the other dies and the noted resets of die n are as before. -/
structure Dev.Drops (n : Nat) (d e : Dev) : Prop where
  sweeps : Dev.Sweeps (dropReg n) d e
  cks : e.cks = d.cks
  faults : e.openFaults = d.openFaults
  others : ∀ m, m ≠ n → e.die m = d.die m
  resets : (e.die n).resets = (d.die n).resets
  resetting : (e.die n).resetting = (d.die n).resetting
  count : e.dies.length = d.dies.length

section Drops
variable {n : Nat} {d e f : Dev}

/-- Where no record of a die changes, the registers, the clocks and the open faults decide. -/
theorem Dev.Drops.of_dies (sweeps : Dev.Sweeps (dropReg n) d e) (cks : e.cks = d.cks) (faults : e.openFaults = d.openFaults)
    (dies : e.dies = d.dies) : Dev.Drops n d e where
  sweeps := sweeps
  cks := cks
  faults := faults
  others := fun m _ => by simp only [Dev.die, dies]
  resets := by simp only [Dev.die, dies]
  resetting := by simp only [Dev.die, dies]
  count := by rw [dies]

theorem Dev.Drops.of_only (h : Dev.Only (dropReg n) d e) : Dev.Drops n d e := Dev.Drops.of_dies h.sweeps h.cks h.openFaults h.dies

theorem Dev.Drops.refl (n : Nat) (d : Dev) : Dev.Drops n d d := Dev.Drops.of_only (Dev.Only.refl d)

theorem Dev.Drops.trans (h : Dev.Drops n d e) (k : Dev.Drops n e f) : Dev.Drops n d f where
  sweeps := h.sweeps.trans k.sweeps
  cks := k.cks.trans h.cks
  faults := k.faults.trans h.faults
  others := fun m hm => (k.others m hm).trans (h.others m hm)
  resets := k.resets.trans h.resets
  resetting := k.resetting.trans h.resetting
  count := k.count.trans h.count

theorem Dev.drops_foldl {α : Type} (g : Dev → α → Dev) (l : List α) (d : Dev) (h : ∀ x ∈ l, ∀ d, Dev.Drops n d (g d x)) :
    Dev.Drops n d (l.foldl g d) := by
  induction l generalizing d with
  | nil => exact Dev.Drops.refl n d
  | cons x l ih => exact (h x (by simp) d).trans (ih _ fun y hy => h y (by simp [hy]))

theorem Dev.drops_setDie (d : Dev) (x : Die) (h : x.resets = (d.die n).resets) (k : x.resetting = (d.die n).resetting) :
    Dev.Drops n d (d.setDie n x) where
  sweeps := Dev.Sweeps.of_carry rfl
  cks := rfl
  faults := rfl
  others := fun _ hm => Dev.die_setDie_ne d n x hm
  resets := Dev.die_setDie_part d n x Die.resets h
  resetting := Dev.die_setDie_part d n x Die.resetting k
  count := Dev.length_setDie d n x

theorem Dev.drops_setLnk (d : Dev) (l : Nat) (x : Lnk) : Dev.Drops n d (d.setLnk n l x) := Dev.drops_setDie d _ rfl rfl

/-- A write of a register of the die. -/
theorem Dev.drops_setReg (d : Dev) (a : Nat) (v : Word) (h : Span (dieBase n) 0x100000 a) : Dev.Drops n d (d.setReg a v) := by
  refine Dev.Drops.of_only (Dev.only_setReg d a v (Or.inr (Or.inr (Or.inl h))) ?_)
  simp only [Span, dieBase] at h
  omega

theorem Dev.drops_setFlag (d : Dev) (g : Fld) (b : Bool) (h : Span (dieBase n) 0x100000 g.addr) : Dev.Drops n d (d.setFlag g b) :=
  Dev.drops_setReg d _ _ h

theorem Dev.drops_set64 (d : Dev) (a v : Nat) (h : Span (dieBase n) 0x100000 a) (k : Span (dieBase n) 0x100000 (a + 4)) :
    Dev.Drops n d (d.set64 a v) :=
  (Dev.drops_setReg d a _ h).trans (Dev.drops_setReg _ (a + 4) _ k)

theorem Dev.drops_countStamped (d : Dev) (a up c t16 : Nat) (h : dieBase n ≤ a) (k : a + up + 8 ≤ dieBase n + 0x100000) :
    Dev.Drops n d (d.countStamped a up c t16) := by
  have one (d : Dev) (b : Nat) (lo : dieBase n ≤ b) (hi : b + 8 ≤ dieBase n + 0x100000) : Dev.Drops n d (d.count64 b c) :=
    Dev.drops_set64 d b _ ⟨lo, by omega⟩ ⟨by omega, by omega⟩
  unfold Dev.countStamped
  dsimp only
  split
  · exact (one d a h (by omega)).trans (one _ (a + up) (by omega) k)
  · exact one d a h (by omega)

theorem Dev.drops_signalLost (d : Dev) (s : Nat) (h : s < 12) : Dev.Drops n d (d.signalLost s) := by
  have src : Dev.Drops n d (d.setSrc s (d.src s).lost) := Dev.Drops.of_dies (Dev.Sweeps.of_carry rfl) rfl rfl rfl
  refine src.trans (Dev.Drops.of_only (Dev.only_setFlag _ _ _ (Or.inr (Or.inr (Or.inr ?_))) (Or.inl ?_)))
  · simp only [Span, F.SLOT_STATE_SIG_VALID, A.SLOT_STATE]; omega
  · simp only [F.SLOT_STATE_SIG_VALID, A.SLOT_STATE]; omega

theorem Dev.drops_linkSlotsLost (d : Dev) (l : Nat) : Dev.Drops n d (d.linkSlotsLost n l) := by
  refine Dev.drops_foldl _ _ d fun s hs d => ?_
  dsimp only
  split
  · exact Dev.drops_signalLost d s (List.mem_range.1 hs)
  · exact Dev.Drops.refl n d

/-- The register blocks of a die's links lie among its registers. -/
theorem span_linkReg (n o l : Nat) (h : o < 0x80000) (hl : l < 4) : Span (dieBase n) 0x100000 (dieBase n + o + 0x1000 * l) :=
  ⟨by omega, by omega⟩

theorem Dev.drops_linkChange (d : Dev) (l : Nat) (up : Bool) (hn : n < 4) (hl : l < 4) : Dev.Drops n d (d.linkChange n l up) :=
  ((Dev.drops_setFlag d _ _ (span_linkReg n _ l (by decide) hl)).trans
    (Dev.drops_setFlag _ _ _ (span_linkReg n _ l (by decide) hl))).trans
    (Dev.Drops.of_only (Dev.Quiet.only (Dev.quiet_raise _ _ _ _ (by simp only [dieSrc]; omega))))

theorem Dev.drops_untrain (d : Dev) (l : Nat) (hl : l < 4) : Dev.Drops n d (d.untrain n l) :=
  (Dev.drops_setFlag d _ _ (span_linkReg n _ l (by decide) hl)).trans
    (Dev.drops_setFlag _ _ _ (span_linkReg n _ l (by decide) hl))

theorem Dev.drops_setOrigin (d : Dev) (l : Nat) (hl : l < 4) : Dev.Drops n d (d.setOrigin n l) := by
  have draw : Dev.Drops n d d.draw.2 := Dev.Drops.of_dies (Dev.Sweeps.of_carry rfl) rfl rfl rfl
  have origin (d : Dev) (v : Nat) : Dev.Drops n d (d.set64 (A.GRID_ORIGIN n l) v) :=
    Dev.drops_set64 d _ v (span_linkReg n _ l (by decide) hl)
      ⟨by simp only [A.GRID_ORIGIN]; omega, by simp only [A.GRID_ORIGIN]; omega⟩
  exact (draw.trans (origin _ _)).trans (Dev.drops_setLnk _ l _)

theorem Dev.drops_stat (d : Dev) (l off c : Nat) (hl : l < 4) (ho : off < 0x1000) : Dev.Drops n d (d.stat n l off c) :=
  Dev.drops_countStamped d _ _ _ _ (by simp only [A.STAT_LIVE]; omega) (by simp only [A.STAT_LIVE]; omega)

theorem Dev.drops_linkDrop (d : Dev) (l : Nat) (hn : n < 4) (hl : l < 4) : Dev.Drops n d (d.linkDrop n l) := by
  unfold Dev.linkDrop
  extract_lets d1 x d2
  have down : Dev.Drops n d d1 := by
    unfold d1
    split
    · exact ((Dev.drops_linkChange d l false hn hl).trans (Dev.drops_stat _ l _ _ hl (by decide))).trans
        (Dev.drops_linkSlotsLost _ l)
    · exact Dev.Drops.refl n d
  have unlocked : Dev.Drops n d d2 := down.trans (Dev.drops_setLnk d1 l _)
  split
  · exact (unlocked.trans (Dev.drops_untrain d2 l hl)).trans (Dev.drops_setOrigin _ l hl)
  · exact unlocked

/-- The device with the registers kept that a filter passes. -/
def Dev.keepRegs (d : Dev) (q : Nat × Word → Bool) : Dev := { d with bus.regs := d.bus.regs.filter q }

theorem Dev.reg_keepRegs (d : Dev) (q : Nat × Word → Bool) (a : Nat) (h : ∀ v, q (a, v) = true) : (d.keepRegs q).reg a = d.reg a :=
  SMap.find_filter_keep _ _ _ _ h

/-- Registers of the die are emptied, by a filter that keeps all others. -/
theorem Dev.drops_keepRegs (d : Dev) (q : Nat × Word → Bool) (h : ∀ a v, ¬ Span (dieBase n) 0x100000 a → q (a, v) = true) :
    Dev.Drops n d (d.keepRegs q) := by
  have evr (a : Nat) (ha : a < 0x100000) : (d.keepRegs q).reg a = d.reg a :=
    Dev.reg_keepRegs d q a fun v => h a v (by simp only [Span, dieBase]; omega)
  exact Dev.Drops.of_only
    { rest := rfl
      bus := rfl
      pcie := rfl
      reg := fun a _ _ r => Dev.reg_keepRegs d q a fun v => h a v fun c => r (Or.inl c)
      vectors := fun v hv => ⟨v, hv, rfl⟩
      rings := fun _ _ => rfl
      place := ⟨Dev.get64_congr _ _ _ (evr _ (by decide)) (evr _ (by decide)),
        congrArg (2 ^ ·) (Dev.get_congr _ (evr _ (by decide)))⟩
      head := Or.inl (Dev.get_congr _ (evr _ (by decide)))
      posted := ⟨[], by simp [Dev.keepRegs], by simp⟩
      out := ⟨[], by simp [Dev.keepRegs], by simp⟩ }

/-- The device as its die n has lost its links and registers, before its record is emptied. -/
theorem Dev.dieOff_eq (d : Dev) (n : Nat) (keepLog : Bool) : ∃ e, Dev.dieOff d n keepLog =
    e.setDie n { resets := (e.die n).resets, resetting := (e.die n).resetting } ∧ (n < 4 → Dev.Drops n d e) := by
  have links (hn : n < 4) : Dev.Drops n d ((List.range 4).foldl (fun d l => d.linkDrop n l) d) :=
    Dev.drops_foldl _ _ d fun l hl d => Dev.drops_linkDrop d l hn (List.mem_range.1 hl)
  refine ⟨_, rfl, fun hn => ((links hn).trans (Dev.drops_keepRegs _ _ fun a v h => ?_)).trans
    (Dev.Drops.of_dies (Dev.Sweeps.of_carry rfl) rfl rfl rfl)⟩
  have : a < dieBase n ∨ dieBase n + 0x100000 ≤ a := by
    simp only [Span] at h; omega
  simp [this]

theorem Dev.drops_dieOff (d : Dev) (keepLog : Bool) (hn : n < 4) : Dev.Drops n d (d.dieOff n keepLog) := by
  obtain ⟨e, eq, drops⟩ := Dev.dieOff_eq d n keepLog
  rw [eq]
  exact (drops hn).trans (Dev.drops_setDie e _ rfl rfl)

/-- Of a die whose power is removed only its resets are still known. -/
theorem Dev.die_dieOff (d : Dev) (keepLog : Bool) (hn : n < 4) (h : n < d.dies.length) :
    (d.dieOff n keepLog).die n = { resets := (d.die n).resets, resetting := (d.die n).resetting } := by
  obtain ⟨e, eq, drops⟩ := Dev.dieOff_eq d n keepLog
  rw [eq, Dev.die_setDie_self _ _ _ (by rw [(drops hn).count]; exact h), (drops hn).resets, (drops hn).resetting]

end Drops

end Sys2Proof.Machine
end

section
/-! SUPPORT. The reset of one answer die by a fault, in its stages (R422, R423), and the loss of the forwarded clock pairs (R28). -/

namespace Sys2Proof.Machine

/-! ## What happens to one die alone -/

/-- Registers that a reset of die n may change: the die's own, DIE_STATE, DIE_CTRL and those of the reference slots. -/
def resetReg (n a : Nat) : Prop := Span (dieBase n) 0x100000 a ∨ a = A.DIE_STATE ∨ a = A.DIE_CTRL ∨ Span 0x20100 0x300 a

/-- From d to e the other dies, their states and their PLLs go on as they were. -/
structure Dev.OnDie (n : Nat) (d e : Dev) : Prop where
  sweeps : Dev.Sweeps (resetReg n) d e
  others : ∀ m, m ≠ n → e.die m = d.die m
  states : ∀ m, m < 4 → m ≠ n → e.dieSt m = d.dieSt m
  plls : ∀ p, p ≠ 4 + n → p ≠ 8 + n → e.pll p = d.pll p

/-- From d to e die n alone has gone through changes that note no fault and no reset, and fill nothing that a loss of power has emptied. -/
structure Dev.Settles (n : Nat) (d e : Dev) : Prop extends Dev.OnDie n d e where
  faults : e.openFaults.map (·.fr) = d.openFaults.map (·.fr)
  count : e.dies.length = d.dies.length
  resets : (e.die n).resets = (d.die n).resets
  resetting : (e.die n).resetting = (d.die n).resetting
  queries : (e.die n).queries = (d.die n).queries
  pairs : (e.die n).pairsLost = (d.die n).pairsLost
  replica : (d.die n).replica = none → (e.die n).replica = none

section OnDie
variable {n : Nat} {d e f : Dev}

theorem Dev.OnDie.trans (h : Dev.OnDie n d e) (k : Dev.OnDie n e f) : Dev.OnDie n d f where
  sweeps := h.sweeps.trans k.sweeps
  others := fun m hm => (k.others m hm).trans (h.others m hm)
  states := fun m lt hm => (k.states m lt hm).trans (h.states m lt hm)
  plls := fun p h4 h8 => (k.plls p h4 h8).trans (h.plls p h4 h8)

theorem Dev.Settles.trans (h : Dev.Settles n d e) (k : Dev.Settles n e f) : Dev.Settles n d f where
  toOnDie := h.toOnDie.trans k.toOnDie
  faults := k.faults.trans h.faults
  count := k.count.trans h.count
  resets := k.resets.trans h.resets
  resetting := k.resetting.trans h.resetting
  queries := k.queries.trans h.queries
  pairs := k.pairs.trans h.pairs
  replica := fun r => k.replica (h.replica r)

/-- Where no record of a die changes, the noted faults decide. -/
theorem Dev.OnDie.settles (h : Dev.OnDie n d e) (faults : e.openFaults.map (·.fr) = d.openFaults.map (·.fr)) (dies : e.dies = d.dies) :
    Dev.Settles n d e where
  toOnDie := h
  faults := faults
  count := by rw [dies]
  resets := by simp only [Dev.die, dies]
  resetting := by simp only [Dev.die, dies]
  queries := by simp only [Dev.die, dies]
  pairs := by simp only [Dev.die, dies]
  replica := fun r => by simpa only [Dev.die, dies] using r

/-- DIE_STATE and DIE_CTRL do not belong to what the drop of a link changes. -/
theorem Dev.Drops.reg_keeper (h : Dev.Drops n d e) (a : Nat) (ha : a = A.DIE_STATE ∨ a = A.DIE_CTRL) : e.reg a = d.reg a := by
  have out : ¬ dropReg n a := by
    simp only [dropReg, Span, dieBase, A.DIE_STATE, A.DIE_CTRL] at ha ⊢; omega
  obtain rfl | rfl := ha <;> exact h.sweeps.reg _ (by decide) (by decide) out

theorem Dev.Drops.onDie (h : Dev.Drops n d e) : Dev.OnDie n d e where
  sweeps := h.sweeps.mono fun _ => Or.imp_right fun r => Or.inr (Or.inr r)
  others := h.others
  states := fun m _ _ => Dev.dieSt_congr m (Dev.get_congr _ (h.reg_keeper _ (Or.inl rfl)))
  plls := fun p _ _ => by simp only [Dev.pll, h.cks]

theorem Dev.onDie_setDie (d : Dev) (x : Die) : Dev.OnDie n d (d.setDie n x) where
  sweeps := Dev.Sweeps.of_carry rfl
  others := fun _ hm => Dev.die_setDie_ne d n x hm
  states := fun _ _ _ => rfl
  plls := fun _ _ _ => rfl

theorem Dev.onDie_openFaults (d : Dev) (l : List OpenFault) : Dev.OnDie n d { d with openFaults := l } where
  sweeps := Dev.Sweeps.of_carry rfl
  others := fun _ _ => rfl
  states := fun _ _ _ => rfl
  plls := fun _ _ _ => rfl

theorem Dev.onDie_setPll (d : Dev) (p : Nat) (x : Pll) (hp : p = 4 + n ∨ p = 8 + n) : Dev.OnDie n d (d.setPll p x) where
  sweeps := Dev.Sweeps.of_carry rfl
  others := fun _ _ => rfl
  states := fun _ _ _ => rfl
  plls := fun q h4 h8 => Dev.pll_setPll_ne d x (by omega)

/-- A write of a keeper register of the dies that moves the state of die n at most. -/
theorem Dev.onDie_setReg (d : Dev) (a : Nat) (v : Word) (ha : a = A.DIE_STATE ∨ a = A.DIE_CTRL)
    (h : ∀ m, m < 4 → m ≠ n → (d.setReg a v).dieSt m = d.dieSt m) : Dev.OnDie n d (d.setReg a v) where
  sweeps := by
    have low : a < 0x80200 := by simp only [A.DIE_STATE, A.DIE_CTRL] at ha; omega
    exact (Dev.only_setReg d a v (Or.inr (Or.inr (Or.inr (ha.imp_right Or.inl)))) (Or.inl low)).sweeps
  others := fun _ _ => rfl
  states := h
  plls := fun _ _ _ => rfl

theorem Dev.settles_setDieSt (d : Dev) (st : Nat) (hn : n < 4) (hs : st < 4) : Dev.Settles n d (d.setDieSt n st) :=
  Dev.OnDie.settles (Dev.onDie_setReg d _ _ (Or.inl rfl) fun m hm ne => (Dev.dieSt_setDieSt d n m st hn hm hs).trans (if_neg ne))
    rfl rfl

/-- A write of DIE_STATE above the states, or of DIE_CTRL. -/
theorem Dev.settles_set (d : Dev) (g : Fld) (v : Nat) (h : g.addr = A.DIE_STATE ∧ g.Ok ∧ 8 ≤ g.lo ∨ g.addr = A.DIE_CTRL) :
    Dev.Settles n d (d.set g v) := by
  refine Dev.OnDie.settles (Dev.onDie_setReg d _ _ (h.imp_left And.left) fun m _ _ => ?_) rfl rfl
  obtain ⟨_, ok, lo⟩ | ctrl := h
  · exact Dev.dieSt_set_above d g v m ok lo
  · exact Dev.dieSt_set_addr d g v m (by rw [ctrl]; decide)

theorem Dev.settles_setEnable (d : Dev) (b : Bool) : Dev.Settles n d (d.setFlag (dieEnableF n) b) :=
  Dev.settles_set d _ _ (Or.inr rfl)

theorem Dev.settles_setLatch (d : Dev) (b : Bool) (hn : n < 4) : Dev.Settles n d (d.setFlag (dieLatchF n) b) :=
  Dev.settles_set d _ _ (Or.inl ⟨rfl, dieLatchF_ok hn, dieLatchF_above n⟩)

theorem Dev.settles_setParked (d : Dev) (b : Bool) (hn : n < 4) : Dev.Settles n d (d.setFlag (dieParkF n) b) :=
  Dev.settles_set d _ _ (Or.inl ⟨rfl, dieParkF_ok hn, dieParkF_above n⟩)

theorem Dev.settles_setCode (d : Dev) (v : Nat) (hn : n < 4) : Dev.Settles n d (d.set (dieCodeF n) v) :=
  Dev.settles_set d _ _ (Or.inl ⟨rfl, dieCodeF_ok hn, dieCodeF_above n⟩)

/-- The end of a fault leaves what its record holds. -/
theorem Dev.settles_faultEnd (d : Dev) (code index : Nat) : Dev.Settles n d (d.faultEnd code n index) := by
  refine Dev.OnDie.settles (Dev.onDie_openFaults d _) ?_ rfl
  simp only [Dev.faultEnd, List.map_map]
  exact List.map_congr_left fun f _ => by simp only [Function.comp]; split <;> rfl

theorem Dev.settles_setPll (d : Dev) (p : Nat) (x : Pll) (hp : p = 4 + n ∨ p = 8 + n) : Dev.Settles n d (d.setPll p x) :=
  Dev.OnDie.settles (Dev.onDie_setPll d p x hp) rfl rfl

/-- The replica of the die is unloaded. -/
theorem Dev.settles_unload (d : Dev) (t : Nat) :
    Dev.Settles n d (d.setDie n { d.die n with replica := none, everAligned := false, lastSync := t }) where
  toOnDie := Dev.onDie_setDie d _
  faults := rfl
  count := Dev.length_setDie d n _
  resets := Dev.die_setDie_part d n _ Die.resets rfl
  resetting := Dev.die_setDie_part d n _ Die.resetting rfl
  queries := Dev.die_setDie_part d n _ Die.queries rfl
  pairs := Dev.die_setDie_part d n _ Die.pairsLost rfl
  replica := fun r => (Dev.die_setDie_part d n _ Die.replica r.symm).trans r

theorem Dev.settles_dieStart (d : Dev) (hn : n < 4) : Dev.Settles n d (d.dieStart n) :=
  (((Dev.settles_setPll d _ _ (Or.inl rfl)).trans (Dev.settles_setPll _ _ _ (Or.inr rfl))).trans
    (Dev.settles_setDieSt _ _ hn (by decide))).trans (Dev.settles_unload _ _)

theorem Dev.dieSt_dieStart (d : Dev) (hn : n < 4) : (d.dieStart n).dieSt n = 3 := Dev.dieSt_setDieSt_self _ n 3 hn (by decide)

theorem Dev.latched_dieStart (d : Dev) (hn : n < 4) : (d.dieStart n).flag (dieLatchF n) = d.flag (dieLatchF n) :=
  Dev.flag_setDieSt _ n 3 _ (dieLatchF_ok hn) (dieLatchF_above n)

theorem Dev.settles_dieUnpark (d : Dev) (hn : n < 4) : Dev.Settles n d (d.dieUnpark n) := by
  unfold Dev.dieUnpark
  extract_lets x e
  have decided : Dev.Settles n d e :=
    ((Dev.settles_setEnable d true).trans (Dev.settles_setLatch _ _ hn)).trans (Dev.settles_setCode _ _ hn)
  split
  · exact Dev.settles_setCode d _ hn
  · split
    · exact (Dev.settles_setEnable d true).trans (Dev.settles_setCode _ _ hn)
    · split
      · exact decided.trans (Dev.settles_dieStart e hn)
      · exact decided

/-! ## The stages of a reset of a die -/

/-- The resets of die n in the last 60 s (R422). -/
def Dev.lately (d : Dev) (n : Nat) : List Nat := (d.die n).resets.filter fun x => decide (d.raw < x + 48000000000)

/-- A fault of die n is open, with the requests that it loses. -/
def Dev.noteFault (d : Dev) (n code index status : Nat) : Dev := (d.faultBegin code n index status).faultLost n (d.inFlight n)

/-- The fault is noted, the reset is counted and the die's power has gone; again: the die is to start again. -/
def Dev.resetOff (d : Dev) (n code index status : Nat) (again : Bool) : Dev :=
  ((d.noteFault n code index status).setDie n { d.die n with resets := d.raw :: d.lately n, resetting := again }).dieOff n true

/-- The die stays off, and its fault is over. -/
def Dev.staysOff (d : Dev) (n code index : Nat) : Dev :=
  ((d.setDieSt n stStopped).setFlag (dieLatchF n) false).faultEnd code n index

/-- A die that is off is parked by its faults (R422). -/
def Dev.parkedBy (d : Dev) (n : Nat) : Dev := (d.setFlag (dieEnableF n) false).setFlag (dieParkF n) true

variable (code index status : Nat)

/-- A reset of a powered die in its stages; park: it is the third within 60 s, down: the die does not start again. -/
theorem Dev.dieReset_eq (on : d.dieSt n ≠ 2) (park down : Bool) (hp : park = decide (2 ≤ (d.lately n).length))
    (hd : down = (park || d.dieSt n == stStopping)) : d.dieReset n code index status =
      if !down then (d.resetOff n code index status (!down)).dieStart n
      else if park then ((d.resetOff n code index status (!down)).staysOff n code index).parkedBy n
      else if d.flag (dieLatchF n) then ((d.resetOff n code index status (!down)).staysOff n code index).dieUnpark n
      else (d.resetOff n code index status (!down)).staysOff n code index := by
  subst hd hp
  unfold Dev.dieReset
  rw [if_neg on]
  rfl

theorem Dev.dieReset_starts (on : d.dieSt n ≠ 2) (up : d.dieSt n ≠ 1) (few : (d.lately n).length < 2) :
    d.dieReset n code index status = (d.resetOff n code index status true).dieStart n :=
  Dev.dieReset_eq code index status on false false (by simp [few]) (by simp [up])

theorem Dev.dieReset_parks (on : d.dieSt n ≠ 2) (many : 2 ≤ (d.lately n).length) :
    d.dieReset n code index status = ((d.resetOff n code index status false).staysOff n code index).parkedBy n :=
  Dev.dieReset_eq code index status on true true (by simp [many]) rfl

theorem Dev.dieReset_stops (down : d.dieSt n = 1) (few : (d.lately n).length < 2) :
    d.dieReset n code index status =
      if d.flag (dieLatchF n) then ((d.resetOff n code index status false).staysOff n code index).dieUnpark n
      else (d.resetOff n code index status false).staysOff n code index :=
  Dev.dieReset_eq code index status (by omega) false true (by simp [few]) (by simp [down])

theorem Dev.settles_staysOff (d : Dev) (hn : n < 4) : Dev.Settles n d (d.staysOff n code index) :=
  ((Dev.settles_setDieSt d _ hn (by decide)).trans (Dev.settles_setLatch _ _ hn)).trans (Dev.settles_faultEnd _ _ _)

theorem Dev.settles_parkedBy (d : Dev) (hn : n < 4) : Dev.Settles n d (d.parkedBy n) :=
  (Dev.settles_setEnable d _).trans (Dev.settles_setParked _ _ hn)

/-- Whichever way a reset of a powered die ends, its power has gone and nothing of that comes back. -/
theorem Dev.settles_dieReset (d : Dev) (hn : n < 4) (on : d.dieSt n ≠ 2) :
    ∃ again, Dev.Settles n (d.resetOff n code index status again) (d.dieReset n code index status) := by
  have off : Dev.Settles n (d.resetOff n code index status false) ((d.resetOff n code index status false).staysOff n code index) :=
    Dev.settles_staysOff code index _ hn
  by_cases few : (d.lately n).length < 2
  · by_cases down : d.dieSt n = 1
    · refine ⟨false, ?_⟩
      rw [Dev.dieReset_stops code index status down few]
      split
      · exact off.trans (Dev.settles_dieUnpark _ hn)
      · exact off
    · refine ⟨true, ?_⟩
      rw [Dev.dieReset_starts code index status on down few]
      exact Dev.settles_dieStart _ hn
  · refine ⟨false, ?_⟩
    rw [Dev.dieReset_parks code index status on (by omega)]
    exact off.trans (Dev.settles_parkedBy _ hn)

theorem Dev.onDie_resetOff (d : Dev) (again : Bool) (hn : n < 4) : Dev.OnDie n d (d.resetOff n code index status again) :=
  ((Dev.onDie_openFaults d _).trans (Dev.onDie_setDie _ _)).trans (Dev.drops_dieOff _ _ hn).onDie

theorem Dev.die_resetOff (d : Dev) (again : Bool) (hn : n < 4) (len : n < d.dies.length) :
    (d.resetOff n code index status again).die n = { resets := d.raw :: d.lately n, resetting := again } := by
  unfold Dev.resetOff
  have l : n < (d.noteFault n code index status).dies.length := len
  rw [Dev.die_dieOff _ _ hn (by rwa [Dev.length_setDie]), Dev.die_setDie_self _ _ _ l]

theorem Dev.faults_resetOff (d : Dev) (again : Bool) (hn : n < 4) :
    (d.resetOff n code index status again).openFaults = (d.noteFault n code index status).openFaults :=
  (Dev.drops_dieOff _ _ hn).faults

/-- The fault that is noted counts the requests in flight on the die (R423). -/
theorem Dev.mem_noteFault (d : Dev) : ∃ f ∈ (d.noteFault n code index status).openFaults, f.fr.code = code ∧ f.fr.die = n ∧
    f.fr.index = index ∧ f.fr.tick = d.raw ∧ f.fr.lost = min 65535 (d.inFlight n) := by
  refine ⟨_, List.mem_map.2 ⟨_, List.mem_append_right _ (List.mem_singleton.2 rfl), rfl⟩, ?_⟩
  simp

theorem Dev.latched_resetOff (d : Dev) (again : Bool) (hn : n < 4) :
    (d.resetOff n code index status again).flag (dieLatchF n) = d.flag (dieLatchF n) :=
  congrArg (· == 1) (Dev.get_congr (dieLatchF n) ((Dev.drops_dieOff _ _ hn).reg_keeper _ (Or.inl rfl)))

/-- A die parked by its faults is off, with ENABLE clear and PARKED set. -/
theorem Dev.parkedBy_staysOff (d : Dev) (hn : n < 4) : ((d.staysOff n code index).parkedBy n).dieSt n = 2 ∧
    ((d.staysOff n code index).parkedBy n).flag (dieEnableF n) = false ∧
    ((d.staysOff n code index).parkedBy n).flag (dieParkF n) = true := by
  have apart : A.DIE_CTRL ≠ A.DIE_STATE := by decide
  have off : (d.staysOff n code index).dieSt n = 2 :=
    (Dev.dieSt_set_above _ _ _ _ (dieLatchF_ok hn) (dieLatchF_above n)).trans (Dev.dieSt_setDieSt_self d n 2 hn (by decide))
  refine ⟨?_, ?_, Dev.flag_setFlag_self _ _ _ rfl (dieParkF_ok hn).2⟩
  · exact ((Dev.dieSt_set_above _ _ _ _ (dieParkF_ok hn) (dieParkF_above n)).trans (Dev.dieSt_set_addr _ _ _ _ apart)).trans off
  · exact (congrArg (· == 1) (Dev.get_set_addr _ (dieParkF n) (dieEnableF n) _ apart)).trans
      (Dev.flag_setFlag_self _ _ _ rfl (dieEnableF_ok hn).2)

end OnDie

/-! ## The answer of a command that resets a die -/

/-- A device d in which a powered die n is to be reset, reached from s by changes of that die alone, answers with that die reset (R422, R423). -/
theorem State.dieReset_commit (s : State) (d : Dev) (n : Fin 4) (code index status : Nat) (safe : s.Safe) (len : d.dies.length = 4)
    (near : Dev.OnDie n s.dev d) (on : s.dev.dieSt n ≠ 2) (state : d.dieSt n = s.dev.dieSt n)
    (latch : d.flag (dieLatchF n) = s.dev.flag (dieLatchF n)) (resets : (d.die n).resets = (s.dev.die n).resets)
    (work : d.inFlight n = s.dev.inFlight n) : s.DieReset (s.commit (d.dieReset n code index status)) n code index := by
  have hn := n.isLt
  have hd : (n : Nat) < d.dies.length := by omega
  have raw : d.raw = s.dev.raw := near.sweeps.raw
  have lately : d.lately n = s.dev.lately n := by simp only [Dev.lately, resets, raw]
  have on' : d.dieSt n ≠ 2 := by rwa [state]
  obtain ⟨again, tail⟩ := Dev.settles_dieReset code index status d hn on'
  have off := Dev.die_resetOff code index status d again hn hd
  have all := (near.trans (Dev.onDie_resetOff code index status d again hn)).trans tail.toOnDie
  exact
    { fault := by
        obtain ⟨f, mem, hcode, hdie, hindex, htick, hlost⟩ := Dev.mem_noteFault (n := n) code index status d
        have kept : f.fr ∈ (d.dieReset n code index status).openFaults.map (·.fr) := by
          rw [tail.faults, Dev.faults_resetOff code index status d again hn]
          exact List.mem_map_of_mem mem
        obtain ⟨g, hg, same⟩ := List.mem_map.1 kept
        exact ⟨g, hg, by rw [same]; exact ⟨hcode, hdie, hindex, htick.trans raw, by rw [hlost, work]⟩⟩
      time := by
        have noted : ((d.dieReset n code index status).die n).resets = s.dev.raw :: d.lately n := by rw [tail.resets, off, raw]
        exact noted.symm ▸ List.mem_cons_self
      again := fun few up => by
        have few' : (d.lately n).length < 2 := by rw [lately]; exact few
        rw [Dev.dieReset_starts code index status on' (by rwa [state]) few']
        refine ⟨Dev.dieSt_dieStart _ hn, ?_, ?_⟩
        · exact (Dev.settles_dieStart _ hn).resetting.trans (by rw [Dev.die_resetOff code index status d true hn hd])
        · exact ((Dev.latched_dieStart _ hn).trans (Dev.latched_resetOff code index status d true hn)).trans latch
      park := fun many => by
        have many' : 2 ≤ (d.lately n).length := by rw [lately]; exact many
        rw [Dev.dieReset_parks code index status on' many']
        exact Dev.parkedBy_staysOff code index _ hn
      lost := ⟨tail.queries.trans (by rw [off]), tail.replica (by rw [off]), tail.pairs.trans (by rw [off])⟩
      others := fun m hm =>
        have ne : (m : Nat) ≠ n := fun c => hm (Fin.ext c)
        ⟨all.others m ne, all.states m m.isLt ne⟩
      plls := all.plls
      frame := State.frame_commit s (s.dev.carry (d.dieReset n code index status)) _ safe.posted safe.lposted safe.fposted all.sweeps }

/-! ## CLOCK_PAIR_LOSS (R28) -/

/-- Losing one pair moves the replica to the other one. -/
theorem Dev.pairLoss_one (d : Dev) (n : Nat) (p : Fin 2) (on : d.dieSt n ≠ 2) (intact : (d.die n).pairsLost = 0) :
    d.pairLoss n p = (d.setDie n { d.die n with pairsLost := 2 ^ (p : Nat) }).setFlag (F.REPLICA_STATUS_CLK_ALT n) (decide (p = 0)) := by
  unfold Dev.pairLoss
  rw [if_neg on, intact]
  fin_cases p <;> rfl

/-- Losing the other pair too resets the die. -/
theorem Dev.pairLoss_both (d : Dev) (n : Nat) (p : Fin 2) (on : d.dieSt n ≠ 2) (one : (d.die n).pairsLost = 2 ^ (1 - (p : Nat))) :
    d.pairLoss n p = (d.setDie n { d.die n with pairsLost := 3 }).dieReset n 0x21 p (A.REPLICA_STATUS n) := by
  unfold Dev.pairLoss
  rw [if_neg on, one]
  fin_cases p <;> rfl

/-- The loss of one forwarded clock pair disturbs nothing. -/
theorem clockPairLoss_one (s : State) (n : Fin 4) (p : Fin 2) (safe : s.Safe) (shaped : s.Shaped) (on : s.dev.dieSt n ≠ 2)
    (intact : (s.dev.die n).pairsLost = 0) : Does (.clockPairLoss n p) s fun t =>
      t.dev.flag (F.REPLICA_STATUS_CLK_ALT n) = decide (p = 0) ∧
      (∀ b, b ≠ 2 → t.dev.flag ⟨A.REPLICA_STATUS n, b, b⟩ = s.dev.flag ⟨A.REPLICA_STATUS n, b, b⟩) ∧
      t.dev.die n = { s.dev.die n with pairsLost := 2 ^ (p : Nat) } ∧ (∀ m : Fin 4, m ≠ n → t.dev.die m = s.dev.die m) ∧
      State.Still (· = A.REPLICA_STATUS n) { s with dev.dies := t.dev.dies } t := by
  refine ⟨s.commit (s.dev.pairLoss n p), rfl, ?_⟩
  have hn : (n : Nat) < s.dev.dies.length := by rw [shaped.dies]; exact n.isLt
  rw [Dev.pairLoss_one s.dev n p on intact]
  refine ⟨Dev.flag_setFlag_self _ _ _ rfl (show 2 < 32 by decide), fun b hb => Dev.flag_setFlag_other _ _ 2 b _ (by decide) hb,
    Dev.die_setDie_self s.dev n _ hn, fun m hm => Dev.die_setDie_ne s.dev n _ fun c => hm (Fin.ext c), ?_⟩
  exact State.still_commit s { s.dev with dies := _ } _ safe.posted safe.lposted safe.fposted rfl
    fun a ha => Dev.reg_setFlag_ne _ _ _ ha

/-- Settles O57: the loss of one pair is a write of CLK_ALT and of the note of the pair; the loss of both is a reset of the die. -/
theorem clockPairLossResetsOnBoth : Obligations.ClockPairLossResetsOnBoth := by
  intro s n p safe shaped on
  refine ⟨clockPairLoss_one s n p safe shaped on, fun one => ⟨s.commit (s.dev.pairLoss n p), rfl, ?_⟩⟩
  rw [Dev.pairLoss_both s.dev n p on one]
  exact State.dieReset_commit s _ n 0x21 p (A.REPLICA_STATUS n) safe (by rw [Dev.length_setDie, shaped.dies])
    (Dev.onDie_setDie s.dev _) on rfl rfl (Dev.die_setDie_part s.dev n _ Die.resets rfl)
    (congrArg (fun l => (List.filter _ l).length) (Dev.die_setDie_part s.dev n _ Die.queries rfl))

end Sys2Proof.Machine
end

section
/-! SUPPORT. What registers written as wide values and as times read back, and what CAPTURE leaves in the SNAP registers (R98). -/

namespace Sys2Proof.Machine

/-! ## Wide registers and times -/

/-- Each of the words that a wide value is stored over holds its own 32 bits of the value. -/
theorem Dev.reg_setWide (d : Dev) (a k v i : Nat) (h : i < k) :
    (d.setWide a k v).reg (a + 4 * i) = BitVec.ofNat 32 (v / 2 ^ (32 * i)) := by
  induction k generalizing d a v i with
  | zero => omega
  | succ k ih =>
    rw [Dev.setWide]
    cases i with
    | zero => rw [Dev.reg_setWide_ne _ _ _ _ (by omega)]; simp
    | succ i =>
      rw [show a + 4 * (i + 1) = a + 4 + 4 * i by omega, ih _ _ _ _ (by omega), Nat.div_div_eq_div_mul, ← Nat.pow_add,
        show 32 + 32 * i = 32 * (i + 1) by omega]

/-- A wide write changes registers and nothing else. -/
theorem Dev.setWide_rest (d : Dev) (a k v : Nat) (m : SMap Word) :
    { d.setWide a k v with bus.regs := m } = { d with bus.regs := m } := by
  induction k generalizing d a v with
  | zero => rfl
  | succ k ih => exact ih _ _ _

theorem Dev.setFlag_rest (d : Dev) (f : Fld) (b : Bool) (m : SMap Word) :
    { d.setFlag f b with bus.regs := m } = { d with bus.regs := m } := rfl

theorem Dev.getTime_congr {d e : Dev} (a : Nat) (h : ∀ i < 4, e.reg (a + 4 * i) = d.reg (a + 4 * i)) : e.getTime a = d.getTime a := by
  have h0 : e.reg a = d.reg a := h 0 (by decide)
  have h1 : e.reg (a + 4) = d.reg (a + 4) := h 1 (by decide)
  have h2 : e.reg (a + 8) = d.reg (a + 8) := h 2 (by decide)
  have h3 : e.reg (a + 12) = d.reg (a + 12) := h 3 (by decide)
  unfold Dev.getTime
  rw [h0, h1, h2, h3]

/-- A time from 0 on splits into its whole seconds, nanoseconds and fraction. -/
theorem splitTime_ofNat (n : Nat) : splitTime n = (n / sec16 % 2 ^ 48, n % sec16 / 65536, n % sec16 % 65536) := by
  have rest : ((n : Int) - n / (sec16 : Int) * sec16).toNat = n % sec16 := by
    rw [Int.sub_eq_iff_eq_add.2 (Int.emod_add_ediv_mul (n : Int) sec16).symm, ← Int.natCast_emod, Int.toNat_natCast]
  have secs : ofSigned 48 ((n : Int) / (sec16 : Int)) = n / sec16 % 2 ^ 48 := by
    rw [ofSigned, ← Int.natCast_ediv, ← Int.natCast_emod, Int.toNat_natCast]
  simp only [splitTime, rest, secs]

/-- Four registers that pack a fraction, nanoseconds and seconds read as that time. -/
theorem Dev.getTime_setWide (d : Dev) (a sec ns frac : Nat) (hf : frac < 65536) (hn : ns < 2 ^ 32) (hs : sec < 2 ^ 48) :
    (d.setWide a 4 (frac + 2 ^ 32 * ns + 2 ^ 64 * sec)).getTime a = joinTime sec ns frac := by
  have word (v i : Nat) (h : i < 4) : ((d.setWide a 4 v).reg (a + 4 * i)).toNat = v / 2 ^ (32 * i) % 2 ^ 32 := by
    rw [Dev.reg_setWide d a 4 v i h, BitVec.toNat_ofNat]
  have w0 (v : Nat) : ((d.setWide a 4 v).reg a).toNat = v % 2 ^ 32 := by simpa using word v 0 (by decide)
  have w1 (v : Nat) : ((d.setWide a 4 v).reg (a + 4)).toNat = v / 2 ^ 32 % 2 ^ 32 := word v 1 (by decide)
  have w2 (v : Nat) : ((d.setWide a 4 v).reg (a + 8)).toNat = v / 2 ^ 64 % 2 ^ 32 := word v 2 (by decide)
  have w3 (v : Nat) : ((d.setWide a 4 v).reg (a + 12)).toNat = v / 2 ^ 96 % 2 ^ 32 := word v 3 (by decide)
  unfold Dev.getTime
  rw [w0, w1, w2, w3]
  congr 1 <;> omega

/-- A time in the range of the registers (R4) reads back as it was stored. -/
theorem Dev.getTime_setTime (d : Dev) (a : Nat) (t : Int) (lo : 0 ≤ t) (hi : t < ((2 ^ 48 * sec16 : Nat) : Int)) :
    (d.setTime a t).getTime a = t := by
  obtain ⟨n, rfl⟩ := Int.eq_ofNat_of_zero_le lo
  simp only [Dev.setTime, splitTime_ofNat]
  simp only [sec16] at hi ⊢
  rw [Dev.getTime_setWide d a _ _ _ (by omega) (by omega) (by omega)]
  simp only [joinTime, sec16]
  omega

/-! ## CAPTURE -/

/-- One of the times of CAPTURE: the time of an instant on a scale into four registers, zeros where no set covers the instant. -/
def Dev.snapTime (d : Dev) (a code r16 : Nat) : Dev :=
  match d.ts.time16 code r16 with
  | some t => d.setTime a t
  | none => d.setWide a 4 0

theorem Dev.snapTime_some {d : Dev} {code r16 : Nat} {x : Int} (a : Nat) (h : d.ts.time16 code r16 = some x) :
    d.snapTime a code r16 = d.setTime a x := by
  simp only [Dev.snapTime, h]

/-- Whatever its four words hold, a time of CAPTURE is a wide write. -/
theorem Dev.snapTime_wide (d : Dev) (a code r16 : Nat) : ∃ v, d.snapTime a code r16 = d.setWide a 4 v := by
  unfold Dev.snapTime
  cases d.ts.time16 code r16 with
  | none => exact ⟨0, rfl⟩
  | some t => exact ⟨_, rfl⟩

@[simp] theorem Dev.snapTime_ts (d : Dev) (a code r16 : Nat) : (d.snapTime a code r16).ts = d.ts := by
  obtain ⟨v, e⟩ := d.snapTime_wide a code r16
  rw [e, Dev.setWide_ts]

theorem Dev.reg_snapTime_ne (d : Dev) (a code r16 : Nat) {b : Nat} (h : b < a ∨ a + 16 ≤ b) :
    (d.snapTime a code r16).reg b = d.reg b := by
  obtain ⟨v, e⟩ := d.snapTime_wide a code r16
  rw [e, Dev.reg_setWide_ne d a 4 v h]

theorem Dev.snapTime_rest (d : Dev) (a code r16 : Nat) (m : SMap Word) :
    { d.snapTime a code r16 with bus.regs := m } = { d with bus.regs := m } := by
  obtain ⟨v, e⟩ := d.snapTime_wide a code r16
  rw [e, Dev.setWide_rest]

theorem Dev.getTime_snapTime {d : Dev} {code r16 : Nat} {x : Int} (a : Nat) (h : d.ts.time16 code r16 = some x)
    (lo : 0 ≤ x) (hi : x < ((2 ^ 48 * sec16 : Nat) : Int)) : (d.snapTime a code r16).getTime a = x := by
  rw [Dev.snapTime_some a h, Dev.getTime_setTime d a x lo hi]

theorem Dev.getTime_snapTime_ne (d : Dev) (a code r16 : Nat) {b : Nat} (h : b + 16 ≤ a ∨ a + 16 ≤ b) :
    (d.snapTime a code r16).getTime b = d.getTime b :=
  Dev.getTime_congr b fun _ hi => Dev.reg_snapTime_ne d a code r16 (by omega)

/-- The device after the raw count and the three times of CAPTURE are stored, VALID not yet set. -/
def Dev.snapped (d : Dev) (r : Nat) : Dev :=
  (((d.setWide A.SNAP_RAW 3 (2 ^ 32 * r)).snapTime (A.SNAP_A 0) 0 (ticks16 r)).snapTime (A.SNAP_B 0) 1 (ticks16 r)).snapTime
    (A.SNAP_SRV 0) 2 (ticks16 r)

theorem Dev.capture_eq (d : Dev) : d.capture = (d.snapped (d.stampTick (d.raw + 1))).setFlag F.SNAP_CTRL_VALID true := by
  have whole (r : Nat) : ticks16 r / 65536 = r := Nat.mul_div_cancel r (by decide)
  simp only [Dev.capture, Dev.snapped, whole]
  rfl

/-- Outside the twelve words of the times, the write of the raw count is the last one. -/
theorem Dev.reg_snapped_ne (d : Dev) (r : Nat) {b : Nat} (h : ¬ Span (A.SNAP_A 0) 48 b) :
    (d.snapped r).reg b = (d.setWide A.SNAP_RAW 3 (2 ^ 32 * r)).reg b := by
  simp only [Span, A.SNAP_A] at h
  unfold Dev.snapped
  rw [Dev.reg_snapTime_ne _ _ _ _ (by simp only [A.SNAP_SRV]; omega), Dev.reg_snapTime_ne _ _ _ _ (by simp only [A.SNAP_B]; omega),
    Dev.reg_snapTime_ne _ _ _ _ (by simp only [A.SNAP_A]; omega)]

/-- The fraction of the raw count is 0. -/
theorem Dev.reg_snapped_frac (d : Dev) (r : Nat) : (d.snapped r).reg A.SNAP_RAW = 0 := by
  rw [Dev.reg_snapped_ne d r (by simp [Span, A.SNAP_RAW, A.SNAP_A])]
  refine (Dev.reg_setWide d A.SNAP_RAW 3 (2 ^ 32 * r) 0 (by decide)).trans ?_
  apply BitVec.eq_of_toNat_eq
  simp

theorem Dev.get64_snapped_raw (d : Dev) (r : Nat) : (d.snapped r).get64 A.SNAP_RAW_LO = r % 2 ^ 64 := by
  rw [Dev.get64_congr (d.setWide A.SNAP_RAW 3 (2 ^ 32 * r)) _ _ (Dev.reg_snapped_ne d r (by simp [Span, A.SNAP_RAW_LO, A.SNAP_A]))
    (Dev.reg_snapped_ne d r (by simp [Span, A.SNAP_RAW_LO, A.SNAP_A]))]
  refine (Dev.wide_setWide (d.setReg A.SNAP_RAW _) A.SNAP_RAW_LO 2 (2 ^ 32 * r / 2 ^ 32)).trans ?_
  rw [Nat.mul_div_cancel_left r (by decide)]

/-- Each scale's time stands in its own four registers: no later write of CAPTURE reaches them. -/
theorem Dev.getTime_snapped (d : Dev) (r : Nat) {code : Nat} {x : Int} (hc : code < 3) (h : d.ts.time16 code (ticks16 r) = some x)
    (lo : 0 ≤ x) (hi : x < ((2 ^ 48 * sec16 : Nat) : Int)) : (d.snapped r).getTime (A.SNAP_A 0 + 16 * code) = x := by
  unfold Dev.snapped
  match code, hc with
  | 0, _ =>
    rw [Dev.getTime_snapTime_ne _ _ _ _ (by decide), Dev.getTime_snapTime_ne _ _ _ _ (by decide)]
    exact Dev.getTime_snapTime (A.SNAP_A 0) (by simpa using h) lo hi
  | 1, _ =>
    rw [Dev.getTime_snapTime_ne _ _ _ _ (by decide)]
    exact Dev.getTime_snapTime (A.SNAP_B 0) (by simpa using h) lo hi
  | 2, _ => exact Dev.getTime_snapTime (A.SNAP_SRV 0) (by simpa using h) lo hi

/-- Setting VALID touches SNAP_CTRL alone. -/
theorem Dev.reg_capture (d : Dev) {b : Nat} (h : b ≠ A.SNAP_CTRL) : d.capture.reg b = (d.snapped (d.stampTick (d.raw + 1))).reg b := by
  rw [Dev.capture_eq, Dev.reg_setFlag_ne _ _ _ h]

theorem Dev.reg_capture_ne (d : Dev) {b : Nat} (h : ¬ (b = A.SNAP_CTRL ∨ Span A.SNAP_RAW 12 b ∨ Span (A.SNAP_A 0) 48 b)) :
    d.capture.reg b = d.reg b := by
  obtain ⟨ctrl, raw, times⟩ := not_or.1 h |>.imp_right not_or.1
  rw [Dev.reg_capture d ctrl, Dev.reg_snapped_ne d _ times, Dev.reg_setWide_ne _ _ _ _ (by simp only [Span] at raw; omega)]

/-- CAPTURE changes registers and nothing else. -/
theorem Dev.capture_rest (d : Dev) (m : SMap Word) : { d.capture with bus.regs := m } = { d with bus.regs := m } := by
  rw [Dev.capture_eq]
  unfold Dev.snapped
  rw [Dev.setFlag_rest, Dev.snapTime_rest, Dev.snapTime_rest, Dev.snapTime_rest, Dev.setWide_rest]

theorem Dev.whenUp_loaded {d : Dev} (f : Dev → Dev) (h : d.loaded = true) : d.whenUp f = f d := if_pos h

theorem State.commit_get64 (s : State) (d : Dev) (a : Nat) : (s.commit d).dev.get64 a = d.get64 a := rfl

theorem State.commit_getTime (s : State) (d : Dev) (a : Nat) : (s.commit d).dev.getTime a = d.getTime a := rfl

/-- Settles O6: each value that CAPTURE stores reads back, as the writes after it, VALID the last, go to other registers. -/
theorem captureAtOneTick : Obligations.CaptureAtOneTick := by
  rintro s safe loaded r rfl
  refine ⟨s.commit (s.dev.whenUp Dev.capture), rfl, ?_⟩
  rw [Dev.whenUp_loaded _ loaded]
  refine ⟨?raw, ?frac, fun code hc x h lo hi => ?time, ?valid, ?still⟩
  case raw =>
    rw [State.commit_get64, Dev.get64_congr _ _ _ (Dev.reg_capture s.dev (by decide)) (Dev.reg_capture s.dev (by decide)),
      Dev.get64_snapped_raw]
  case frac => rw [State.commit_reg, Dev.reg_capture s.dev (by decide), Dev.reg_snapped_frac]
  case time =>
    rw [State.commit_getTime, Dev.getTime_congr _ fun i _ => Dev.reg_capture s.dev (by simp only [A.SNAP_A, A.SNAP_CTRL]; omega),
      Dev.getTime_snapped s.dev _ hc h lo hi]
  case valid =>
    rw [State.commit_flag, Dev.capture_eq]
    exact Dev.flag_setFlag_self _ _ true rfl (by decide)
  case still =>
    exact State.still_commit s s.dev _ safe.posted safe.lposted safe.fposted (Dev.capture_rest s.dev _)
      fun a ha => Dev.reg_capture_ne s.dev ha

end Sys2Proof.Machine
end
